-- ==== Sys2Proof/Word.lean ====
section
/-!
DEFINITION. The plain words of the machine and the shape of its sparse stores.

Every quantity the spec shifts, masks or wraps is a bit vector; addresses used as keys, counts and identities are `Nat`.
-/

namespace Sys2Proof

/-- A 32-bit register word (R116). -/
abbrev Word := BitVec 32

/-- One byte of a memory. -/
abbrev Byte := BitVec 8

/-- A code address or virtual address of 57 bits (R121, R268). -/
abbrev Va := BitVec 57

/-- A sparse store of `w`-bit items by number: strictly rising keys, no item equal to the store's default.
The operations over it stand in `Machine/Cells.lean`. -/
abbrev Cells (w : Nat) := List (Nat × BitVec w)

/-- All 32 lanes of a group (R113). -/
abbrev LaneMask := BitVec 32

end Sys2Proof
end

