-- ==== Sys2Proof/Config.lean ====
section
/-!
DEFINITION. What the spec leaves open: constants without a body, so that no proof can see their values (log 5).

Each free value is drawn with a number: the state's fresh counter, or the thing the value belongs to.
-/

namespace Sys2Proof.Config

/-- Pier clocks that pass in the step taken at a time (R3, R134): the part counts them, the spec gives no duration of a step
(log 5, DESIGN CHOICE). -/
opaque clocksOfStep : Nat → BitVec 16

/-- How far a pier's count is ahead of the device's: each counts from the moment that pier left reset, all within 2^32 clocks (R134)
(log 5, DESIGN CHOICE). -/
opaque pierSkew : Nat → BitVec 32

/-- A value the spec calls unspecified, by its draw (log 5, DESIGN CHOICE). -/
opaque freeWord : Nat → BitVec 32

/-- Whether a write of a transfer that ends with a cause, or of a copy to a downed port, was performed, and which granules of an access
of several granules are performed late, by its draw (R90, R360, R433) (log 5, DESIGN CHOICE). -/
opaque freeBit : Nat → Bool

/-- Watts drawn by each die over a refresh interval, by die and refresh (R243). -/
opaque draw : Nat → Nat → BitVec 16

/-- The bytes of the answer to an attestation request, by request and report (R435) (log 5, DESIGN CHOICE). -/
opaque report : Nat → Nat → BitVec 32

end Sys2Proof.Config
end

