-- ==== Sys2Proof/Machine/Cells.lean ====
section
/-!
DEFINITION. Sparse stores: reading, writing, the canonical form; and lists kept by number.

A store lists only the items that differ from its default, by strictly rising number, so equal stores are equal lists.
-/

namespace Sys2Proof.Machine

/-- The item of a store under a number: the listed one, or the default. -/
def cellGet {w : Nat} (d : BitVec w) : Cells w → Nat → BitVec w
  | [], _ => d
  | (k, v) :: rest, n => if k = n then v else cellGet d rest n

/-- The store without the item under a number. -/
def cellErase {w : Nat} : Cells w → Nat → Cells w
  | [], _ => []
  | (k, v) :: rest, n => if k = n then cellErase rest n else (k, v) :: cellErase rest n

/-- The store with an item listed at its place. -/
def cellPut {w : Nat} : Cells w → Nat → BitVec w → Cells w
  | [], n, x => [(n, x)]
  | (k, v) :: rest, n, x =>
    if k = n then (n, x) :: rest
    else if n < k then (n, x) :: (k, v) :: rest
    else (k, v) :: cellPut rest n x

/-- The store with one item written; the default is not listed. -/
def cellSet {w : Nat} (d : BitVec w) (c : Cells w) (n : Nat) (x : BitVec w) : Cells w :=
  if x = d then cellErase c n else cellPut c n x

/-- Every number of a store is at least `lo`, the numbers rise strictly, and no item is the default. -/
def cellsWfFrom {w : Nat} (d : BitVec w) : Nat → Cells w → Bool
  | _, [] => true
  | lo, (k, v) :: rest => decide (lo ≤ k) && decide (v ≠ d) && cellsWfFrom d (k + 1) rest

/-- The canonical form of a store. -/
def cellsWf {w : Nat} (d : BitVec w) (c : Cells w) : Bool := cellsWfFrom d 0 c

/-- Several items written, in order. -/
def cellSetAll {w : Nat} (d : BitVec w) (c : Cells w) (l : List (Nat × BitVec w)) : Cells w :=
  l.foldl (fun acc kv => cellSet d acc kv.1 kv.2) c

/-- `n` items from number `a` on. -/
def cellRange {w : Nat} (d : BitVec w) (c : Cells w) (a : Nat) : Nat → List (BitVec w)
  | 0 => []
  | n + 1 => cellGet d c a :: cellRange d c (a + 1) n

/-- Consecutive items written from number `a` on. -/
def cellSetRange {w : Nat} (d : BitVec w) (c : Cells w) (a : Nat) : List (BitVec w) → Cells w
  | [] => c
  | x :: rest => cellSetRange d (cellSet d c a x) (a + 1) rest

/-- A little-endian number of bytes. -/
def bytesToNat : List Byte → Nat
  | [] => 0
  | b :: rest => b.toNat + 256 * bytesToNat rest

/-- A number as `n` bytes, little-endian. -/
def natToBytes : Nat → Nat → List Byte
  | 0, _ => []
  | n + 1, x => BitVec.ofNat 8 x :: natToBytes n (x / 256)

/-- The item of a numbered list. -/
def keyFind {α : Type} (n : Nat) : List (Nat × α) → Option α
  | [] => none
  | (k, x) :: rest => if k = n then some x else keyFind n rest

/-- A numbered list with an item written in its place, or at its place in rising order. -/
def keySet {α : Type} (n : Nat) (x : α) : List (Nat × α) → List (Nat × α)
  | [] => [(n, x)]
  | (k, y) :: rest =>
    if k = n then (n, x) :: rest
    else if n < k then (n, x) :: (k, y) :: rest
    else (k, y) :: keySet n x rest

/-- A numbered list with an item rewritten, if it is there. -/
def keyMod {α : Type} (n : Nat) (f : α → α) : List (Nat × α) → List (Nat × α)
  | [] => []
  | (k, x) :: rest => if k = n then (k, f x) :: rest else (k, x) :: keyMod n f rest

/-- A numbered list without the item under a number. -/
def keyErase {α : Type} (n : Nat) (l : List (Nat × α)) : List (Nat × α) := l.filter fun kv => kv.1 ≠ n

/-- A list with one position rewritten. -/
def listSet {α : Type} (f : α → α) : Nat → List α → List α
  | _, [] => []
  | 0, x :: rest => f x :: rest
  | n + 1, x :: rest => x :: listSet f n rest

/-- A list rewritten by position, the first at `n`. -/
def mapFrom {α : Type} (f : Nat → α → α) : Nat → List α → List α
  | _, [] => []
  | n, x :: rest => f n x :: mapFrom f (n + 1) rest

/-- Bits [hi:lo] of a number, as a number of `hi − lo + 1` bits. -/
def bitsOf (x hi lo : Nat) : Nat := x / 2 ^ lo % 2 ^ (hi + 1 - lo)

/-- A field of `n` bits read as two's complement. -/
def signedOf (n x : Nat) : Int := if 2 ^ (n - 1) ≤ x % 2 ^ n then (x % 2 ^ n : Nat) - (2 ^ n : Nat) else (x % 2 ^ n : Nat)

/-- The numbers from 0 below `n`. -/
def upTo (n : Nat) : List Nat := List.range n

/-! ### The same in one pass -/

/-- The numbers of a store rise strictly from `lo` on. -/
def cellsRise {w : Nat} : Nat → Cells w → Bool
  | _, [] => true
  | lo, (k, _) :: rest => decide (lo ≤ k) && cellsRise (k + 1) rest

/-- The store from the first number that is at least `a` on. -/
def cellsFrom {w : Nat} (a : Nat) : Cells w → Cells w
  | [] => []
  | (k, v) :: rest => if k < a then cellsFrom a rest else (k, v) :: rest

/-- The item of a rising store that begins at number `a` or later. -/
def cellHead {w : Nat} (d : BitVec w) (a : Nat) : Cells w → BitVec w
  | [] => d
  | (k, v) :: _ => if k = a then v else d

/-- `cellRange` of a rising store, each item sought from where the one before it stood. -/
def cellRangeOnce {w : Nat} (d : BitVec w) (c : Cells w) (a n : Nat) : List (BitVec w) :=
  match n with
  | 0 => []
  | n + 1 =>
    let r := cellsFrom a c
    cellHead d a r :: cellRangeOnce d r (a + 1) n

theorem cellsRise_mono {w : Nat} {lo lo' : Nat} (h : lo' ≤ lo) {c : Cells w} (hc : cellsRise lo c = true) : cellsRise lo' c = true := by
  cases c with
  | nil => rfl
  | cons p rest =>
    obtain ⟨k, v⟩ := p
    simp only [cellsRise, Bool.and_eq_true, decide_eq_true_eq] at hc ⊢
    exact ⟨by omega, hc.2⟩

theorem cellGet_of_lt {w : Nat} (d : BitVec w) {c : Cells w} :
    ∀ {lo n : Nat}, cellsRise lo c = true → n < lo → cellGet d c n = d := by
  induction c with
  | nil => intros; rfl
  | cons p rest ih =>
    obtain ⟨k, v⟩ := p
    intro lo n hc hn
    simp only [cellsRise, Bool.and_eq_true, decide_eq_true_eq] at hc
    have h1 : k ≠ n := by omega
    simp only [cellGet, h1, if_false]
    exact ih hc.2 (by omega)

theorem cellErase_of_lt {w : Nat} {c : Cells w} :
    ∀ {lo n : Nat}, cellsRise lo c = true → n < lo → cellErase c n = c := by
  induction c with
  | nil => intros; rfl
  | cons p rest ih =>
    obtain ⟨k, v⟩ := p
    intro lo n hc hn
    simp only [cellsRise, Bool.and_eq_true, decide_eq_true_eq] at hc
    have h1 : k ≠ n := by omega
    simp only [cellErase, h1, if_false]
    rw [ih hc.2 (by omega)]

theorem cellGet_cellsFrom {w : Nat} (d : BitVec w) (a n : Nat) (h : a ≤ n) (c : Cells w) :
    cellGet d (cellsFrom a c) n = cellGet d c n := by
  induction c with
  | nil => rfl
  | cons p rest ih =>
    obtain ⟨k, v⟩ := p
    unfold cellsFrom
    split
    · next hk =>
      have h1 : k ≠ n := by omega
      simp [cellGet, h1, ih]
    · rfl

theorem cellsFrom_rise {w : Nat} (a : Nat) (c : Cells w) : ∀ {lo : Nat}, cellsRise lo c = true → cellsRise a (cellsFrom a c) = true := by
  induction c with
  | nil => intros; rfl
  | cons p rest ih =>
    obtain ⟨k, v⟩ := p
    intro lo hc
    simp only [cellsRise, Bool.and_eq_true, decide_eq_true_eq] at hc
    unfold cellsFrom
    split
    · exact ih hc.2
    · next hk =>
      simp only [cellsRise, Bool.and_eq_true, decide_eq_true_eq]
      exact ⟨by omega, hc.2⟩

theorem cellHead_eq {w : Nat} (d : BitVec w) {a : Nat} {c : Cells w} (hc : cellsRise a c = true) : cellHead d a c = cellGet d c a := by
  cases c with
  | nil => rfl
  | cons p rest =>
    obtain ⟨k, v⟩ := p
    simp only [cellsRise, Bool.and_eq_true, decide_eq_true_eq] at hc
    simp only [cellHead, cellGet]
    split
    · rfl
    · rw [cellGet_of_lt d hc.2 (by omega)]

theorem cellRangeOnce_eq {w : Nat} (d : BitVec w) (n : Nat) :
    ∀ (c : Cells w) (a lo : Nat), cellsRise lo c = true → cellRangeOnce d c a n = cellRange d c a n := by
  induction n with
  | zero => intros; rfl
  | succ n ih =>
    intro c a lo hc
    have h : ∀ m b, a ≤ b → cellRange d (cellsFrom a c) b m = cellRange d c b m := by
      intro m
      induction m with
      | zero => intros; rfl
      | succ m ihm =>
        intro b hb
        simp only [cellRange]
        rw [cellGet_cellsFrom d a b hb, ihm (b + 1) (by omega)]
    have hr := cellsFrom_rise a c hc
    simp only [cellRangeOnce, cellRange]
    rw [ih _ _ _ hr, cellHead_eq d hr, cellGet_cellsFrom d a a (Nat.le_refl a), h n (a + 1) (by omega)]

/-- The cells of consecutive items from number `a` on, the default not listed. -/
def cellsListed {w : Nat} (d : BitVec w) (a : Nat) : List (BitVec w) → Cells w
  | [] => []
  | x :: rest => if x = d then cellsListed d (a + 1) rest else (a, x) :: cellsListed d (a + 1) rest

/-- `cellSetRange` of a rising store, gone through once. -/
def cellSetRangeOnce {w : Nat} (d : BitVec w) (c : Cells w) (a : Nat) (bs : List (BitVec w)) : Cells w :=
  match c with
  | [] => cellsListed d a bs
  | (k, v) :: rest =>
    if k < a then (k, v) :: cellSetRangeOnce d rest a bs
    else
      match bs.drop (k - a) with
      | [] => cellsListed d a bs ++ (k, v) :: rest
      | x :: xs =>
        cellsListed d a (bs.take (k - a)) ++ (if x = d then [] else [(k, x)]) ++ cellSetRangeOnce d rest (k + 1) xs

theorem cellSet_below {w : Nat} (d v x : BitVec w) (k n : Nat) (r : Cells w) (h : k < n) :
    cellSet d ((k, v) :: r) n x = (k, v) :: cellSet d r n x := by
  have h1 : k ≠ n := by omega
  have h2 : ¬ n < k := by omega
  unfold cellSet
  split <;> simp [cellErase, cellPut, h1, h2]

theorem cellSetRange_below {w : Nat} (d v : BitVec w) (k : Nat) (bs : List (BitVec w)) :
    ∀ (r : Cells w) (b : Nat), k < b → cellSetRange d ((k, v) :: r) b bs = (k, v) :: cellSetRange d r b bs := by
  induction bs with
  | nil => intros; rfl
  | cons x xs ih =>
    intro r b hb
    simp only [cellSetRange]
    rw [cellSet_below d v x k b r hb]
    exact ih _ _ (by omega)

theorem cellSetRange_nil {w : Nat} (d : BitVec w) (bs : List (BitVec w)) :
    ∀ a, cellSetRange d [] a bs = cellsListed d a bs := by
  induction bs with
  | nil => intros; rfl
  | cons x xs ih =>
    intro a
    simp only [cellSetRange, cellSet, cellErase, cellPut, cellsListed]
    split
    · exact ih _
    · rw [cellSetRange_below d x a xs [] (a + 1) (by omega), ih]

theorem cellSetRange_gap {w : Nat} (d v : BitVec w) (k : Nat) (rest : Cells w) (hc : cellsRise (k + 1) rest = true)
    (bs : List (BitVec w)) :
    ∀ a, a ≤ k → cellSetRange d ((k, v) :: rest) a bs =
      match bs.drop (k - a) with
      | [] => cellsListed d a bs ++ (k, v) :: rest
      | x :: xs =>
        cellsListed d a (bs.take (k - a)) ++ (if x = d then [] else [(k, x)]) ++ cellSetRange d rest (k + 1) xs := by
  induction bs with
  | nil => intro a _; simp [cellSetRange, cellsListed]
  | cons y ys ih =>
    intro a ha
    by_cases hk : k = a
    · subst hk
      have he := cellErase_of_lt (n := k) hc (by omega)
      simp only [cellSetRange, cellSet, cellErase, cellPut, he, Nat.sub_self, List.drop_zero, List.take_zero, cellsListed,
        List.nil_append, if_true]
      split
      · simp
      · rw [cellSetRange_below d y k ys rest (k + 1) (by omega)]; rfl
    · have hlt : a < k := by omega
      have hs : k - a = (k - (a + 1)) + 1 := by omega
      have h := ih (a + 1) (by omega)
      have he := cellErase_of_lt (n := a) hc (by omega)
      rw [hs]
      simp only [cellSetRange, cellSet, cellErase, cellPut, hk, hlt, he, if_true, if_false, List.drop_succ_cons, List.take_succ_cons,
        cellsListed]
      split
      · exact h
      · rw [cellSetRange_below d y a ys _ (a + 1) (by omega), h]
        split <;> simp

theorem cellSetRangeOnce_eq {w : Nat} (d : BitVec w) (c : Cells w) :
    ∀ (lo a : Nat) (bs : List (BitVec w)), cellsRise lo c = true → cellSetRangeOnce d c a bs = cellSetRange d c a bs := by
  induction c with
  | nil => intro _ a bs _; exact (cellSetRange_nil d bs a).symm
  | cons p rest ih =>
    obtain ⟨k, v⟩ := p
    intro lo a bs hc
    simp only [cellsRise, Bool.and_eq_true, decide_eq_true_eq] at hc
    unfold cellSetRangeOnce
    split
    · next h => rw [cellSetRange_below d v k bs rest a h, ih _ _ _ hc.2]
    · next h =>
      rw [cellSetRange_gap d v k rest hc.2 bs a (by omega)]
      split
      · next => simp
      · next => simp [ih _ _ _ hc.2]

/-- Writing a range: in one pass where the numbers rise. -/
def cellSetRangeFast {w : Nat} (d : BitVec w) (c : Cells w) (a : Nat) (bs : List (BitVec w)) : Cells w :=
  if cellsRise 0 c then cellSetRangeOnce d c a bs else cellSetRange d c a bs

/-- Reading a range: in one pass where the numbers rise. -/
def cellRangeFast {w : Nat} (d : BitVec w) (c : Cells w) (a n : Nat) : List (BitVec w) :=
  if cellsRise 0 c then cellRangeOnce d c a n else cellRange d c a n

/-- Writing a range is run in one pass. -/
@[csimp] theorem cellSetRange_eq_fast : @cellSetRange = @cellSetRangeFast := by
  funext w d c a bs
  unfold cellSetRangeFast
  split
  · next h => exact (cellSetRangeOnce_eq d c 0 a bs h).symm
  · rfl

/-- Reading a range is run in one pass. -/
@[csimp] theorem cellRange_eq_fast : @cellRange = @cellRangeFast := by
  funext w d c a n
  unfold cellRangeFast
  split
  · next h => exact (cellRangeOnce_eq d n c a 0 h).symm
  · rfl

end Sys2Proof.Machine
end

