-- ==== Sys2Proof/Machine/Flags.lean ====
section
/-!
DEFINITION. The sticky flags of %fsr (R47) and the rounding modes of R33.
-/

namespace Sys2Proof.Machine

/-- Bits [8:0] of %fsr or %fen (R47). -/
abbrev Flags := BitVec 9

/-- No flag. -/
def noFlags : Flags := 0
/-- [0] invalid. -/
def flagINV : Flags := 0x001
/-- [1] division by zero. -/
def flagDZ : Flags := 0x002
/-- [2] overflow. -/
def flagOVF : Flags := 0x004
/-- [3] underflow. -/
def flagUNF : Flags := 0x008
/-- [4] inexact. -/
def flagINX : Flags := 0x010
/-- [5] saturation. -/
def flagSAT : Flags := 0x020
/-- [6] an image-unit value transform changed a self-image. -/
def flagSYMC : Flags := 0x040
/-- [7] a T8 or T6 NaR was consumed, or an element under a NaN scale. -/
def flagNAR : Flags := 0x080
/-- [8] an X320 term out of range, or a Q40.24 wrap. -/
def flagXOVF : Flags := 0x100

/-- A flag where a condition holds. -/
def flagIf (c : Bool) (f : Flags) : Flags := if c then f else noFlags

/-- The flags of several results, ORed (R48). -/
def orFlags (l : List Flags) : Flags := l.foldl (· ||| ·) noFlags

/-- The rounding modes of R33. -/
inductive RoundMode where
  | rne | rtz | rdn | rup | rna
  deriving DecidableEq, Repr

/-- The mode of a 3-bit code (R33); codes 5 to 7 are illegal and are refused before any rounding. -/
def roundModeOf (code : Nat) : RoundMode :=
  match code with
  | 1 => .rtz
  | 2 => .rdn
  | 3 => .rup
  | 4 => .rna
  | _ => .rne

end Sys2Proof.Machine
end

