-- ==== Sys2Proof/Syntax.lean ====
section
/-!
DEFINITION. The instructions: one constructor per row of the opcode table.

The encoded words carry their fields as R64 lays them out, with the payload of their XP prefix when they have one
(R71): what a field means is the format's affair (R67) and is read in `Decode.lean` and `Machine/Operands.lean`.
The steps of the engines, the front end, the host and the keystone are rows without bits: they carry what the step
is about (which operation, which register value is written).
-/

namespace Sys2Proof

/-- The fields of a 32-bit word above its opcode (R64), and the 22 payload bits of its XP prefix (R71). -/
structure Enc where
  /-- payload [31:10] of the XP before the word, if there is one (R71) -/
  xp : Option (BitVec 22)
  /-- [31:26] third operand -/
  rb : BitVec 6
  /-- [25:20] second operand -/
  ra : BitVec 6
  /-- [19:14] destination or first operand -/
  rd : BitVec 6
  /-- [13:11] guard predicate, 0 is always -/
  guard : BitVec 3
  /-- [10] true: group registers and q guard -/
  u : Bool
  deriving DecidableEq, Repr

/-- The fields of a 16-bit compact word (R77). -/
structure Cmp where
  /-- [15:11] source register or signed immediate -/
  rs : BitVec 5
  /-- [10:6] destination and first source -/
  rd : BitVec 5
  /-- [5] guarded by p1 -/
  g1 : Bool
  deriving DecidableEq, Repr

/-- One constructor per row of `spec/opcode_table.json`: the rows without bits first, then XP, the compact forms and the words. -/
inductive Instr where
  /-- LSU_OP_COMPLETE (R13): A load, store, atomic, tag or cache-control operation completes: results written, stores performed. -/
  | lsuOpComplete (sid g op : Nat)
  /-- GATHER_RETURN (R207): A gather expander's return packet delivers the elements and error bits of a GLD. -/
  | gatherReturn (sid g op : Nat) (errors : BitVec 32)
  /-- CONVERSION_OP_COMPLETE (R311): A BLD, BST or SMP completes, writing results and merging flags. -/
  | conversionOpComplete (sid g op : Nat)
  /-- DECODE_OP_COMPLETE (R317): A VDEC, VDECQ or LDT completes, writing vd or installing the table. -/
  | decodeOpComplete (sid g op : Nat)
  /-- MATRIX_ENTRY_START (R344): A matrix FIFO entry starts in the array once every earlier entry has completed, reading C_old and B. -/
  | matrixEntryStart (pier : Nat)
  /-- MATRIX_ENTRY_COMPLETE (R328): A matrix FIFO entry completes: C or rows written, flags merged, mx lowered, barrier arrival made. -/
  | matrixEntryComplete (pier : Nat)
  /-- TRANSFER_OP_START (R350): The transfer slice starts the head operation of a span queue, in round-robin order. -/
  | transferOpStart (sid q : Nat)
  /-- TRANSFER_OP_COMPLETE (R351): A transfer operation completes: writes performed, results written, barrier arrival made. -/
  | transferOpComplete (sid q : Nat)
  /-- MCAST_COMPLETE (R358): When every member has completed or failed, the completion word is written and MCAST completes. -/
  | mcastComplete (sid q : Nat)
  /-- PEER_WRITE_ACK (R359): The owning device acknowledges a peer write. -/
  | peerWriteAck (sid g op port : Nat)
  /-- PEER_ERROR_RESPONSE (R431): An error answer from the owner becomes a completion cause of the peer access. -/
  | peerErrorResponse (sid g op lane reason : Nat)
  /-- PEER_ACCESS_INGRESS (R431): An incoming peer access is translated and performed in the export context, or answered with an error. -/
  | peerAccessIngress (kind : Nat) (offset : BitVec 47) (data : List (BitVec 8))
  /-- RASTER_PRIMITIVE (R381): The raster engine rasterises a posted primitive over its slices. -/
  | rasterPrimitive (pier : Nat)
  /-- ERFETCH_COMPLETE (R387): An ERFETCH entry completes once 32 lanes are filled or no intervals remain. -/
  | erfetchComplete (pier : Nat)
  /-- IVST_PERFORM (R403): The raster engine performs an IVST's owner checks and stores in queue order. -/
  | ivstPerform (pier : Nat)
  /-- ERFLUSH_COMPLETE (R389): ERFLUSH completes after earlier primitives are tested, discarding their undelivered intervals. -/
  | erflushComplete (pier : Nat)
  /-- IMAGE_ENTRY_COMPLETE (R417): The image unit performs an entry's writes in lane and list order, then completes it. -/
  | imageEntryComplete (pier : Nat)
  /-- WALKER_TEST_POINT (R413): The symmetry walker tests one span point per clock and issues orbit representatives. -/
  | walkerTestPoint (launch : Nat)
  /-- HALT_SKID_EXPIRE (R218): A sibling group stops after its skid of at most 8 instructions and records its state. -/
  | haltSkidExpire (sid g : Nat)
  /-- HANDLER_ENTRY (R220): The trapping group enters the launch's trap handler with the cause registers set. -/
  | handlerEntry (sid : Nat)
  /-- GROUP_SLOT_FREE (R182): An exited group frees its slot once its counters reach 0. -/
  | groupSlotFree (sid g : Nat)
  /-- SPAN_EXIT_COUNTED (R182): A span's exit counts toward launch completion once all its engine operations complete. -/
  | spanExitCounted (sid : Nat)
  /-- SPAN_KILL_REPORT (R224): A killed span's cause is reported after its outstanding engine operations complete. -/
  | spanKillReport (sid : Nat)
  /-- SPAN_RELAUNCH (R267): A span killed with 11:25 in an idempotent launch is relaunched fresh, at most twice. -/
  | spanRelaunch (sid : Nat)
  /-- QDESC_CREATE (R229): The create command of QDESC activates a host queue or refuses it. -/
  | qdescCreate (q : Nat) (w : BitVec 256)
  /-- QDESC_DESTROY_DRAIN (R256): Destroys a queue in DRAIN mode. -/
  | qdescDestroyDrain (q : Nat)
  /-- QDESC_DESTROY_ABORT (R256): Destroys a queue in ABORT mode, dropping undispatched spans. -/
  | qdescDestroyAbort (q : Nat)
  /-- QDESC_DESTROY_ABORT_KILL (R256): Destroys a queue in ABORT-KILL mode, killing placed spans. -/
  | qdescDestroyAbortKill (q : Nat)
  /-- DOORBELL_WRITE (R230): A doorbell write advances a queue's write index. -/
  | doorbellWrite (q : Nat) (v : BitVec 64)
  /-- QUEUE_BIND (R241): In hardware mode a queue with packets is bound to a free slot. -/
  | queueBind
  /-- LAUNCH_PACKET (R234): Consumes a LAUNCH packet and its record, and checks or prologues the launch. -/
  | launchPacket (slot : Nat)
  /-- WAIT_PACKET (R232): Holds the queue until a signal word reaches a value. -/
  | waitPacket (slot : Nat)
  /-- WAIT_REREAD (R232): A waiting queue re-reads its signal word within 4,096 clocks. -/
  | waitReread (slot : Nat)
  /-- SIGNAL_PACKET (R232): Writes or adds a value to a signal word as a sys-scope release. -/
  | signalPacket (slot : Nat)
  /-- FENCE_PACKET (R232): Holds the queue until earlier launches complete. -/
  | fencePacket (slot : Nat)
  /-- TABLE_PACKET (R232): Replaces the timetable VA of the queue's next launch. -/
  | tablePacket (slot : Nat)
  /-- NOP_PACKET (R232): A packet with no effect. -/
  | nopPacket (slot : Nat)
  /-- PROLOGUE_START (R237): A prologue engine starts running a launch's prologue. -/
  | prologueStart (launch : Nat)
  /-- PROLOGUE_INSTRUCTION_LIMIT (R237): The 4,097th prologue instruction fails the launch with 10:26. -/
  | prologueInstructionLimit (engine : Nat)
  /-- PROLOGUE_RERUN (R238): After completion under PREPEAT, the prologue runs again while g16 < n. -/
  | prologueRerun (launch : Nat)
  /-- LAUNCH_COMPLETE (R235): A launch completes; the trestle wraps up and the completion block and signal are written. -/
  | launchComplete (launch : Nat)
  /-- SLOTB_WRITE (R240): A host-assisted write binds, holds or rebinds a slot. -/
  | slotbWrite (slot : Nat) (v : BitVec 64)
  /-- SLOTI_CLEAR (R240): Writing 1 clears slot interrupt cause bits. -/
  | slotiClear (slot : Nat) (v : BitVec 64)
  /-- QUANTUM_EXPIRED (R240): A slot's dispatch quantum expires: it sets hold and interrupts the host. -/
  | quantumExpired (slot : Nat)
  /-- DIE_SLOT_REPORT (R245): Each die reports its free group slots every front-end clock. -/
  | dieSlotReport (die : Nat)
  /-- BATCH_DECISION (R245): The arbiter chooses a launch and the global dispatcher forms a batch for a die. -/
  | batchDecision
  /-- SPAN_PLACE (R246): The die dispatcher places a span on the fitting pier with the most free slots. -/
  | spanPlace (die : Nat)
  /-- POWER_REFRESH (R243): Every 65,536 clocks the power manager refreshes each die's headroom class. -/
  | powerRefresh
  /-- STARVATION_PREEMPT (R249): A candidate waiting 65,536 clocks triggers pre-emption of lower-priority spans. -/
  | starvationPreempt (launch : Nat)
  /-- SLOT_DEADLOCK (R255): All bound slots blocked in WAIT for 2^24 clocks trigger rebinding or a host interrupt. -/
  | slotDeadlock
  /-- PREEMPT_REQUEST (R258): A PREEMPT write requests every running span of a slot. -/
  | preemptRequest (v : BitVec 64)
  /-- SPAN_SAVE (R262): Once every group is parked, the span's engines drain and its image is written. -/
  | spanSave (sid : Nat)
  /-- PREEMPT_TIMEOUT (R265): A span not parked 2^20 clocks after marking raises 10:26 on its slot. -/
  | preemptTimeout (sid : Nat)
  /-- SPAN_RESTORE (R266): A saved span is placed and restored from its image before any group issues. -/
  | spanRestore (sid : Nat)
  /-- TLBINV_START (R275): Setting TLBINV go starts removal of translations in a range. -/
  | tlbinvStart (v : BitVec 128)
  /-- TLBINV_COMPLETE (R275): TLBINV completes when translations, walks and accesses in range are done. -/
  | tlbinvComplete
  /-- REPLAY_RETRY (R277): REPLAY makes parked lanes of a page or context retry. -/
  | replayRetry (v : BitVec 128)
  /-- REPLAY_CANCEL (R277): REPLAY with cancel makes parked lanes trap precisely. -/
  | replayCancel (v : BitVec 128)
  /-- FAULTQ_WRITE (R278): Sets the fault ring or consumed count and lets waiting records be written. -/
  | faultqWrite (v : BitVec 128)
  /-- HW_FAULT_SERVICE (R276): In hardware fault mode a host-owned device page is taken back and the lanes replay. -/
  | hwFaultService (context page : Nat)
  /-- PAGE_MOVE_START (R279): A page move locks the frame, drains earlier writes and copies the frame. -/
  | pageMoveStart (move : Nat)
  /-- PAGE_MOVE_COMPLETE (R279): A move rewrites leaves, removes TLB entries and releases the lock. -/
  | pageMoveComplete (move : Nat)
  /-- MAPOUT_REQUEST (R281): A MAPOUT request starts or, in host-assisted mode, commits a layer map-out. -/
  | mapoutRequest (v : BitVec 64)
  /-- LAYER_FAILING_REPORT (R281): A stack's repair logic reports a failing layer and map-out starts. -/
  | layerFailingReport (stack layer : Nat)
  /-- MAPOUT_COMMIT (R281): After the moves, the layer is removed and a hot-remove event is posted. -/
  | mapoutCommit
  /-- SPARE_WRITE (R281): Writes the spare frame list and resumes a map-out blocked on it. -/
  | spareWrite (v : BitVec 128)
  /-- VIADUCT_LINE_EVICT (R96): Evicting a line with a release record performs that pier's releases at device scope. -/
  | viaductLineEvict (die line : Nat)
  /-- TRESTLE_MOVE_START (R285): The trestle starts the next ready page move of its window. -/
  | trestleMoveStart (launch : Nat)
  /-- PMARK_APPLY (R287): The trestle applies a PMARK, tests crossed REQUIRE entries and returns the result. -/
  | pmarkApply (sid g : Nat)
  /-- TRESTLE_LAUNCH_END (R292): After the last span exits, the trestle finishes its moves and writes the header. -/
  | trestleLaunchEnd (launch : Nat)
  /-- FLIT_RECEIVE (R433): A receiver checks a flit's CRC and requests a replay on error. -/
  | flitReceive (port seq : Nat) (crcOk : Bool)
  /-- FLIT_REPLAY (R433): The sender resends flits bit-identically from the bad one. -/
  | flitReplay (port : Nat)
  /-- FLIT_ACK (R433): An acknowledged flit installs its header-compression table change. -/
  | flitAck (port seq : Nat)
  /-- LINK_RETRAIN (R433): After 8 failed replays of a flit the link retrains. -/
  | linkRetrain (port : Nat)
  /-- PORT_DOWN (R433): A link not up within 1 ms goes down and its operations end with link errors. -/
  | portDown (port : Nat)
  /-- HOST_CXL_MEM_ACCESS (R425): A host CXL.mem access to device memory, held while its frame is locked. -/
  | hostCxlMemAccess (write : Bool) (tier : Nat) (pa : Nat) (data : List (BitVec 8))
  /-- EVQ_WRITE (R429): Sets the event ring or consumed count and releases held events. -/
  | evqWrite (v : BitVec 128)
  /-- PRIVILEGED_REGISTER_WRITE (R278): A write to a privileged register with no row of its own takes effect or is ignored whole. -/
  | privilegedRegisterWrite (offset : Nat) (v : BitVec 128)
  /-- COLD_BOOT (R437): At cold boot the keystone verifies firmware and trains every HBM interface. -/
  | coldBoot (slotA slotB : Nat)
  /-- RECOVERY_IMAGE (R434): In recovery an image received through the mailbox is verified and run. -/
  | recoveryImage (image : Nat)
  /-- WARM_RESET (R437): A warm reset restores training results and resets the front end and piers. -/
  | warmReset (checks : BitVec 8)
  /-- SPDM_REQUEST (R435): The keystone answers an SPDM attestation request over DOE. -/
  | spdmRequest (request : Nat)
  /-- THERMAL_THROTTLE (R436): A die junction above 105 °C makes the power manager withhold issue slots. -/
  | thermalThrottle (die : Nat) (above : Bool)
  /-- THERMAL_TRIP (R436): At 115 °C the keystone stops all dies and posts a thermal trip. -/
  | thermalTrip (die : Nat)
  /-- RESERVED_OPCODE_WORD (R80): A 32-bit word carrying a reserved opcode value, with or without XP, faults 0:0 precisely. -/
  | reservedOpcodeWord (op : BitVec 9) (e : Enc)
  /-- LINK_RETRAINED (R433): A retraining causeway link comes up within 1 ms and the port stays live. -/
  | linkRetrained (port : Nat)
  /-- MAPPED_OUT_LAYER_CLEAR (R437): The host clears a mapped-out HBM layer through the keystone mailbox, ending its exclusion across resets. -/
  | mappedOutLayerClear (stack layer : Nat)
  /-- XP (R71): Prefix that extends the following 32-bit word. -/
  | xp (payload : BitVec 22)
  /-- MOV (R78): 16-bit form of MOV. -/
  | compactMov (c : Cmp)
  /-- ADD.s32 (R78): 16-bit two-address ADD.s32. -/
  | compactAddS32 (c : Cmp)
  /-- SUB.s32 (R78): 16-bit two-address SUB.s32. -/
  | compactSubS32 (c : Cmp)
  /-- AND (R78): 16-bit two-address AND. -/
  | compactAnd (c : Cmp)
  /-- OR (R78): 16-bit two-address OR. -/
  | compactOr (c : Cmp)
  /-- XOR (R78): 16-bit two-address XOR. -/
  | compactXor (c : Cmp)
  /-- SHL (R78): 16-bit two-address SHL. -/
  | compactShl (c : Cmp)
  /-- SHR.z32 (R78): 16-bit two-address SHR.z32. -/
  | compactShrZ32 (c : Cmp)
  /-- ADDI (R78): 16-bit ADDI with a 5-bit immediate. -/
  | compactAddi (c : Cmp)
  /-- LI (R78): 16-bit LI with a 5-bit immediate. -/
  | compactLi (c : Cmp)
  /-- FADD.f32 (R78): 16-bit two-address FADD.f32, rounding RNE. -/
  | compactFaddF32 (c : Cmp)
  /-- FSUB.f32 (R78): 16-bit two-address FSUB.f32. -/
  | compactFsubF32 (c : Cmp)
  /-- FMUL.f32 (R78): 16-bit two-address FMUL.f32. -/
  | compactFmulF32 (c : Cmp)
  /-- FMIN.f32 (R78): 16-bit two-address FMIN.f32. -/
  | compactFminF32 (c : Cmp)
  /-- FMAX.f32 (R78): 16-bit two-address FMAX.f32. -/
  | compactFmaxF32 (c : Cmp)
  /-- MULLO.b32 (R78): 16-bit two-address MULLO.b32. -/
  | compactMulloB32 (c : Cmp)
  /-- ADD.s32 (R137): Adds two 32-bit registers and keeps the low 32 bits. -/
  | addS32 (e : Enc)
  /-- ADDS.s32 (R137): Signed add that clamps the result to the 32-bit range and sets SAT when it clamps. -/
  | addsS32 (e : Enc)
  /-- SUB.s32 (R137): Subtracts two 32-bit registers and keeps the low 32 bits. -/
  | subS32 (e : Enc)
  /-- SUBS.s32 (R137): Signed subtract that clamps the result to the 32-bit range. -/
  | subsS32 (e : Enc)
  /-- MULLO.b32 (R137): Writes the low 32 bits of a product. -/
  | mulloB32 (e : Enc)
  /-- MULHI.s32 (R137): Writes the high word of a signed 64-bit product. -/
  | mulhiS32 (e : Enc)
  /-- MULHI.z32 (R137): Writes the high word of an unsigned 64-bit product. -/
  | mulhiZ32 (e : Enc)
  /-- MAD.b32 (R137): Adds a product to the old destination with wraparound. -/
  | madB32 (e : Enc)
  /-- DIV.s32 (R138): Signed division that handles division by zero and overflow with defined results. -/
  | divS32 (e : Enc)
  /-- DIV.z32 (R138): Unsigned division that handles division by zero with a defined result. -/
  | divZ32 (e : Enc)
  /-- REM.s32 (R138): Signed remainder that takes the sign of the dividend. -/
  | remS32 (e : Enc)
  /-- REM.z32 (R138): Unsigned remainder. -/
  | remZ32 (e : Enc)
  /-- MIN.s32 (R137): Writes the signed minimum of two registers. -/
  | minS32 (e : Enc)
  /-- MAX.s32 (R137): Writes the signed maximum of two registers. -/
  | maxS32 (e : Enc)
  /-- MIN.z32 (R137): Writes the unsigned minimum of two registers. -/
  | minZ32 (e : Enc)
  /-- MAX.z32 (R137): Writes the unsigned maximum of two registers. -/
  | maxZ32 (e : Enc)
  /-- AND (R137): Bitwise AND of two registers. -/
  | and (e : Enc)
  /-- OR (R137): Bitwise OR of two registers. -/
  | or (e : Enc)
  /-- XOR (R137): Bitwise XOR of two registers. -/
  | xor (e : Enc)
  /-- ANDN (R137): ANDs ra with the complement of rb. -/
  | andn (e : Enc)
  /-- SHL (R137): Shifts left by the full 32-bit amount; an amount of 32 or more gives 0. -/
  | shl (e : Enc)
  /-- SHR.z32 (R137): Logical shift right by the full 32-bit amount. -/
  | shrZ32 (e : Enc)
  /-- SHR.s32 (R137): Arithmetic shift right; the amount is capped at 31. -/
  | shrS32 (e : Enc)
  /-- ROTL (R137): Rotates left by the amount mod 32. -/
  | rotl (e : Enc)
  /-- ADDI (R139): Adds a sign-extended immediate. -/
  | addi (e : Enc)
  /-- SHLI (R139): Shifts left by an immediate of 0 to 31. -/
  | shli (e : Enc)
  /-- SHRI.z32 (R139): Logical shift right by an immediate. -/
  | shriZ32 (e : Enc)
  /-- SHRI.s32 (R139): Arithmetic shift right by an immediate. -/
  | shriS32 (e : Enc)
  /-- ANDI (R139): ANDs with a sign-extended immediate. -/
  | andi (e : Enc)
  /-- LI (R140): Loads a sign-extended immediate into a register. -/
  | li (e : Enc)
  /-- LIH (R140): Replaces the high half of a register with a 16-bit immediate. -/
  | lih (e : Enc)
  /-- NOT (R141): Bitwise complement. -/
  | not (e : Enc)
  /-- NEG (R141): Two's-complement negation with wraparound. -/
  | neg (e : Enc)
  /-- ABS.s32 (R141): Signed absolute value with wraparound. -/
  | absS32 (e : Enc)
  /-- CLZ.b32 (R141): Counts leading zeros of a 32-bit value. -/
  | clzB32 (e : Enc)
  /-- CTZ.b32 (R141): Counts trailing zeros of a 32-bit value. -/
  | ctzB32 (e : Enc)
  /-- POPC.b32 (R141): Counts the set bits of a 32-bit value. -/
  | popcB32 (e : Enc)
  /-- BREV.b32 (R141): Reverses the bit order. -/
  | brevB32 (e : Enc)
  /-- BFX.z32 (R142): Extracts a bit field and zero-extends it. -/
  | bfxZ32 (e : Enc)
  /-- BFX.s32 (R142): Extracts a bit field and sign-extends it. -/
  | bfxS32 (e : Enc)
  /-- BFI (R142): Inserts a bit field into the destination. -/
  | bfi (e : Enc)
  /-- PRMT (R143): Permutes bytes of {rb, ra} under a 16-bit selector. -/
  | prmt (e : Enc)
  /-- ILV2 (R144): Interleaves the bits of two values. -/
  | ilv2 (e : Enc)
  /-- ILV3 (R144): Interleaves the bits of three values, the third taken from the old rd. -/
  | ilv3 (e : Enc)
  /-- DLV2 (R144): De-interleaves one component from a 2-way interleave. -/
  | dlv2 (e : Enc)
  /-- DLV3 (R144): De-interleaves one component from a 3-way interleave. -/
  | dlv3 (e : Enc)
  /-- CLZX.b32 (R144): Counts the leading zeros of the XOR of two values. -/
  | clzxB32 (e : Enc)
  /-- CLZ.b64 (R145): Counts the leading zeros of a register pair. -/
  | clzB64 (e : Enc)
  /-- ADD.b64 (R145): Adds two register pairs as 64-bit values. -/
  | addB64 (e : Enc)
  /-- SUB.b64 (R145): Subtracts two register pairs as 64-bit values. -/
  | subB64 (e : Enc)
  /-- ADDA (R145): Adds a shifted, sign-extended 32-bit index to a 64-bit address. -/
  | adda (e : Enc)
  /-- MULW.s32 (R145): Writes the full signed 64-bit product to a register pair. -/
  | mulwS32 (e : Enc)
  /-- ICMP.s32 (R146): Signed compare that writes a predicate and, for an even pd, its complement. -/
  | icmpS32 (e : Enc)
  /-- ICMP.z32 (R146): Unsigned compare that writes a predicate pair. -/
  | icmpZ32 (e : Enc)
  /-- SEL (R147): Selects ra or rb per lane, using the guard field as the selector. -/
  | sel (e : Enc)
  /-- PLOP (R148): Applies a logical operation to two predicates. -/
  | plop (e : Enc)
  /-- P2R (R149): Packs the predicates into a register. -/
  | p2r (e : Enc)
  /-- R2P (R149): R2P: sets predicates 1 to 7 from bits of a register. -/
  | r2p (e : Enc)
  /-- MOV (R150): Copies a register; a g source broadcasts to every lane. -/
  | mov (e : Enc)
  /-- MOVL (R151): Copies one named lane's register into a g register. -/
  | movl (e : Enc)
  /-- MOVS (R152): Reads a special register. -/
  | movs (e : Enc)
  /-- MOVSW (R152): Writes a writable special register. -/
  | movsw (e : Enc)
  /-- CCNT (R153): Reads the pier's 64-bit clock count into a pair. -/
  | ccnt (e : Enc)
  /-- NOP (R154): No operation. -/
  | nop (e : Enc)
  /-- FADD.f32 (R158): Adds two FP32 values in the selected rounding mode. -/
  | faddF32 (e : Enc)
  /-- FSUB.f32 (R158): Subtracts two FP32 values in the selected rounding mode. -/
  | fsubF32 (e : Enc)
  /-- FMUL.f32 (R158): Multiplies two FP32 values in the selected rounding mode. -/
  | fmulF32 (e : Enc)
  /-- FFMA.f32 (R159): Fused FP32 multiply-add with one rounding. -/
  | ffmaF32 (e : Enc)
  /-- FMIN.f32 (R158): minimumNumber of two FP32 values. -/
  | fminF32 (e : Enc)
  /-- FMAX.f32 (R158): maximumNumber of two FP32 values. -/
  | fmaxF32 (e : Enc)
  /-- FCMP.f32 (R160): FP32 compare with NaN-aware conditions that writes a predicate pair. -/
  | fcmpF32 (e : Enc)
  /-- FABS.f32 (R161): Clears the FP32 sign bit. -/
  | fabsF32 (e : Enc)
  /-- FNEG.f32 (R161): Inverts the FP32 sign bit. -/
  | fnegF32 (e : Enc)
  /-- FDIV.f32 (R162): Correctly rounded FP32 division. -/
  | fdivF32 (e : Enc)
  /-- FRCP.f32 (R162): Correctly rounded FP32 reciprocal. -/
  | frcpF32 (e : Enc)
  /-- FSQRT.f32 (R162): Correctly rounded FP32 square root. -/
  | fsqrtF32 (e : Enc)
  /-- FRSQ.f32 (R162): Correctly rounded FP32 reciprocal square root. -/
  | frsqF32 (e : Enc)
  /-- FEXP2.f32 (R162): Correctly rounded FP32 base-2 exponential. -/
  | fexp2F32 (e : Enc)
  /-- FLOG2.f32 (R162): Correctly rounded FP32 base-2 logarithm. -/
  | flog2F32 (e : Enc)
  /-- FSINPI.f32 (R162): Correctly rounded sin(pi·a). -/
  | fsinpiF32 (e : Enc)
  /-- FCOSPI.f32 (R162): Correctly rounded cos(pi·a). -/
  | fcospiF32 (e : Enc)
  /-- FRND.f32 (R163): Rounds an FP32 value to an integral value. -/
  | frndF32 (e : Enc)
  /-- HADD2.f16 (R164): Adds packed FP16 pairs. -/
  | hadd2F16 (e : Enc)
  /-- HADD2.bf16 (R164): Adds packed BF16 pairs. -/
  | hadd2Bf16 (e : Enc)
  /-- HMUL2.f16 (R164): Multiplies packed FP16 pairs. -/
  | hmul2F16 (e : Enc)
  /-- HMUL2.bf16 (R164): Multiplies packed BF16 pairs. -/
  | hmul2Bf16 (e : Enc)
  /-- HFMA2.f16 (R164): Fused multiply-add of packed FP16 pairs. -/
  | hfma2F16 (e : Enc)
  /-- HFMA2.bf16 (R164): Fused multiply-add of packed BF16 pairs. -/
  | hfma2Bf16 (e : Enc)
  /-- DADD.f64 (R165): Adds FP64 register pairs. -/
  | daddF64 (e : Enc)
  /-- DMUL.f64 (R165): Multiplies FP64 register pairs. -/
  | dmulF64 (e : Enc)
  /-- DFMA.f64 (R165): Fused FP64 multiply-add. -/
  | dfmaF64 (e : Enc)
  /-- DCMP.f64 (R166): FP64 compare that writes a predicate pair. -/
  | dcmpF64 (e : Enc)
  /-- CVT.f32.s32 (R167): Converts a signed integer to FP32. -/
  | cvtF32S32 (e : Enc)
  /-- CVT.f32.z32 (R167): Converts an unsigned integer to FP32. -/
  | cvtF32Z32 (e : Enc)
  /-- CVT.s32.f32 (R167): Converts FP32 to a saturated signed integer. -/
  | cvtS32F32 (e : Enc)
  /-- CVT.z32.f32 (R167): Converts FP32 to a saturated unsigned integer. -/
  | cvtZ32F32 (e : Enc)
  /-- CVT.f16x2.f32 (R168): Packs two FP32 values into FP16x2. -/
  | cvtF16x2F32 (e : Enc)
  /-- CVT.bf16x2.f32 (R168): Packs two FP32 values into BF16x2. -/
  | cvtBf16x2F32 (e : Enc)
  /-- CVT.f32.f16 (R168): Widens one FP16 element to FP32 exactly. -/
  | cvtF32F16 (e : Enc)
  /-- CVT.f32.bf16 (R168): Widens one BF16 element to FP32 exactly. -/
  | cvtF32Bf16 (e : Enc)
  /-- CVT.f64.f32 (R168): Widens FP32 to FP64 exactly. -/
  | cvtF64F32 (e : Enc)
  /-- CVT.f32.f64 (R168): Narrows FP64 to FP32 with rounding. -/
  | cvtF32F64 (e : Enc)
  /-- CVT.t8x4.f32 (R169): Encodes four scaled FP32 values as packed T8. -/
  | cvtT8x4F32 (e : Enc)
  /-- CVT.t6x16.f32 (R169): Encodes sixteen scaled FP32 values as packed T6. -/
  | cvtT6x16F32 (e : Enc)
  /-- CVT.f32.t8 (R169): Decodes four scaled T8 elements to FP32. -/
  | cvtF32T8 (e : Enc)
  /-- CVT.f32.t6 (R169): Decodes sixteen scaled T6 elements to FP32. -/
  | cvtF32T6 (e : Enc)
  /-- SCALEX.t8 (R170): Derives the E8M0 T8 block scale from a magnitude. -/
  | scalexT8 (e : Enc)
  /-- SCALEX.t6 (R170): Derives the E8M0 T6 block scale from a magnitude. -/
  | scalexT6 (e : Enc)
  /-- CVT.n8x4.f32 (R169): Encodes four FP32 values as packed N8. -/
  | cvtN8x4F32 (e : Enc)
  /-- CVT.f32.n8 (R169): Decodes one N8 byte to FP32. -/
  | cvtF32N8 (e : Enc)
  /-- SHFL.idx (R172): Reads each lane's value from an indexed source lane. -/
  | shflIdx (e : Enc)
  /-- SHFL.xor (R172): Reads each lane's value from the lane i xor n. -/
  | shflXor (e : Enc)
  /-- SHFL.up (R172): Reads each lane's value from the lane i − n. -/
  | shflUp (e : Enc)
  /-- SHFL.down (R172): Reads each lane's value from the lane i + n. -/
  | shflDown (e : Enc)
  /-- VOTE.any (R173): Writes whether any participant has the predicate true. -/
  | voteAny (e : Enc)
  /-- VOTE.all (R173): Writes whether every participant has the predicate true. -/
  | voteAll (e : Enc)
  /-- BALLOT (R173): Writes the mask of participants whose predicate is true. -/
  | ballot (e : Enc)
  /-- MATCH (R173): Writes each lane the mask of participants holding an equal value. -/
  | matchLanes (e : Enc)
  /-- REDUCE.add.s32 (R174): Integer sum over the participants. -/
  | reduceAddS32 (e : Enc)
  /-- REDUCE.min.s32 (R174): Signed minimum over the participants. -/
  | reduceMinS32 (e : Enc)
  /-- REDUCE.max.s32 (R174): Signed maximum over the participants. -/
  | reduceMaxS32 (e : Enc)
  /-- REDUCE.add.f32 (R174): FP32 sum over the participants in the fixed tree of R57. -/
  | reduceAddF32 (e : Enc)
  /-- SCAN.add.s32 (R174): Inclusive integer prefix sum in lane order. -/
  | scanAddS32 (e : Enc)
  /-- SCAN.add.f32 (R174): Sequential inclusive FP32 prefix sum. -/
  | scanAddF32 (e : Enc)
  /-- XCLR (R175): Clears an X320 accumulator. -/
  | xclr (e : Enc)
  /-- XACC.f32 (R175): Adds an FP32 term exactly to an X320. -/
  | xaccF32 (e : Enc)
  /-- XMAC.f32 (R175): Adds an exact FP32 product to an X320. -/
  | xmacF32 (e : Enc)
  /-- XACC.x320 (R175): Adds one X320 to another. -/
  | xaccX320 (e : Enc)
  /-- XRND.f32 (R176): Rounds an X320 once to FP32. -/
  | xrndF32 (e : Enc)
  /-- XRED (R175): Sums the X320 accumulators of all participants exactly. -/
  | xred (e : Enc)
  /-- BRA (R178): Branches the gang to a PC-relative target. -/
  | bra (e : Enc)
  /-- BRD (R122): Divergent branch that pushes reconvergence entries or parts the slices. -/
  | brd (e : Enc)
  /-- RECONV (R123): Runs the deferred path or merges lanes and pops at a reconvergence point. -/
  | reconv (e : Enc)
  /-- REGANG (R126): Waits at a join point until every live slice arrives, then re-forms one gang. -/
  | regang (e : Enc)
  /-- PART (R126): Parts every live slice of the group. -/
  | part (e : Enc)
  /-- JMPR (R178): Jumps to a target held in a register pair. -/
  | jmpr (e : Enc)
  /-- CALL (R178): Writes the link to g62:g63 and branches. -/
  | call (e : Enc)
  /-- CALLR (R178): Calls a target held in a register pair. -/
  | callr (e : Enc)
  /-- RET (R178): Returns to the address in g62:g63. -/
  | ret (e : Enc)
  /-- EXIT (R181): Removes lanes from the group, or with immediate 1 kills the span. -/
  | exit (e : Enc)
  /-- BAR.INIT (R184): Initialises a named barrier's count and mode. -/
  | barInit (e : Enc)
  /-- BAR.ARV (R185): Arrives on a named barrier without waiting. -/
  | barArv (e : Enc)
  /-- BAR.WAIT (R185): Waits for the current or the arrived phase of a barrier to complete. -/
  | barWait (e : Enc)
  /-- BAR.SYNC (R185): Arrives on a barrier and waits for the phase it joined. -/
  | barSync (e : Enc)
  /-- BAR.QRY (R189): Reads the state word of a barrier. -/
  | barQry (e : Enc)
  /-- WAITC (R190): Stalls until the in-flight counters are at or below their thresholds. -/
  | waitc (e : Enc)
  /-- WAITR (R191): Stalls until one class counter is at or below a register threshold. -/
  | waitr (e : Enc)
  /-- YIELD (R192): Parks at a blocking point when pre-emption is pending; otherwise has no effect. -/
  | yield (e : Enc)
  /-- FENCE (R193): Memory fence of a kind and scope, optionally with remote promotion. -/
  | fence (e : Enc)
  /-- QFENCE (R195): Stalls until the span's earlier operations in the named queues are performed. -/
  | qfence (e : Enc)
  /-- TRAP (R196): Software trap with cause 0:28. -/
  | trap (e : Enc)
  /-- BKPT (R196): Breakpoint trap with cause 0:27. -/
  | bkpt (e : Enc)
  /-- RTE (R197): Returns from the trap handler and resumes every group of the span. -/
  | rte (e : Enc)
  /-- LD.z8 (R205): Loads a zero-extended byte from global memory. -/
  | ldZ8 (e : Enc)
  /-- LD.s8 (R205): Loads a sign-extended byte. -/
  | ldS8 (e : Enc)
  /-- LD.z16 (R205): Loads a zero-extended halfword. -/
  | ldZ16 (e : Enc)
  /-- LD.s16 (R205): Loads a sign-extended halfword. -/
  | ldS16 (e : Enc)
  /-- LD.b32 (R205): Loads a word from global memory. -/
  | ldB32 (e : Enc)
  /-- LD.b64 (R205): Loads 8 bytes into a register pair. -/
  | ldB64 (e : Enc)
  /-- LD.b128 (R205): Loads 16 bytes into four registers. -/
  | ldB128 (e : Enc)
  /-- ST.b8 (R205): Stores a byte to global memory. -/
  | stB8 (e : Enc)
  /-- ST.b16 (R205): Stores a halfword. -/
  | stB16 (e : Enc)
  /-- ST.b32 (R205): Stores a word. -/
  | stB32 (e : Enc)
  /-- ST.b64 (R205): Stores 8 bytes. -/
  | stB64 (e : Enc)
  /-- ST.b128 (R205): Stores 16 bytes. -/
  | stB128 (e : Enc)
  /-- LDD.b32 (R205): Loads a word from the span's deck. -/
  | lddB32 (e : Enc)
  /-- LDD.b64 (R205): Loads 8 bytes from the deck. -/
  | lddB64 (e : Enc)
  /-- LDD.b128 (R205): Loads 16 bytes from the deck. -/
  | lddB128 (e : Enc)
  /-- STD.b32 (R205): Stores a word to the deck. -/
  | stdB32 (e : Enc)
  /-- STD.b64 (R205): Stores 8 bytes to the deck. -/
  | stdB64 (e : Enc)
  /-- STD.b128 (R205): Stores 16 bytes to the deck. -/
  | stdB128 (e : Enc)
  /-- GLD.z8 (R206): Gather-loads a byte through the HBM gather expander. -/
  | gldZ8 (e : Enc)
  /-- GLD.b16 (R206): Gather-loads a halfword. -/
  | gldB16 (e : Enc)
  /-- GLD.b32 (R206): Gather-loads a word. -/
  | gldB32 (e : Enc)
  /-- GLD.b64 (R206): Gather-loads 8 bytes. -/
  | gldB64 (e : Enc)
  /-- ATOM.add.s32 (R208): Atomic 32-bit add that returns the old value. -/
  | atomAddS32 (e : Enc)
  /-- ATOM.min.s32 (R208): Atomic signed minimum. -/
  | atomMinS32 (e : Enc)
  /-- ATOM.max.s32 (R208): Atomic signed maximum. -/
  | atomMaxS32 (e : Enc)
  /-- ATOM.and.b32 (R208): Atomic AND. -/
  | atomAndB32 (e : Enc)
  /-- ATOM.or.b32 (R208): Atomic OR. -/
  | atomOrB32 (e : Enc)
  /-- ATOM.xor.b32 (R208): Atomic XOR. -/
  | atomXorB32 (e : Enc)
  /-- ATOM.xchg.b32 (R208): Atomic exchange. -/
  | atomXchgB32 (e : Enc)
  /-- ATOM.cas.b32 (R208): Atomic 32-bit compare-and-swap. -/
  | atomCasB32 (e : Enc)
  /-- ATOM.cas.b64 (R208): Atomic 64-bit compare-and-swap. -/
  | atomCasB64 (e : Enc)
  /-- ATOM.add.f32 (R208): Atomic FP32 add rounded RNE. -/
  | atomAddF32 (e : Enc)
  /-- ATOM.xadd (R210): Atomically adds an X320 to a memory accumulator line. -/
  | atomXadd (e : Enc)
  /-- ATOM.bump (R209): Bounded atomic bump allocation against a count/limit cell. -/
  | atomBump (e : Enc)
  /-- TAGL (R212): Looks up a key in the span's deck tag table. -/
  | tagl (e : Enc)
  /-- TAGI (R212): Looks up a tag key or installs it in an invalid way. -/
  | tagi (e : Enc)
  /-- TAGE (R212): Invalidates a key in the tag table. -/
  | tage (e : Enc)
  /-- CCTL (R213): Cache control: fetch invalidate, write back, write back and invalidate, or prefetch. -/
  | cctl (e : Enc)
  /-- BLD (R312): Loads and converts an element through a buffer record. -/
  | bld (e : Enc)
  /-- BST (R313): Converts and stores an element through a buffer record. -/
  | bst (e : Enc)
  /-- SMP.near (R314): Nearest-texel sample through a record. -/
  | smpNear (e : Enc)
  /-- SMP.bil (R314): Bilinear sample with 16-bit fraction weights. -/
  | smpBil (e : Enc)
  /-- SMP.epb (R314): Bilinear sample along x and the epipolar view axis. -/
  | smpEpb (e : Enc)
  /-- VDEC (R317): Decodes 128 stream elements from deck into packed lane registers. -/
  | vdec (e : Enc)
  /-- VDECQ (R317): Decodes 32 stream elements, one per lane. -/
  | vdecq (e : Enc)
  /-- LDT (R318): Installs a 128-byte decoder table image as a span table. -/
  | ldt (e : Enc)
  /-- OBRES (R338): Grants an operand-buffer reservation. -/
  | obres (e : Enc)
  /-- OBREL (R339): Releases a reservation after its outstanding users complete. -/
  | obrel (e : Enc)
  /-- OBLD (R341): Posts a FIFO entry that fills dense rows, transposed rows or scales of a reservation. -/
  | obld (e : Enc)
  /-- OBLDT (R342): Posts a FIFO entry that copies the coded lines of one tile into a reservation. -/
  | obldt (e : Enc)
  /-- OBQ (R340): Reads a reservation's read position and state. -/
  | obq (e : Enc)
  /-- MMA.t8 (R344): Posts a T8 matrix multiply-accumulate with one rounding per element. -/
  | mmaT8 (e : Enc)
  /-- MMA.t6 (R344): Posts a T6 matrix multiply-accumulate. -/
  | mmaT6 (e : Enc)
  /-- MMA.s8 (R344): Posts an S8 matrix multiply-accumulate. -/
  | mmaS8 (e : Enc)
  /-- MMA.bf16 (R344): Posts a BF16 matrix multiply-accumulate with the windowed sum. -/
  | mmaBf16 (e : Enc)
  /-- MMA.f16 (R344): Posts an FP16 matrix multiply-accumulate. -/
  | mmaF16 (e : Enc)
  /-- MMA.t8s (R344): Posts a block-scaled T8 matrix multiply-accumulate. -/
  | mmaT8s (e : Enc)
  /-- MMA.t6s (R344): Posts a block-scaled T6 matrix multiply-accumulate. -/
  | mmaT6s (e : Enc)
  /-- MMAX.t8 (R344): Posts an exact Q40.24 T8 matrix accumulation. -/
  | mmaxT8 (e : Enc)
  /-- MMAX.t6 (R344): Posts an exact Q40.24 T6 matrix accumulation. -/
  | mmaxT6 (e : Enc)
  /-- MMAX.s8 (R344): Posts an exact Q40.24 S8 matrix accumulation. -/
  | mmaxS8 (e : Enc)
  /-- XFIX.f32 (R346): Rounds a Q40.24 pair to FP32. -/
  | xfixF32 (e : Enc)
  /-- CPY.4 (R366): Posts a per-lane 4-byte copy on a transfer queue. -/
  | cpy4 (e : Enc)
  /-- CPY.8 (R366): Posts a per-lane 8-byte copy. -/
  | cpy8 (e : Enc)
  /-- CPY.16 (R366): Posts a per-lane 16-byte copy. -/
  | cpy16 (e : Enc)
  /-- CPYB (R367): Posts a 2-D block copy between global memory and deck. -/
  | cpyb (e : Enc)
  /-- BINS (R368): Posts a token scatter of per-lane records into bins. -/
  | bins (e : Enc)
  /-- MCAST (R369): Posts a copy into the decks or reservations of named span-set members. -/
  | mcast (e : Enc)
  /-- CPYP (R370): Posts a copy between a peer window and local memory or deck. -/
  | cpyp (e : Enc)
  /-- ERSET (R395): Loads the span's raster state and reads the view-set entry. -/
  | erset (e : Enc)
  /-- ERPRIM (R396): Reads, checks and posts a primitive record to the raster engine queue. -/
  | erprim (e : Enc)
  /-- ERFETCH (R397): Posts a fetch of the next 32 view intervals. -/
  | erfetch (e : Enc)
  /-- ERFLUSH (R398): Posts a flush that discards undelivered intervals. -/
  | erflush (e : Enc)
  /-- IVMOV (R400): Copies an interval register to six lane registers. -/
  | ivmov (e : Enc)
  /-- IVLD (R400): Loads an interval register from six lane registers. -/
  | ivld (e : Enc)
  /-- IVREP (R401): Writes an interval's representative view and pixel. -/
  | ivrep (e : Enc)
  /-- IVPOS (R401): Writes an interval's pixel at a given view. -/
  | ivpos (e : Enc)
  /-- IVCNT (R401): Counts the views of an interval. -/
  | ivcnt (e : Enc)
  /-- IVMASK (R402): Masks an interval's views and normalises it. -/
  | ivmask (e : Enc)
  /-- IVSPLIT (R402): Splits an interval at a view into two intervals. -/
  | ivsplit (e : Enc)
  /-- IVST (R403): Posts an ownership-checked store of one colour to every view of an interval. -/
  | ivst (e : Enc)
  /-- IMST (R415): Posts a store of a value and all its symmetry images to the image unit. -/
  | imst (e : Enc)
  /-- IMSTX (R415): Posts a symmetry image store limited by a per-lane element mask. -/
  | imstx (e : Enc)
  /-- SYMQ (R418): Returns one symmetry element's image of a point and its status. -/
  | symq (e : Enc)
  /-- PMARK (R287): Advances the launch marker counter through the trestle queue. -/
  | pmark (e : Enc)
  /-- SMWAIT (R289): Blocks until a page range is resident in HBM. -/
  | smwait (e : Enc)
  /-- RESQ (R290): Reports the residency state of one page per lane. -/
  | resq (e : Enc)
  /-- SPAWN (R253): Enqueues a child launch on the parent's slot. -/
  | spawn (e : Enc)
  /-- JOIN (R254): Blocks until every child spawned by the span has completed. -/
  | join (e : Enc)
  /-- QPOP (R252): Pops items from the bay's input queue. -/
  | qpop (e : Enc)
  /-- QPUSH (R252): Pushes items to the bay's output queue. -/
  | qpush (e : Enc)
  /-- PEND (R238): Ends the prologue, writes the record back and dispatches the launch. -/
  | pend (e : Enc)
  /-- PCANCEL (R238): Ends the prologue and cancels the launch with a code. -/
  | pcancel (e : Enc)
  /-- PREPEAT (R238): Ends the prologue as PEND and asks for up to n further runs. -/
  | prepeat (e : Enc)
  deriving DecidableEq, Repr

end Sys2Proof
end

