-- ==== Sys2Proof/Machine/State.lean ====
section
/-!
DEFINITION. The state of the machine: everything the spec gives it, as plain data, and the state after reset.

A store of memory lists only what differs from what an unlisted item reads as (`Cells`); units that come and go (spans, launches,
moves) are lists kept by an identity. The model's own fields are the agenda, the turn, the issuer and the fresh counter.
-/

namespace Sys2Proof.Machine

/-- A cause s:r as the number 32·s + r (R214). -/
abbrev Cause := BitVec 9

/-- A memory's bytes by placed address, in canonical form; an unlisted byte reads 0 (log 4). -/
abbrev Memory := Cells 8

/-! ### In-flight operations (R8, R12 to R14) -/

/-- The counter classes, in the order of the WAITC fields (R8, R190). -/
inductive OpClass where
  | ld | st | cp | mx | dc | im
  deriving DecidableEq, Repr

/-- Which step completes an operation. -/
inductive OpKind where
  /-- the load-store path: LSU_OP_COMPLETE -/
  | lsu
  /-- a gather packet: GATHER_RETURN -/
  | gather
  /-- the conversion stage: CONVERSION_OP_COMPLETE -/
  | conversion
  /-- a decode or table load: DECODE_OP_COMPLETE -/
  | decode
  /-- an engine with a queue of its own: the engine's completion step -/
  | engine
  deriving DecidableEq, Repr

/-- Where an access to one granule acts. -/
inductive Space where
  /-- a byte number of the device's memory, of the decks, or of peer windows -/
  | mem | deck | peer
  deriving DecidableEq, Repr

/-- The bytes of one granule of a load: read, or still to be read from a byte number on (R90, R202). -/
inductive LoadPiece where
  | got (bytes : List Byte)
  | late (space : Space) (key len : Nat)
  deriving DecidableEq, Repr

/-- A result an operation writes at its completion (R13, R14). -/
inductive OpWrite where
  /-- a lane register of one lane -/
  | lane (reg lane : Nat) (v : Word)
  /-- a group register -/
  | group (reg : Nat) (v : Word)
  /-- an interval register of one lane, six words (R385) -/
  | interval (reg lane : Nat) (words : List Word)
  /-- a decoder table of the span (R307) -/
  | table (k : Nat) (image : BitVec 1024)
  /-- a load of some granules, not all read yet: its register, a group register or one of a lane, how many registers, the extension, and
  the granules in order (R90) -/
  | load (grp : Bool) (reg lane count : Nat) (signed : Bool) (size : Nat) (pieces : List LoadPiece)
  /-- a lane's write to a peer window through a port, performed when the owner acknowledges it (R431 to R433) -/
  | peer (lane port key : Nat) (bytes : List Byte)
  deriving DecidableEq, Repr

/-- A counted operation in flight (R12). -/
structure OpRec where
  /-- its place in the group's issue order -/
  id : Nat
  cls : OpClass
  kind : OpKind
  /-- the active lanes at issue (R222) -/
  lanes : LaneMask
  /-- results not yet written -/
  writes : List OpWrite
  /-- flags to merge at completion (R48) -/
  flags : Flags
  /-- the completion cause it will raise (R222), and the queue whose later entries wait for RTE with it: 0 to 3 tq0 to tq3, 4 the raster
  queue, 5 the image queue (R360, R393, R419) -/
  cause : Option Cause
  block : Option Nat
  /-- false while some of its lanes are parked (R204) -/
  ready : Bool
  /-- complete (R13), but an earlier one of its class is not (R12) -/
  done : Bool
  /-- the causeway ports whose answers it awaits (R432), with the lane, one entry per answer -/
  ports : List (Nat × Nat)
  /-- it reads a peer window: the loads of R130 -/
  remoteLoad : Bool
  deriving DecidableEq, Repr

/-! ### Groups and slices (R116, R121) -/

/-- An entry of a reconvergence stack (R121). -/
structure StackEntry where
  rpc : Va
  dmask : BitVec 4
  dpc : Va
  deriving DecidableEq, Repr

/-- A storage of a group that an uncorrectable error strikes (R216). -/
inductive RegStore where
  | lane (reg lane : Nat)
  | group (reg : Nat)
  | lanePredicates (lane : Nat)
  | groupPredicates
  | interval (reg lane : Nat)
  /-- the on-chip reconvergence stack of a slice -/
  | stack (slice : Nat)
  deriving DecidableEq, Repr

/-- The operands of a parked instruction as they stood at its issue (R204). -/
structure Operands where
  vregs : Cells 32
  gregs : Cells 32
  preds : Cells 8
  qpreds : BitVec 8
  deriving DecidableEq, Repr

/-- A 64-byte block of code as fetched (R62, R280): its virtual address and its bytes. -/
structure CodeBlock where
  va : Nat
  bytes : List Byte
  deriving DecidableEq, Repr

/-- A four-lane slice (R121). -/
structure Slice where
  pc : Va
  /-- active lanes -/
  act : BitVec 4
  /-- lanes that have not exited -/
  live : BitVec 4
  /-- the on-chip entries, top first (R125) -/
  stack : List StackEntry
  /-- blocks of 32 entries in the spill area (R125) -/
  spilled : Nat
  /-- while parted, the stack depth at the parting -/
  part : Option Nat
  /-- waiting at REGANG (R126), its pc at the instruction; the length of that instruction with its XP -/
  atRegang : Bool
  regangLen : Nat
  /-- %tpc (R119) -/
  tpc : Va
  /-- at handler entry: the active mask, the part depth, the REGANG wait, the stack depth and %tpc kept for RTE (R220, R223) -/
  savedAct : BitVec 4
  savedPart : Option Nat
  savedRegang : Bool
  entryDepth : Nat
  savedPc : Va
  /-- the code blocks the slice holds (R280) -/
  blocks : List CodeBlock
  deriving DecidableEq, Repr

/-- What a group waits for at an instruction it has issued (R130). -/
inductive Wait where
  /-- the phase of barrier `k` of parity `parity`; `sync`: in the wait half of BAR.SYNC; `token`: the wait has taken the group's token
  (R185, R188) -/
  | barrier (k : Nat) (parity sync token : Bool)
  /-- WAITC, WAITR: each class at most its threshold -/
  | counters (thresholds : List (OpClass × Nat))
  /-- QPOP on an empty input, QPUSH of `n` items (R252) -/
  | pop
  | push (n : Nat)
  /-- JOIN: the children spawned before it (R254) -/
  | join (children : List Nat)
  /-- SMWAIT, or a missed REQUIRE under STALL: ranges of 2 MiB pages, first page and count (R288, R289) -/
  | pages (ranges : List (Nat × Nat)) (atPmark : Bool)
  /-- PMARK of a serial number: its result has not come back, or it is a miss under TRAP (R287, R288) -/
  | pmark (serial : Nat) (missed : Bool)
  /-- YIELD under a pending request (R192) -/
  | yield
  /-- QFENCE: the operations it covers, by queue bit, group and number (R18); for the trestle, the serial numbers of the PMARKs posted
  before it and the marker value they produce (R291) -/
  | queues (ops : List (Nat × Nat × Nat)) (pmarks : List Nat) (marker : Option Nat)
  deriving DecidableEq, Repr

/-- A wait of the gang or of one parted slice. -/
structure GroupWait where
  /-- the slice that waits, none for the gang -/
  slice : Option Nat
  wait : Wait
  /-- its condition has come true: the instruction goes on at its next issue -/
  woken : Bool
  /-- it stood at a blocking point since its span was marked, and counts as one until the save (R261) -/
  parked : Bool
  deriving DecidableEq, Repr

/-- A memory instruction or a fetch parked under R203 step 5, R279 or R280. -/
structure Parked where
  /-- the slice that issued, none for the gang -/
  slice : Option Nat
  /-- lanes not yet performed -/
  lanes : LaneMask
  /-- the operation already counted; none for a fetch or where nothing was posted -/
  op : Option Nat
  /-- the recorded cause (R277); 0 for a move lock -/
  cause : Cause
  /-- the context and the 4 KiB page of the fault (R276, R430) -/
  ctx : Nat
  page : Nat
  /-- parked for a move lock: the tier and frame locked -/
  lock : Option (Nat × Nat)
  /-- the fault is serviced: the lanes retry at the next issue -/
  retry : Bool
  /-- cancelled: the lanes trap at the next issue (R277) -/
  cancel : Bool
  /-- the addresses of the parts not yet performed; none: every part (R91, R203) -/
  left : Option (List Nat)
  /-- the operands at issue; none for a fetch (R204) -/
  operands : Option Operands
  deriving DecidableEq, Repr

/-- A group of 32 lanes (R113, R116) (log 67, DESIGN CHOICE). -/
structure Group where
  /-- %group -/
  num : Nat
  /-- pier group slot (R117) -/
  slot : Nat
  /-- lane registers allocated per lane -/
  alloc : Nat
  /-- v registers, item 32·r + lane -/
  vregs : Cells 32
  /-- g registers -/
  gregs : Cells 32
  /-- lane predicates, item = lane, bit k = p_k; bit 0 is never kept -/
  preds : Cells 8
  /-- group predicates, bit k = q_k; bit 0 is never kept -/
  qpreds : BitVec 8
  /-- interval registers: word 0 by 32·r + lane (63 unlisted), words 1 to 5 by 8·(32·r + lane) + word (R385) -/
  ivHead : Cells 32
  ivBody : Cells 32
  fsr : Flags
  fen : Flags
  tcause : BitVec 9
  tskid : BitVec 4
  tlanes : BitVec 32
  /-- eight slices -/
  slices : List Slice
  /-- counted operations in issue order -/
  ops : List OpRec
  /-- operations issued so far: the next identity -/
  opCount : Nat
  /-- per barrier: arrived, phase of the last arrival, that phase not yet waited for (R183) -/
  arr : BitVec 16
  tok : BitVec 16
  tv : BitVec 16
  waits : List GroupWait
  /-- at handler entry: the waits and the parked accesses kept for RTE (R218, R220) -/
  savedWaits : List GroupWait
  savedParked : List Parked
  parked : List Parked
  /-- after a halt broadcast: instructions issued since (R218) -/
  skid : Option Nat
  /-- stopped for a handler -/
  halted : Bool
  /-- the step of its last issue (R129) -/
  lastIssue : Nat
  /-- the parted slice served last (R129) -/
  lastSlice : Nat
  /-- issue clocks of its quadrant in which it was ready and did not issue (R129) -/
  passed : Nat
  /-- its slot has been freed (R182) -/
  freed : Bool
  /-- storages that hold an uncorrectable error not yet met (R216) (log 67, DESIGN CHOICE) -/
  struck : List RegStore
  deriving DecidableEq, Repr

/-! ### Spans (R113, R183, R320, R350, R376) -/

/-- A named barrier without its per-group bits (R183). -/
structure Barrier where
  init : Bool
  auto : Bool
  n : Nat
  nNext : Nat
  a : Nat
  ph : Bool
  pend : Nat
  deriving DecidableEq, Repr

/-- A reservation of the operand buffer: its 256-bit record (R320) and its stream base. -/
structure Reservation where
  record : BitVec 256
  streamBase : Va
  deriving DecidableEq, Repr

/-- An entry of the span's tag-table partition (R211); `used` orders recency, the greatest the most recent. -/
structure TagEntry where
  valid : Bool
  key : BitVec 48
  used : Nat
  deriving DecidableEq, Repr

/-- A place a transfer reads or writes. -/
inductive Place where
  | mem (va : Nat)
  | deck (sid off : Nat)
  /-- operand-buffer byte of a reservation of a span -/
  | buffer (sid res off : Nat)
  deriving DecidableEq, Repr

/-- A run of bytes copied. -/
structure Piece where
  src : Place
  dst : Place
  len : Nat
  deriving DecidableEq, Repr

/-- A destination member of an MCAST (R357). -/
structure Member where
  num : Nat
  sid : Nat
  /-- the cause it failed with -/
  failed : Option Cause
  /-- its barrier's pend was raised for this operation -/
  pends : Bool
  /-- its rows are written, some granules perhaps not yet performed (R90) -/
  written : Bool
  done : Bool
  deriving DecidableEq, Repr

/-- What a transfer does (R352 to R359). -/
inductive TransferKind where
  /-- CPY, CPYB, CPYP: the pieces in writing order -/
  | copy (pieces : List Piece)
  /-- BINS: the table, the record-size code, and per active lane its bin and record; results into `rd` -/
  | bins (table code : Nat) (items : List (Nat × Nat × List Word)) (rd : Nat)
  /-- MCAST: the 8 descriptor words, its members, the completion word's deck offset -/
  | mcast (words : List Word) (members : List Member)
  deriving DecidableEq, Repr

/-- An entry of a transfer queue (R350). -/
structure TransferEntry where
  g : Nat
  op : Nat
  kind : TransferKind
  barrier : Option Nat
  /-- source of its causes: peer copies answer as R359 -/
  peer : Bool
  started : Bool
  /-- data read at the start, one list per piece -/
  data : List (List Byte)
  /-- the free draw that says which granules of a copy's reads, or once those are over of its writes, are performed early (R90, R353); the
  flag says that it is the writes' -/
  early : Option (Nat × Bool)
  /-- writes to peer windows not yet acknowledged: port, byte number, bytes (R359) -/
  pending : List (Nat × Nat × List Byte)
  /-- ports through which a peer copy's reads await their answers (R359) -/
  readPorts : List Nat
  /-- the cause of an answer of the peer side so far -/
  cause : Option Cause
  deriving DecidableEq, Repr

/-- An interval with its fetch record (R384 to R387). -/
structure Interval where
  y : Nat
  key : Int
  rank : Nat
  first : Nat
  /-- the six words of the interval register -/
  words : List Word
  /-- the six words of the fetch record -/
  fetch : List Word
  deriving DecidableEq, Repr

/-- A pending primitive (R387, R392). -/
structure Primitive where
  record : BitVec 512
  /-- the raster state and view-set entry in force at its posting, and the depth plane's base -/
  state : BitVec 64
  view : BitVec 256
  depthBase : Nat
  /-- next slice to rasterise; past the last, fully rasterised -/
  nextY : Nat
  /-- intervals not yet delivered, in delivery order -/
  intervals : List Interval
  /-- intervals to skip, delivered before a restore or formed already where the rest of the slice waits for room: up to this y, key, rank,
  first view (R387, R392) -/
  resume : Option (Nat × Int × Nat × Nat)
  deriving DecidableEq, Repr

/-- What a saved span's context image (R260) holds in its caisson, kept as a record (log 10, DESIGN CHOICE). -/
structure SavedImage where
  /-- entries caught in the caisson, in capture order: queue, entry, pieces held -/
  caisson : List (Nat × TransferEntry)
  caissonBytes : Nat
  deriving DecidableEq, Repr

/-- Where a span is. -/
inductive SpanPlace where
  /-- placed, waiting for its set or its co-resident launch to be whole (R247, R248) -/
  | waiting (pier : Nat)
  | running (pier : Nat)
  | saved (image : SavedImage)
  /-- exited or killed, and counted -/
  | gone
  deriving DecidableEq, Repr

/-- A span (R113). -/
structure Span where
  launch : Nat
  place : SpanPlace
  bay : Nat
  /-- linear index, start number, or issue number (R114, R115, R413) -/
  index : Nat
  x : Nat
  y : Nat
  z : Nat
  /-- member number in its set, and the set's number -/
  member : Nat
  set : Nat
  /-- order of placement: residence time (R129) -/
  since : Nat
  groups : List Group
  barriers : List Barrier
  /-- decoder tables, none where not loaded (R308) -/
  tables : List (Option (BitVec 1024))
  reservations : List Reservation
  /-- deck units of the pier held, in order (R198) -/
  deckUnits : List Nat
  /-- operand-buffer granules of the pier held, in order (R319) -/
  granules : List Nat
  /-- tag partition (R211) -/
  tags : List TagEntry
  tagClock : Nat
  /-- tq0 to tq3 -/
  queues : List (List TransferEntry)
  /-- raster state and its view-set entry and depth base; none while undefined (R376) -/
  raster : Option (BitVec 64 × BitVec 256 × Nat)
  prims : List Primitive
  /-- queues whose entries wait for RTE with the completion cause being taken: 0 to 3 tq0 to tq3, 4 raster, 5 image (R360, R393, R419) -/
  blocked : List Nat
  /-- a pre-emption request is pending (R257); its timeout has been reported (R265) -/
  marked : Bool
  timedOut : Bool
  /-- that request came from a write to PREEMPT (R258) -/
  byHost : Bool
  /-- the group whose trap is being taken, with the cause and lanes (R217, R218) -/
  trap : Option (Nat × Cause × LaneMask)
  /-- the group running the handler (R220) -/
  handler : Option Nat
  /-- completion causes held while a handler runs: issuing group, cause, lanes, and the queue that waits with it (R222) -/
  held : List (Option Nat × Cause × LaneMask × Option Nat)
  /-- killed with this cause, and the step of the kill (R224, R236) -/
  killed : Option Cause
  killedAt : Nat
  /-- children spawned and not complete (R253) -/
  children : List Nat
  relaunches : Nat
  /-- context area (R259) -/
  areaBase : Nat
  areaSize : Nat
  deriving DecidableEq, Repr

/-! ### Launches (R233, R250, R283, R408) -/

/-- A bay of a pipeline launch (R250, R251), or the one bay of another launch. -/
structure Bay where
  entry : Va
  groups : Nat
  regs : Nat
  deckBytes : Nat
  tags : Nat
  granules : Nat
  /-- input items required to start a span -/
  batch : Nat
  /-- output queue capacity and reserve -/
  capacity : Nat
  reserve : Nat
  /-- items of its input queue, oldest first -/
  input : List (BitVec 64)
  /-- spans started in this bay -/
  started : Nat
  deriving DecidableEq, Repr

/-- An element of the symmetry group (R411): coordinate `a` of the image is the old coordinate `axis a`, reflected, then shifted. -/
structure SymElement where
  axes : List Nat
  flips : List Bool
  /-- shifts in element space and in span space -/
  shifts : List Nat
  spanShifts : List Nat
  /-- value transform: bit 0 negate, bit 1 swap -/
  t : Nat
  deriving DecidableEq, Repr

/-- The symmetry group of a launch and its walker (R410 to R413). -/
structure Symmetry where
  extents : List Nat
  elements : List SymElement
  /-- next span point to test -/
  next : Nat
  /-- representatives issued and not yet dispatched -/
  found : List Nat
  /-- issue numbers given so far -/
  issued : Nat
  deriving DecidableEq, Repr

/-- A timetable entry in the window (R284, R285). -/
structure WindowEntry where
  index : Nat
  key : Nat
  op : Nat
  priority : Nat
  /-- first 2 MiB page and count -/
  page : Nat
  count : Nat
  /-- pages of the range, from 0, that are moved, already in place, or skipped -/
  donePages : List Nat
  /-- pages whose move has been asked of the host (R293) -/
  asked : List Nat
  deriving DecidableEq, Repr

/-- The trestle's state for a launch (R283 to R288). -/
structure Trestle where
  /-- the timetable's VA; none without a timetable -/
  table : Option Nat
  policy : Nat
  entries : Nat
  hbmList : List Nat
  hbmVa : Nat
  hbmCap : Nat
  farList : List Nat
  farVa : Nat
  farCap : Nat
  /-- the marker counter -/
  marker : Nat
  misses : Nat
  lastMiss : Nat
  window : List WindowEntry
  /-- next entry to enter the window, and the key of the one before it -/
  next : Nat
  lastKey : Nat
  /-- pin counts by page -/
  pins : List (Nat × Nat)
  /-- pages brought in by PREFER, earliest first; those among them whose eviction has been asked of the host (R286, R293) -/
  preferred : List Nat
  askedOut : List Nat
  /-- PMARKs in the order they reached the trestle: serial number, span, group, amount -/
  posted : List (Nat × Nat × Nat × Nat)
  /-- header and lists written back (R292) -/
  ended : Bool
  deriving DecidableEq, Repr

/-- How far a launch has come. -/
inductive LaunchPhase where
  /-- its prologue has not run, or runs again (R237, R238) -/
  | prologue
  /-- its prologue runs on an engine -/
  | inPrologue (engine : Nat)
  /-- its spans are dispatched (R242) -/
  | running
  /-- every run is over; the completion block is to be written (R235) -/
  | finishing
  deriving DecidableEq, Repr

/-- A launch (R233). -/
structure Launch where
  slot : Nat
  /-- its host queue; none for a child -/
  queue : Option Nat
  ctx : Nat
  /-- the span that spawned it -/
  parent : Option Nat
  depth : Nat
  /-- the 128-byte record, and the timetable VA that replaces its own (R232) -/
  record : BitVec 1024
  timetable : Option Nat
  phase : LaunchPhase
  /-- run number of the prologue, and the last asked for by PREPEAT (R238) -/
  run : Nat
  repeatTo : Nat
  runsDone : Nat
  /-- buffer records, and the interleave patterns they name (R294, R300) -/
  buffers : List (BitVec 320)
  patterns : List (Nat × BitVec 2048)
  bays : List Bay
  symmetry : Option Symmetry
  trestle : Trestle
  /-- spans: next linear index, and how many the grid has -/
  next : Nat
  total : Nat
  /-- spans placed, saved or running, not yet counted -/
  active : Nat
  completed : Nat
  killed : Nat
  dropped : Nat
  /-- cause of the span killed first, and the step of that kill (R236) -/
  firstCause : Cause
  firstAt : Nat
  /-- PCANCEL's code; failure cause before any span; destroyed mode 4 to 6 -/
  cancel : Option Nat
  failed : Option Cause
  destroyed : Option Nat
  deferrals : Nat
  admitted : Bool
  /-- spans saved and waiting for restore, in the order saved -/
  saved : List Nat
  deriving DecidableEq, Repr

/-! ### Engines of a pier (R8) -/

/-- The matrix forms (R329). -/
inductive MmaForm where
  | t8 | t6 | s8 | bf16 | f16 | t8s | t6s | xt8 | xt6 | xs8
  deriving DecidableEq, Repr

/-- What a matrix FIFO entry does. -/
inductive MatrixKind where
  /-- OBLD: rb[5:4], and per lane its number, its source address and its index (R341) -/
  | load (mode : Nat) (lanes : List (Nat × Nat × Nat))
  /-- OBLDT: the tile's index entry and the stream base -/
  | loadCoded (entry : BitVec 128) (base : Nat)
  /-- MMA and MMAX: the A registers of each lane, its scale word, the first C register, and the mode tested at issue (R329) -/
  | mma (form : MmaForm) (a : List (List Word)) (scales : List Word) (c mode : Nat)
  deriving DecidableEq, Repr

/-- An entry of a pier's matrix FIFO (R328). -/
structure MatrixEntry where
  sid : Nat
  g : Nat
  op : Nat
  res : Nat
  kind : MatrixKind
  barrier : Option Nat
  /-- started in the array: C_old and B are read (R331) -/
  started : Bool
  deriving DecidableEq, Repr

/-- What a lane of an IVST stores (R403). -/
structure StoreItem where
  /-- the six words of its interval -/
  interval : List Word
  colour : List Word
  /-- the slice word: vertical row, panel, y -/
  slice : Word
  /-- the view-set entry of the panel -/
  view : BitVec 256
  deriving DecidableEq, Repr

/-- What a raster queue entry does (R389). -/
inductive RasterKind where
  | set
  /-- the span's first primitive not fully rasterised, in posting order -/
  | prim
  /-- ERFETCH into interval register `iv` and registers from `rd` -/
  | fetch (iv rd : Nat)
  | flush
  /-- IVST through record `buf`, `release` at span or grp scope; its lanes in order and how many of their views are served -/
  | store (buf : Nat) (release : Bool) (items : List StoreItem) (served : Nat)
  deriving DecidableEq, Repr

/-- An entry of a pier's raster engine queue. -/
structure RasterEntry where
  sid : Nat
  g : Nat
  /-- its number in the group's issue order -/
  op : Nat
  kind : RasterKind
  deriving DecidableEq, Repr

/-- One write of an image entry (R415): coordinates and channel registers. -/
structure ImageWrite where
  x : Int
  y : Int
  z : Int
  regs : List Word
  deriving DecidableEq, Repr

/-- An entry of a pier's image unit queue (R417). -/
structure ImageEntry where
  sid : Nat
  g : Nat
  op : Nat
  buf : Nat
  /-- a release at span or grp scope -/
  release : Bool
  writes : List ImageWrite
  /-- writes performed -/
  done : Nat
  flags : Flags
  deriving DecidableEq, Repr

/-! ### Translation (R270 to R281) -/

/-- What a translation yields (R271, R272). -/
structure Xlat where
  tier : Nat
  /-- byte address within the tier of the page's first byte -/
  base : Nat
  /-- log2 of the leaf's size -/
  size : Nat
  r : Bool
  w : Bool
  x : Bool
  hostOwned : Bool
  swizzle : Nat
  policy : Nat
  window : Bool
  deriving DecidableEq, Repr

/-- A TLB entry: context, page number of its leaf size, leaf (R274). -/
structure TlbEntry where
  ctx : Nat
  page : Nat
  leaf : Xlat
  deriving DecidableEq, Repr

/-- A window translation held for a context (R270, R274): base, limit, offset, attributes. -/
structure Window where
  ctx : Nat
  valid : Bool
  base : Nat
  limit : Nat
  offset : Nat
  attrs : BitVec 64
  deriving DecidableEq, Repr

/-- A fault posted and not yet serviced (R276). -/
structure FaultRec where
  ctx : Nat
  page : Nat
  cause : Cause
  access : Nat
  pier : Nat
  va : Nat
  /-- serviced on the device (R276) -/
  hw : Bool
  deriving DecidableEq, Repr

/-- Who moves a page (R279, R281, R285). -/
inductive MoveOwner where
  /-- a launch's trestle: for an entry, or to reclaim a frame (R286) -/
  | trestle (launch : Nat) (entry : Option Nat)
  | mapout
  deriving DecidableEq, Repr

/-- A page move (R279). -/
structure Move where
  id : Nat
  owner : MoveOwner
  ctx : Nat
  /-- 2 MiB page number in the context -/
  page : Nat
  srcTier : Nat
  srcFrame : Nat
  dstTier : Nat
  dstFrame : Nat
  /-- the frame is locked and copied -/
  started : Bool
  /-- the entries that name the frame as the move was decided, by number of their first byte, with the values expected (R275) -/
  leaves : List (Nat × Nat)
  deriving DecidableEq, Repr

/-- Which engine waits at a page. -/
inductive EngineId where
  | transfer (sid q : Nat)
  | raster (pier : Nat)
  | image (pier : Nat)
  deriving DecidableEq, Repr

/-- An engine's access that waits for a fault's service, or is cancelled (R360, R393, R419, R277). -/
structure EngineWait where
  engine : EngineId
  ctx : Nat
  page : Nat
  cancelled : Bool
  deriving DecidableEq, Repr

/-- A layer map-out in progress (R281). -/
structure MapOut where
  stack : Nat
  layer : Nat
  /-- 1 moving, 2 switching, 3 blocked, 4 committing -/
  phase : Nat
  deriving DecidableEq, Repr

/-- The translation side: registers of R278 and what they govern. -/
structure Vm where
  ctxtab : BitVec 64
  mapout : BitVec 64
  tlbinv : BitVec 128
  replay : BitVec 128
  faultq : BitVec 128
  spare : BitVec 128
  /-- HBMCAP[0..7] -/
  hbmcap : List (BitVec 64)
  /-- QCTX by queue -/
  qctx : Cells 64
  /-- records written since the ring changed; records waiting for room; faults not serviced -/
  faultSeq : Nat
  faultWaiting : List FaultRec
  faultOpen : List FaultRec
  engineWaits : List EngineWait
  /-- pier TLBs and die TLBs by number, newest first; windows held -/
  pierTlb : List (Nat × List TlbEntry)
  dieTlb : List (Nat × List TlbEntry)
  windows : List Window
  moves : List Move
  nextMove : Nat
  mapOut : Option MapOut
  /-- layers waiting for their map-out: stack and layer -/
  mapWaiting : List (Nat × Nat)
  deriving DecidableEq, Repr

/-! ### Front end (R229 to R258) -/

/-- A host queue (R229 to R231) (log 26, DEDUCED). -/
structure Queue where
  desc : BitVec 256
  writeIndex : BitVec 64
  readIndex : BitVec 64
  /-- stopped by a queue error (R230) -/
  stopped : Bool
  /-- the VA of a TABLE packet not yet used (R232) -/
  table : Option Nat
  /-- the WAIT packet it is held at: context, address and value (R438); held at a FENCE -/
  waiting : Option (Nat × Nat × Nat)
  fenced : Bool
  deriving DecidableEq, Repr

/-- A hardware queue slot (R240). -/
structure Slot where
  slotb : BitVec 64
  sloti : BitVec 64
  /-- launches of the slot not yet complete, in starting order: children ahead of host packets (R253) -/
  launches : List Nat
  deriving DecidableEq, Repr

/-- A prologue engine (R237): its registers are those of a group run with U = 1. -/
structure PrologueEngine where
  launch : Option Nat
  grp : Group
  /-- instructions executed in this run -/
  count : Nat
  deriving DecidableEq, Repr

/-- One span of a batch sent to a die and not yet placed (R245, R246). -/
structure BatchSpan where
  launch : Nat
  /-- a saved span to restore, or a new one -/
  saved : Option Nat
  bay : Nat
  /-- linear index, start number or issue number, and the linear index of the grid point it covers -/
  index : Nat
  point : Nat
  deriving DecidableEq, Repr

/-- The front end. -/
structure FrontEnd where
  fmode : BitVec 64
  powcap : BitVec 64
  preempt : BitVec 64
  ctxpool : BitVec 128
  queues : List (Nat × Queue)
  slots : List (Nat × Slot)
  engines : List PrologueEngine
  /-- headroom class of each die (R243) -/
  headroom : List Nat
  /-- slot last chosen at each priority (R242) -/
  lastSlot : List Nat
  /-- queue last bound at each priority (R241) -/
  lastQueue : List Nat
  /-- free group slots each die reported (R245) -/
  reports : List Nat
  /-- spans sent to each die and not yet placed, in order -/
  batches : List (List BatchSpan)
  nextLaunch : Nat
  nextSpan : Nat
  placements : Nat
  deriving DecidableEq, Repr

/-! ### Host, causeway and keystone (R425 to R437) -/

/-- The state of a causeway link (R433). -/
inductive LinkState where
  | up | retraining | down
  deriving DecidableEq, Repr

/-- A flit sent (R433) (log 20, DESIGN CHOICE). -/
structure Flit where
  seq : Nat
  /-- its header: the destination device, as an entry of the compression table where one stood as it was sent, else in full -/
  dev : Nat
  entry : Option Nat
  /-- the table entry it installs for its header, and one that it removes, both once it is acknowledged -/
  installs : Option Nat
  removes : Option Nat
  deriving DecidableEq, Repr

/-- A causeway port (R433). -/
structure Link where
  state : LinkState
  /-- sequence number of the next flit to send, and the flits sent and not acknowledged (the replay buffer) -/
  next : Nat
  unacked : List Flit
  /-- every flit as it went over the link, those sent again with it -/
  wire : List Flit
  /-- sequence number expected at the receiver; it has asked for a replay -/
  expected : Nat
  replayAsked : Bool
  /-- failed replays of one flit -/
  failures : Nat
  /-- the header-compression table: entry number and device -/
  headers : List (Nat × Nat)
  deriving DecidableEq, Repr

/-- What non-volatile storage holds of a stack's training (R437): its serial number, its HBMCAP present mask, and the per-lane delay and
reference-voltage results as one number. -/
structure Training where
  serial : Nat
  present : BitVec 16
  results : Word
  deriving DecidableEq, Repr

/-- Whether the part runs (R434, R436). -/
inductive BootState where
  | running | recovery | heldInReset
  deriving DecidableEq, Repr

/-- The host side and the keystone (log 67, DESIGN CHOICE) (log 87, DESIGN CHOICE). -/
structure Outside where
  /-- MSI-X vectors fired, in order (R427) -/
  vectors : List Nat
  /-- the MSI-X table by vector and the pending-bit array by word of 64 bits (R426) (log 87, DESIGN CHOICE) -/
  msixTable : Cells 128
  msixPending : Cells 64
  evq : BitVec 128
  eventSeq : Nat
  eventsHeld : List (BitVec 256)
  /-- uncorrectable errors met and not yet reported, by their cause (R429) -/
  ras : List Cause
  pmhead : BitVec 64
  pmdraw : BitVec 64
  expctx : BitVec 16
  podId : Nat
  links : List Link
  /-- answers of the owning device to incoming peer accesses: data, or an error reason -/
  peerAnswers : List (Option (List Byte) × Nat)
  /-- incoming accesses held for a move lock: kind, offset, data (R279) -/
  ingressHeld : List (Nat × Nat × List Byte)
  /-- answers to host accesses to the memory ranges, data read or poison; and the accesses held: write, tier, address, data -/
  hostAnswers : List (Option (List Byte))
  hostHeld : List (Bool × Nat × Nat × List Byte)
  /-- host bus pages of 4 KiB whose accesses the host answers with an error (R438) -/
  hostErrors : List Nat
  boot : BootState
  /-- the image that runs, those in flash slots A and B, and the fused least security version -/
  image : Nat
  flashA : Nat
  flashB : Nat
  fusedVersion : Nat
  /-- layers mapped out and not cleared by the host, in non-volatile storage: stack and layer (R437) -/
  excluded : List (Nat × Nat)
  /-- the serial numbers of the stacks fitted; what non-volatile storage holds of each stack's training; the results in force (R437) -/
  serials : List Nat
  stored : List Training
  trained : List Word
  /-- stacks fully trained at the last reset -/
  retrained : List Bool
  /-- signatures left in the LMS tree (R435), reports given, requests refused -/
  lmsLeft : Nat
  reports : List (Nat × Word)
  refused : Nat
  /-- dies whose issue is withheld (R3, R436) -/
  throttled : List Bool
  deriving DecidableEq, Repr

/-! ### The machine -/

/-- A write of one granule that an access of several granules has still to perform (R90): the operation it belongs to, none for a host write. -/
structure Late where
  owner : Option (Nat × Nat × Nat)
  space : Space
  key : Nat
  bytes : List Byte
  /-- the scope of the atomic that writes it; none for another write (R85) -/
  point : Option Nat
  deriving DecidableEq, Repr

/-- Whose turn it is: an issue of a quadrant of a pier, an instruction of a prologue engine, or a step of another agent (log 3). -/
inductive Turn where
  | issue (pier quadrant : Nat)
  | prologue (engine : Nat)
  | event (i : Instr)
  deriving DecidableEq, Repr

/-- Who issues the instruction being executed. -/
inductive Issuer where
  | nobody
  /-- the gang of a group, or one parted slice of it -/
  | gang (sid g : Nat) (slice : Option Nat)
  | prologue (engine : Nat)
  deriving DecidableEq, Repr

/-- Why the machine stops with a fault. -/
inductive Fault where
  /-- Raised by `step` when the bytes fetched end before the instruction word does: fetching always yields enough, so no run raises
  it. Safe: the model would stop where the hardware goes on. -/
  | shortFetch
  deriving DecidableEq, Repr

/-- Why the machine gives an instruction no meaning. -/
inductive Refusal where
  /-- Raised by an arm of `exec` whose instruction has no meaning yet. Safe: the model stops. -/
  | notModelled (mnemonic : String)
  deriving DecidableEq, Repr

/-- The state of the FSX-768. -/
structure State where
  /-- the three tiers: HBM, far tier, host; item 2^52·tier + placed address (R268) -/
  mem : Memory
  /-- the windows of peer devices: item 2^47·D + offset (R430) -/
  peer : Memory
  /-- uncorrectable 8-byte granules of `mem`, by granule number (R204) -/
  poison : Cells 1
  /-- the decks: item 2^20·pier + byte (R198) -/
  deck : Memory
  /-- uncorrectable 8-byte words of the decks (R199) -/
  deckPoison : Cells 1
  /-- context of each deck unit's last holder plus 1; 0: never held (R198) -/
  deckCtx : Cells 9
  /-- the operand buffers: item 2^18·pier + byte (R319) -/
  opbuf : Memory
  /-- uncorrectable 8-byte words of the operand buffers (R335) -/
  bufPoison : Cells 1
  /-- each pier's fetched copies of code: pier, tier·2^52 + placed address, block (R63) -/
  icache : List (Nat × Nat × List Byte)
  /-- release records of the viaduct caches: die, 128-byte line, pier (R96) -/
  releases : List (Nat × Nat × Nat)
  /-- matrix FIFOs, raster queues and image queues by pier -/
  matrix : List (Nat × List MatrixEntry)
  raster : List (Nat × List RasterEntry)
  image : List (Nat × List ImageEntry)
  /-- writes of single granules not yet performed, in the order they are performed (R90) -/
  late : List Late
  /-- the queue a pier's transfer engine started last: pier, span, queue (R350) -/
  served : List (Nat × Nat × Nat)
  spans : List (Nat × Span)
  launches : List (Nat × Launch)
  vm : Vm
  fe : FrontEnd
  outside : Outside
  /-- pier clocks since reset (R134) -/
  clock : BitVec 64
  /-- steps taken: orders issues (R129) -/
  time : Nat
  /-- MODEL: values drawn so far that the spec leaves open (log 5) -/
  fresh : Nat
  /-- MODEL: which agent moves next, in order (log 3) -/
  agenda : List Turn
  /-- MODEL: the pier and quadrant that issue next when the agenda is empty (log 3) -/
  turn : Nat
  /-- MODEL: who issues the instruction being executed -/
  issuer : Issuer
  deriving DecidableEq, Repr

/-! ### Reset -/

/-- A barrier at span start (R183). -/
def Barrier.reset : Barrier := ⟨false, false, 0, 0, 0, false, 0⟩

/-- A slice at group start (R118); %tpc 0 (log 2, DESIGN CHOICE). -/
def Slice.start (entry : Va) : Slice where
  pc := entry
  act := 0xF
  live := 0xF
  stack := []
  spilled := 0
  part := none
  atRegang := false
  regangLen := 4
  tpc := 0
  savedAct := 0xF
  savedPart := none
  savedRegang := false
  entryDepth := 0
  savedPc := 0
  blocks := []

/-- A group as it starts (R118, R12, R47); the trap registers 0 (log 2, DESIGN CHOICE). -/
def Group.start (num slot alloc : Nat) (entry : Va) : Group where
  num := num
  slot := slot
  alloc := alloc
  vregs := []
  gregs := []
  preds := []
  qpreds := 0
  ivHead := []
  ivBody := []
  fsr := 0
  fen := 0
  tcause := 0
  tskid := 0
  tlanes := 0
  slices := List.replicate 8 (Slice.start entry)
  ops := []
  opCount := 0
  arr := 0
  tok := 0
  tv := 0
  waits := []
  savedWaits := []
  savedParked := []
  parked := []
  skid := none
  halted := false
  lastIssue := 0
  lastSlice := 7
  passed := 0
  freed := false
  struck := []

/-- The translation side after reset (R278) (log 2, DESIGN CHOICE). -/
def Vm.reset : Vm where
  ctxtab := 0
  mapout := 0
  tlbinv := 0
  replay := 0
  faultq := 0
  spare := 0
  hbmcap := List.replicate 8 0x10FFFF
  qctx := []
  faultSeq := 0
  faultWaiting := []
  faultOpen := []
  engineWaits := []
  pierTlb := []
  dieTlb := []
  windows := []
  moves := []
  nextMove := 0
  mapOut := none
  mapWaiting := []

/-- A host queue after reset: absent (R229). -/
def Queue.reset : Queue := ⟨0, 0, 0, false, none, none, false⟩

/-- A slot after reset: unbound (R240). -/
def Slot.reset : Slot := ⟨0, 0, []⟩

/-- A prologue engine without a prologue. -/
def PrologueEngine.reset : PrologueEngine := ⟨none, Group.start 0 0 8 0, 0⟩

/-- The front end after reset: every function in hardware mode (R239), POWCAP's weights 0 (R243); headroom 7, slot 127 and queue 4,095
last, 16,384 free slots a die (log 2, DESIGN CHOICE). -/
def FrontEnd.reset : FrontEnd where
  fmode := 0x3F
  powcap := 0
  preempt := 0
  ctxpool := 0
  queues := []
  slots := []
  engines := List.replicate 4 PrologueEngine.reset
  headroom := List.replicate 4 7
  lastSlot := List.replicate 8 127
  lastQueue := List.replicate 8 4095
  reports := List.replicate 4 16384
  batches := List.replicate 4 []
  nextLaunch := 0
  nextSpan := 0
  placements := 0

/-- A link after bring-up. -/
def Link.reset : Link := ⟨.up, 0, [], [], 0, false, 0, []⟩

/-- What a stack's training has stored as the part is brought up (log 2, DESIGN CHOICE). -/
def Training.reset (serial : Nat) : Training := ⟨serial, 0xFFFF, 0⟩

/-- The host side and the keystone after reset: PMHEAD's H_d 7 (R428); the rest log 2, DESIGN CHOICE. -/
def Outside.reset : Outside where
  vectors := []
  msixTable := []
  msixPending := []
  evq := 0
  eventSeq := 0
  eventsHeld := []
  ras := []
  pmhead := 0x7777
  pmdraw := 0
  expctx := 0
  podId := 0
  links := List.replicate 16 Link.reset
  peerAnswers := []
  ingressHeld := []
  hostAnswers := []
  hostHeld := []
  hostErrors := []
  boot := .running
  image := 1
  flashA := 1
  flashB := 1
  fusedVersion := 0
  excluded := []
  serials := List.range 8
  stored := (List.range 8).map Training.reset
  trained := List.replicate 8 0
  retrained := List.replicate 8 false
  lmsLeft := 1024
  reports := []
  refused := 0
  throttled := List.replicate 4 false

/-- The machine right after reset: no queue, no launch, no span; memory lists nothing (log 4) (log 2, DESIGN CHOICE). -/
def State.reset : State where
  mem := []
  peer := []
  poison := []
  deck := []
  deckPoison := []
  deckCtx := []
  opbuf := []
  bufPoison := []
  icache := []
  releases := []
  matrix := []
  raster := []
  image := []
  late := []
  served := []
  spans := []
  launches := []
  vm := Vm.reset
  fe := FrontEnd.reset
  outside := Outside.reset
  clock := 0
  time := 0
  fresh := 0
  agenda := []
  turn := 0
  issuer := .nobody

end Sys2Proof.Machine
end

