-- ==== Sys2Proof/Machine/Ops.lean ====
section
/-!
DEFINITION. The named operations over the state: groups and slices, registers and predicates, in-flight operations and their counters,
taking a trap and returning from it, kills and completion causes, named barriers, and the bytes of the stores.
-/

namespace Sys2Proof.Machine

/-! ### Spans, groups and the issuer -/

/-- A span by its identity. -/
def findSpan (s : State) (sid : Nat) : Option Span := keyFind sid s.spans

/-- A launch by its identity. -/
def findLaunch (s : State) (l : Nat) : Option Launch := keyFind l s.launches

/-- The state with a span rewritten. -/
def modSpan (s : State) (sid : Nat) (f : Span → Span) : State := { s with spans := keyMod sid f s.spans }

/-- The state with a launch rewritten. -/
def modLaunch (s : State) (l : Nat) (f : Launch → Launch) : State := { s with launches := keyMod l f s.launches }

/-- A group of a span. -/
def findGroup (s : State) (sid g : Nat) : Option Group := (findSpan s sid).bind fun sp => sp.groups[g]?

/-- The state with a group rewritten. -/
def modGroup (s : State) (sid g : Nat) (f : Group → Group) : State :=
  modSpan s sid fun sp => { sp with groups := listSet f g sp.groups }

/-- A group that stands for none. -/
def noGroup : Group := Group.start 0 0 8 0

/-- The group whose instruction is executed: a span's, or a prologue engine's (R237). -/
def curGroup (s : State) : Group :=
  match s.issuer with
  | .nobody => noGroup
  | .gang sid g _ => (findGroup s sid g).getD noGroup
  | .prologue e => ((s.fe.engines[e]?).map (·.grp)).getD noGroup

/-- The state with the issuing group rewritten. -/
def modCur (s : State) (f : Group → Group) : State :=
  match s.issuer with
  | .nobody => s
  | .gang sid g _ => modGroup s sid g f
  | .prologue e => { s with fe := { s.fe with engines := listSet (fun en => { en with grp := f en.grp }) e s.fe.engines } }

/-- The issuing span. -/
def curSpan (s : State) : Option Span :=
  match s.issuer with
  | .gang sid _ _ => findSpan s sid
  | _ => none

/-- The issuing span's identity. -/
def curSid (s : State) : Nat :=
  match s.issuer with
  | .gang sid _ _ => sid
  | _ => 0

/-- The issuing group's number. -/
def curNum (s : State) : Nat :=
  match s.issuer with
  | .gang _ g _ => g
  | _ => 0

/-- The launch of the issuing span or prologue. -/
def curLaunchId (s : State) : Option Nat :=
  match s.issuer with
  | .nobody => none
  | .gang sid _ _ => (findSpan s sid).map (·.launch)
  | .prologue e => (s.fe.engines[e]?).bind (·.launch)

/-- The launch of the issuer. -/
def curLaunch (s : State) : Option Launch := (curLaunchId s).bind (findLaunch s)

/-- The pier of a place. -/
def placePier : SpanPlace → Option Nat
  | .waiting p => some p
  | .running p => some p
  | _ => none

/-- The pier a span is on; 0 where it is on none. -/
def spanPier (sp : Span) : Nat := (placePier sp.place).getD 0

/-- The issuing span's pier. -/
def curPier (s : State) : Nat := ((curSpan s).map spanPier).getD 0

/-! ### Slices, gangs and lanes (R121) -/

/-- A live slice (R121). -/
def sliceLive (sl : Slice) : Bool := sl.live != 0

/-- The slices of the issuing gang: every live slice, or one parted slice (R121). -/
def gangSlices (g : Group) (slice : Option Nat) : List Nat :=
  match slice with
  | some k => [k]
  | none => (upTo 8).filter fun k => ((g.slices[k]?).map sliceLive).getD false

/-- The slice the issuer names. -/
def issuerSlice (s : State) : Option Nat :=
  match s.issuer with
  | .gang _ _ sl => sl
  | _ => none

/-- The issuing gang's slices. -/
def curSlices (s : State) : List Nat := gangSlices (curGroup s) (issuerSlice s)

/-- A group with some slices rewritten. -/
def modSlices (g : Group) (ks : List Nat) (f : Slice → Slice) : Group :=
  { g with slices := ks.foldl (fun acc k => listSet f k acc) g.slices }

/-- A four-lane mask of slice `k` as a lane mask. -/
def sliceMask (k : Nat) (m : BitVec 4) : LaneMask := (m.setWidth 32) <<< (4 * k)

/-- The lanes of a slice in a lane mask. -/
def maskOfSlice (k : Nat) (m : LaneMask) : BitVec 4 := (m >>> (4 * k)).setWidth 4

/-- A lane mask gathered from some slices. -/
def lanesOfSlices (g : Group) (ks : List Nat) (f : Slice → BitVec 4) : LaneMask :=
  ks.foldl (fun acc k => acc ||| (((g.slices[k]?).map fun sl => sliceMask k (f sl)).getD 0)) 0

/-- The active lanes of the issuing gang, before any guard (R121). -/
def gangLanes (s : State) : LaneMask := lanesOfSlices (curGroup s) (curSlices s) (·.act)

/-- %live: lanes that have not exited (R119). -/
def liveLanes (g : Group) : LaneMask := lanesOfSlices g (upTo 8) (·.live)

/-- The lane numbers of a mask, ascending. -/
def laneList (m : LaneMask) : List Nat := (upTo 32).filter fun i => m.getLsbD i

/-- A group all of whose slices have stopped (R124). -/
def groupExited (g : Group) : Bool := g.slices.all fun sl => sl.live == 0

/-- The gang holds every live slice of the group (R127). -/
def wholeGang (s : State) : Bool :=
  (upTo 8).all fun k => (curSlices s).contains k || !(((curGroup s).slices[k]?).map sliceLive).getD false

/-- The gang's pc: that of its first slice. -/
def curPc (s : State) : Va :=
  match curSlices s with
  | k :: _ => (((curGroup s).slices[k]?).map (·.pc)).getD 0
  | [] => 0

/-- The issuing gang's pc set. -/
def setPc (s : State) (pc : Va) : State := modCur s fun g => modSlices g (curSlices s) fun sl => { sl with pc := pc }

/-- The issuing gang goes on at the instruction after this one. -/
def advance (len : Nat) (s : State) : State :=
  modCur s fun g => modSlices g (curSlices s) fun sl => { sl with pc := sl.pc + BitVec.ofNat 57 len }

/-! ### Registers, predicates, flags (R116) -/

/-- A lane register. -/
def readV (g : Group) (r lane : Nat) : Word := cellGet 0 g.vregs (32 * r + lane)

/-- A group register. -/
def readG (g : Group) (r : Nat) : Word := cellGet 0 g.gregs r

/-- A lane register written. -/
def writeV (r lane : Nat) (v : Word) (g : Group) : Group := { g with vregs := cellSet 0 g.vregs (32 * r + lane) v }

/-- A group register written. -/
def writeG (r : Nat) (v : Word) (g : Group) : Group := { g with gregs := cellSet 0 g.gregs r v }

/-- Predicate `k` of a lane; p0 reads true (R116). -/
def readP (g : Group) (k lane : Nat) : Bool := k == 0 || (cellGet 0 g.preds lane).getLsbD k

/-- Group predicate `k`; q0 reads true. -/
def readQ (g : Group) (k : Nat) : Bool := k == 0 || g.qpreds.getLsbD k

/-- An 8-bit predicate set with one bit written; bit 0 is never kept. -/
def setPredBit (x : BitVec 8) (k : Nat) (v : Bool) : BitVec 8 :=
  if k = 0 then x else if v then x ||| ((1 : BitVec 8) <<< k) else x &&& ~~~((1 : BitVec 8) <<< k)

/-- A lane predicate written; a write to p0 is ignored. -/
def writeP (k lane : Nat) (v : Bool) (g : Group) : Group :=
  { g with preds := cellSet 0 g.preds lane (setPredBit (cellGet 0 g.preds lane) k v) }

/-- A group predicate written; a write to q0 is ignored. -/
def writeQ (k : Nat) (v : Bool) (g : Group) : Group := { g with qpreds := setPredBit g.qpreds k v }

/-- `n` consecutive registers read as one number, the first the least significant word. -/
def readWords (read : Nat → Word) (r : Nat) : Nat → Nat
  | 0 => 0
  | n + 1 => (read r).toNat + 2 ^ 32 * readWords read (r + 1) n

/-- The words of a number, the least significant first. -/
def wordsOf : Nat → Nat → List Word
  | 0, _ => []
  | n + 1, x => BitVec.ofNat 32 x :: wordsOf n (x / 2 ^ 32)

/-- Consecutive lane registers written. -/
def writeVs (r lane : Nat) : List Word → Group → Group
  | [], g => g
  | v :: rest, g => writeVs (r + 1) lane rest (writeV r lane v g)

/-- Consecutive group registers written. -/
def writeGs (r : Nat) : List Word → Group → Group
  | [], g => g
  | v :: rest, g => writeGs (r + 1) rest (writeG r v g)

/-- Flags ORed into %fsr (R48) (log 73, DEDUCED). -/
def mergeFlags (fl : Flags) (g : Group) : Group := { g with fsr := g.fsr ||| fl }

/-- The interval register of a lane, six words (R385). -/
def readInterval (g : Group) (r lane : Nat) : List Word :=
  cellGet 63 g.ivHead (32 * r + lane) :: (cellRange 0 g.ivBody (8 * (32 * r + lane) + 1) 5)

/-- An interval register of a lane written, six words. -/
def writeInterval (r lane : Nat) (ws : List Word) (g : Group) : Group :=
  match ws with
  | [] => g
  | w0 :: rest =>
    { g with
      ivHead := cellSet 63 g.ivHead (32 * r + lane) w0
      ivBody := cellSetRange 0 g.ivBody (8 * (32 * r + lane) + 1) rest }

/-! ### Records of launches -/

/-- A field of a launch record, by its bytes (R233). -/
def recField (r : BitVec 1024) (hi lo : Nat) : Nat := bitsOf r.toNat (8 * hi + 7) (8 * lo)

/-- A launch's trap handler VA; 0 is none (R220, R233). -/
def handlerVa (la : Launch) : Nat := recField la.record 119 112

/-- A replayable launch (R233 flags [2]). -/
def replayable (la : Launch) : Bool := bitsOf (recField la.record 35 32) 2 2 = 1

/-- The bay of a span in its launch. -/
def launchBay (la : Launch) (b : Nat) : Option Bay := la.bays[b]?

/-- A span's deck allocation in bytes (R198). -/
def deckSize (sp : Span) : Nat := 4096 * sp.deckUnits.length

/-- A fresh draw for a value the spec leaves open (log 5, DESIGN CHOICE). -/
def draw (s : State) : Nat × State := (s.fresh, { s with fresh := s.fresh + 1 })

/-! ### Waits and stops -/

/-- A cause s:r (R214). -/
def causeOf (src reason : Nat) : Cause := BitVec.ofNat 9 (32 * src + reason)

/-- Something of the gang, or of slice `k`, concerns slice `k`. -/
def coversSlice (slice : Option Nat) (k : Nat) : Bool := slice == none || slice == some k

/-- The wait of the gang, or of a parted slice. -/
def waitOf (g : Group) (slice : Option Nat) : Option GroupWait := g.waits.find? fun w => w.slice == slice

/-- A slice stands still: dead, at REGANG, at an instruction it waits at, or parked. -/
def sliceStands (g : Group) (k : Nat) : Bool :=
  match g.slices[k]? with
  | none => true
  | some sl =>
    sl.live == 0 || sl.atRegang || g.waits.any (fun w => coversSlice w.slice k && !w.woken) ||
      g.parked.any fun p => coversSlice p.slice k && !p.retry && !p.cancel

/-- A group that a halt finds stopped already: each slice is dead, at a blocking point, at REGANG, or parked (R218). -/
def stopsAtOnce (g : Group) : Bool := (upTo 8).all (sliceStands g)

/-- A group stops for a handler: each slice records its next pc and the group its skid (R218). -/
def stopGroup (g : Group) : Group :=
  { modSlices g (upTo 8) (fun sl => { sl with tpc := sl.pc }) with
    halted := true
    tskid := BitVec.ofNat 4 (g.skid.getD 0) }

/-- Every group stops at once and nothing more issues; an operation some of whose lanes are parked goes on without them (R224). -/
def clearGroup (g : Group) : Group :=
  { modSlices g (upTo 8) (fun sl => { sl with act := 0, live := 0, part := none, atRegang := false }) with
    waits := []
    savedWaits := []
    parked := []
    savedParked := []
    ops := g.ops.map fun o => { o with ready := true }
    skid := none
    halted := false }

/-- A span killed with a cause; outstanding engine operations go on (R224, R182). -/
def killSpan (sid : Nat) (cause : Cause) (s : State) : State :=
  modSpan s sid fun sp =>
    if sp.killed.isSome then sp
    else
      { sp with
        groups := sp.groups.map clearGroup
        trap := none
        handler := none
        blocked := sp.blocked ++ sp.held.filterMap (·.2.2.2)
        held := []
        marked := false
        byHost := false
        killed := some cause
        killedAt := s.time }

/-- An uncorrectable error that raises a cause is noted for the keystone's report (R429) (log 67, DESIGN CHOICE). -/
def noteError (c : Cause) (s : State) : State :=
  if c.toNat % 32 = 25 then { s with outside := { s.outside with ras := s.outside.ras ++ [c] } } else s

/-- A span killed by an uncorrectable error of a pier's own storage (R199, R216). -/
def killPoisoned (sid : Nat) (s : State) : State := killSpan sid (causeOf 11 25) (noteError (causeOf 11 25) s)

/-- The entries of a queue wait for RTE: with the cause being taken, or with one that is held (R360, R393, R419). -/
def isBlocked (sp : Span) (queue : Nat) : Bool := sp.blocked.contains queue || sp.held.any fun h => h.2.2.2 == some queue

/-- Every group of the span stands still for the handler. -/
def allStopped (sp : Span) : Bool := sp.groups.all fun g => g.halted || groupExited g

/-- The stack depth of a slice (R125). -/
def stackDepth (sl : Slice) : Nat := sl.stack.length + 32 * sl.spilled

/-- The group that took the trap enters its handler: every live slice in one gang at the handler's address (R220). -/
def enterGroup (va : Va) (g : Group) : Group :=
  { modSlices g (upTo 8) (fun sl =>
      if sl.live == 0 then sl
      else
        { sl with
          savedAct := sl.act
          savedPart := sl.part
          savedRegang := sl.atRegang
          entryDepth := stackDepth sl
          act := sl.live
          part := none
          atRegang := false
          savedPc := sl.tpc
          pc := va }) with
    savedWaits := g.waits
    savedParked := g.parked
    waits := []
    parked := []
    halted := false
    skid := none }

/-- The handler is entered once every group has stopped (R220) (log 51, DEDUCED). -/
def enterHandler (sid : Nat) (s : State) : State :=
  match findSpan s sid with
  | none => s
  | some sp =>
    match sp.trap with
    | none => s
    | some (g, _, _) =>
      if allStopped sp then
        match findLaunch s sp.launch with
        | none => s
        | some la =>
          modSpan s sid fun sp =>
            { sp with
              groups := listSet (enterGroup (BitVec.ofNat 57 (handlerVa la))) g sp.groups
              trap := none
              handler := some g }
      else s

/-- A group takes a trap: the cause and lanes are recorded, every slice records its pc, and the halt reaches the siblings (R217, R218,
R220) (log 51, DEDUCED). -/
def haltSpan (g : Nat) (cause : Cause) (lanes : LaneMask) (sp : Span) : Span :=
  let own (x : Group) : Group := { stopGroup { x with skid := some 0 } with tcause := cause, tlanes := lanes }
  let sibling (x : Group) : Group :=
    let x := { x with skid := some 0 }
    if stopsAtOnce x then stopGroup x else x
  { sp with
    groups := mapFrom (fun n x => if n = g then own x else sibling x) 0 sp.groups
    trap := some (g, cause, lanes) }

/-- A trap of a group of a span (R217 to R221): in the handling group it kills the span; in a sibling that is skidding it stops the
group and its cause is discarded; otherwise the span halts for the handler, or is killed where the launch names none (log 51, DEDUCED). -/
def takeTrap (sid g : Nat) (cause : Cause) (lanes : LaneMask) (s : State) : State :=
  match findSpan s sid with
  | none => s
  | some sp =>
    if sp.killed.isSome then s
    else if sp.handler.isSome then
      killSpan sid cause (modGroup s sid g fun x => { x with tcause := cause })
    else if sp.trap.isSome then
      enterHandler sid (modGroup s sid g stopGroup)
    else
      match findLaunch s sp.launch with
      | none => s
      | some la =>
        if handlerVa la = 0 then killSpan sid cause (modGroup s sid g fun x => { x with tcause := cause, tlanes := lanes })
        else enterHandler sid (modSpan s sid (haltSpan g cause lanes))

/-- The lowest-numbered live group of a span (R222). -/
def lowestLive (sp : Span) : Option Nat := (sp.groups.find? fun g => !groupExited g).map (·.num)

/-- A completion cause (R222): taken by the issuing group while it lives, else by the lowest live group with no lanes; held while a
handler runs or a trap is being taken; it kills a span without a live group. The later entries of the queue `block` wait with it until RTE
(R360) (log 51, DEDUCED). -/
def completionCause (sid : Nat) (g : Option Nat) (cause : Cause) (lanes : LaneMask) (block : Option Nat) (s : State) : State :=
  match findSpan s sid with
  | none => s
  | some sp =>
    let s := if sp.handler.isSome || sp.trap.isSome then s else modSpan s sid fun sp => { sp with blocked := sp.blocked ++ block.toList }
    if sp.killed.isSome then s
    else
      let alive := g.bind fun n => (sp.groups[n]?).bind fun x => if groupExited x then none else some n
      match alive with
      | some n =>
        if sp.handler.isSome || sp.trap.isSome then modSpan s sid fun sp => { sp with held := sp.held ++ [(g, cause, lanes, block)] }
        else takeTrap sid n cause lanes s
      | none =>
        match lowestLive sp with
        | none => killSpan sid cause s
        | some n =>
          if sp.handler.isSome || sp.trap.isSome then modSpan s sid fun sp => { sp with held := sp.held ++ [(none, cause, 0, block)] }
          else takeTrap sid n cause 0 s

/-- After RTE the first held cause halts the span again (R222) (log 51, DEDUCED). -/
def takeHeld (sid : Nat) (s : State) : State :=
  match findSpan s sid with
  | none => s
  | some sp =>
    match sp.held with
    | [] => s
    | (g, c, lanes, block) :: rest => completionCause sid g c lanes block (modSpan s sid fun sp => { sp with held := rest })

/-- A launch fails before any span starts (R234, R237) (log 27, DEDUCED). -/
def failLaunch (l : Nat) (cause : Cause) (s : State) : State :=
  let s := modLaunch s l fun la => { la with failed := some cause, phase := .finishing }
  let free (en : PrologueEngine) : PrologueEngine := if en.launch = some l then { en with launch := none } else en
  { s with fe := { s.fe with engines := s.fe.engines.map free } }

/-- The instruction being executed faults with s:r: a precise trap of its gang, or the failure of the prologue's launch with 10:r
(R217, R237) (log 15, DEDUCED). -/
def faultWith (src reason : Nat) (lanes : LaneMask) (s : State) : State :=
  match s.issuer with
  | .nobody => s
  | .gang sid g _ => takeTrap sid g (causeOf src reason) lanes s
  | .prologue e =>
    match (s.fe.engines[e]?).bind (·.launch) with
    | none => s
    | some l => failLaunch l (causeOf 10 reason) s

/-- It faults with s:25: it has met an uncorrectable error (R429). -/
def faultPoisoned (src : Nat) (lanes : LaneMask) (s : State) : State := faultWith src 25 lanes (noteError (causeOf src 25) s)

/-! ### The stores -/

/-- The number of a placed address in the device's memory. -/
def memKey (tier pa : Nat) : Nat := 2 ^ 52 * tier + pa

/-- The number of a byte of a pier's deck. -/
def deckKey (pier off : Nat) : Nat := 2 ^ 20 * pier + off

/-- The number of a byte of a pier's operand buffer. -/
def bufKey (pier off : Nat) : Nat := 2 ^ 18 * pier + off

/-- The number of a byte of a peer window. -/
def peerKey (dev off : Nat) : Nat := 2 ^ 47 * dev + off

/-- What an unlisted byte of a memory, deck or buffer reads as (log 4, DESIGN CHOICE). -/
def emptyByte : Byte := 0

/-- A byte of a memory (log 4, DESIGN CHOICE). -/
def readByte (m : Memory) (a : Nat) : Byte := cellGet emptyByte m a

/-- A byte of a memory written. -/
def writeByte (m : Memory) (a : Nat) (b : Byte) : Memory := cellSet emptyByte m a b

/-- The canonical form of a memory. -/
def Memory.wf (m : Memory) : Bool := cellsWf emptyByte m

/-- Bytes written to memory; a granule wholly written is no longer uncorrectable (log 64, DEDUCED). -/
def writeMem (key : Nat) (bs : List Byte) (s : State) : State :=
  let g0 := (key + 7) / 8
  let g1 := (key + bs.length) / 8
  { s with
    mem := cellSetRange emptyByte s.mem key bs
    poison := (upTo (g1 - g0)).foldl (fun acc i => cellSet 0 acc (g0 + i) 0) s.poison }

/-- Bytes of the decks written from a byte number on; a word wholly written is no longer uncorrectable (log 64, DEDUCED). -/
def writeDeckKey (key : Nat) (bs : List Byte) (s : State) : State :=
  let g0 := (key + 7) / 8
  let g1 := (key + bs.length) / 8
  { s with
    deck := cellSetRange emptyByte s.deck key bs
    deckPoison := (upTo (g1 - g0)).foldl (fun acc i => cellSet 0 acc (g0 + i) 0) s.deckPoison }

/-! ### Accesses of several granules (R90) -/

/-- Bytes written to a space from a byte number on. -/
def writeSpace (sp : Space) (key : Nat) (bs : List Byte) (s : State) : State :=
  match sp with
  | .mem => writeMem key bs s
  | .deck => writeDeckKey key bs s
  | .peer => { s with peer := cellSetRange emptyByte s.peer key bs }

/-- Bytes of a space. -/
def readSpace (s : State) (sp : Space) (key n : Nat) : List Byte :=
  match sp with
  | .mem => cellRange emptyByte s.mem key n
  | .deck => cellRange emptyByte s.deck key n
  | .peer => cellRange emptyByte s.peer key n

/-- A granule's late write is performed. -/
def performLate (w : Late) (s : State) : State := writeSpace w.space w.key w.bytes s

/-- The late writes that meet a condition are performed, in order. -/
def settleWrites (pick : Late → Bool) (s : State) : State :=
  if s.late.any pick then
    (s.late.filter pick).foldl (fun acc w => performLate w acc) { s with late := s.late.filter fun w => !pick w }
  else s

/-- The atomics' late writes are performed: an atomic is one indivisible step for all but those who do not share its scope (R85). -/
def settleAtomics (s : State) : State := settleWrites (fun w => w.point.isSome) s

/-- The host's late writes are performed: what it has made visible before it goes on (R97, R98). -/
def settleHost (s : State) : State := settleWrites (fun w => w.owner.isNone) s

/-- The late writes of a span's operations are performed (R98). -/
def settleSpan (sid : Nat) (s : State) : State := settleWrites (fun w => (w.owner.map (·.1)) == some sid) s

/-- The late writes to a pier's deck are performed: before its units go to another span, or are saved. -/
def settleDeck (pier : Nat) (s : State) : State := settleWrites (fun w => w.space == .deck && w.key / 2 ^ 20 == pier) s

/-- A late write belongs to an operation. -/
def lateOfOp (owner : Nat × Nat × Nat) (w : Late) : Bool := w.owner == some owner

/-- An operation has granules not yet performed. -/
def hasLate (owner : Nat × Nat × Nat) (s : State) : Bool := s.late.any (lateOfOp owner)

/-- A scope has one coherence point for a party on pier `p` and one on a pier, or at the memory side (R83): the pier's path at grp and span
scope, the die's cache at die scope, else the memory side. -/
def onePoint (scope p : Nat) : Option Nat → Bool
  | none => decide (3 ≤ scope)
  | some q => if scope ≤ 1 then p == q else scope != 2 || p / 64 == q / 64

/-- A late write is an atomic's whose coherence point a party shares (R85). -/
def sharesPoint (s : State) (party : Option Nat) (w : Late) : Bool :=
  match w.point, w.owner.bind fun o => findSpan s o.1 with
  | some scope, some sp => onePoint scope (spanPier sp) party
  | _, _ => false

/-- A late write lies in the 64-byte lines of a run. -/
def lateIn (space : Space) (key n : Nat) (w : Late) : Bool :=
  w.space == space && decide (key / 64 ≤ w.key / 64) && decide (w.key / 64 ≤ (key + n - 1) / 64)

/-- The late writes of the atomics on the lines of a run that a party shares a point with are performed (R85, R90) (log 80, DESIGN CHOICE). -/
def settlePoint (party : Option Nat) (space : Space) (key n : Nat) (s : State) : State :=
  settleWrites (fun w => sharesPoint s party w && lateIn space key n w) s

/-- A granule of a load is read where it was not yet. -/
def readPiece (s : State) : LoadPiece → LoadPiece
  | .got bs => .got bs
  | .late sp key n => .got (readSpace s sp key n)

/-- A load has still to read a granule. -/
def loadOpen : OpWrite → Bool
  | .load _ _ _ _ _ _ ps => ps.any fun p => match p with | .late _ _ _ => true | .got _ => false
  | _ => false

/-- Some operation of a group has a load that has still to read a granule. -/
def groupLoadOpen (g : Group) : Bool := g.ops.any fun o => o.writes.any loadOpen

/-- The granules a load has still to read are read. -/
def readLate (s : State) (w : OpWrite) : OpWrite :=
  match w with
  | .load grp reg lane count signed size pieces => .load grp reg lane count signed size (pieces.map (readPiece s))
  | w => w

/-- The late granules of a group's operations are read. -/
def settleLoads (sid g : Nat) (s : State) : State :=
  if ((findGroup s sid g).map groupLoadOpen).getD false then
    modGroup s sid g fun x => { x with ops := x.ops.map fun o => { o with writes := o.writes.map (readLate s) } }
  else s

/-- A late write belongs to a group. -/
def lateOf (sid g : Nat) (w : Late) : Bool :=
  match w.owner with
  | some (a, b, _) => a == sid && b == g
  | none => false

/-- A group's late accesses are performed: before its next instruction acts, and at the completion of one of its operations (R86, R90). -/
def settleGroup (sid g : Nat) (s : State) : State :=
  settleLoads sid g (settleWrites (lateOf sid g) s)

/-- Every late access of the machine is performed: before a frame is copied (R99). -/
def settleAll (s : State) : State :=
  let s := settleWrites (fun _ => true) s
  { s with spans := s.spans.map fun p => (p.1, { p.2 with groups := p.2.groups.map fun x =>
      { x with ops := x.ops.map fun o => { o with writes := o.writes.map (readLate s) } } }) }

/-- The words of a loaded value. -/
def loadWords (signed : Bool) (size count x : Nat) : List Word :=
  if signed then [BitVec.ofInt 32 (signedOf (8 * size) x)] else wordsOf count x

/-- The bytes of a load's granules. -/
def pieceBytes (ps : List LoadPiece) : List Byte :=
  (ps.map fun p => match p with | .got bs => bs | .late _ _ _ => []).flatten

/-! ### In-flight operations and counters (R12 to R14) -/

/-- The class counter of a group: operations issued and not in the completed part that comes first in issue order (R12). -/
def counter (g : Group) (c : OpClass) : Nat := (g.ops.filter fun o => o.cls == c).length

/-- A counter that is waited on covers an outstanding remote load: the wait is a blocking point (R130). -/
def remoteWait (g : Group) (ts : List (OpClass × Nat)) : Bool :=
  ts.any fun t => decide (t.2 < counter g t.1) && g.ops.any fun o => o.cls == t.1 && o.remoteLoad && !o.done

/-- A wait at a blocking point under a request counts as one until the save, though its loads complete (R261). -/
def markWait (g : Group) (w : GroupWait) : GroupWait :=
  match w.wait with
  | .counters ts => { w with parked := w.parked || remoteWait g ts }
  | _ => w

/-- A group's waits as a request finds them (R261). -/
def markWaits (g : Group) : Group := { g with waits := g.waits.map (markWait g), savedWaits := g.savedWaits.map (markWait g) }

/-- Completed operations that no earlier one of their class is in front of leave the list (R12). -/
def retireOps : List OpRec → List OpClass → List OpRec
  | [], _ => []
  | o :: rest, held =>
    if held.contains o.cls then o :: retireOps rest held
    else if o.done then retireOps rest held
    else o :: retireOps rest (o.cls :: held)

/-- A counted operation issued: the group, and its identity (log 6, DEDUCED). -/
def issueOp (cls : OpClass) (kind : OpKind) (lanes : LaneMask) (g : Group) : Group :=
  let op : OpRec := ⟨g.opCount, cls, kind, lanes, [], 0, none, none, true, false, [], false⟩
  { g with ops := g.ops ++ [op], opCount := g.opCount + 1 }

/-- A group's operation rewritten. -/
def modOp (id : Nat) (f : OpRec → OpRec) (g : Group) : Group :=
  { g with ops := g.ops.map fun o => if o.id = id then f o else o }

/-- A group's operation. -/
def findOp (g : Group) (id : Nat) : Option OpRec := g.ops.find? fun o => o.id = id

/-- A result written to the group's registers; where no lane lives it is discarded (R182). -/
def applyWrite (w : OpWrite) (g : Group) : Group :=
  if groupExited g then g
  else
    match w with
    | .lane r l v => writeV r l v g
    | .group r v => writeG r v g
    | .interval r l ws => writeInterval r l ws g
    | .table _ _ => g
    | .load grp r l count signed size ps =>
      let ws := loadWords signed size count (bytesToNat (pieceBytes ps))
      if grp then writeGs r ws g else writeVs r l ws g
    | .peer _ _ _ _ => g

/-- A decoder table result written to the span (R307). -/
def applyTable (w : OpWrite) (sp : Span) : Span :=
  match w with
  | .table k img => { sp with tables := listSet (fun _ => some img) k sp.tables }
  | _ => sp

/-- A peer window's bytes as an answered write leaves them (R431). -/
def applyPeer (w : OpWrite) (m : Memory) : Memory :=
  match w with
  | .peer _ _ key bs => cellSetRange emptyByte m key bs
  | _ => m

/-- The accesses an operation has still to perform: its group's late granules, and its writes to peer windows, which its completion has the
owner perform (R90, R431). -/
def settleOp (sid g id : Nat) (s : State) : State :=
  let s := settleGroup sid g s
  match (findGroup s sid g).bind fun x => findOp x id with
  | none => s
  | some o => { s with peer := o.writes.foldl (fun m w => applyPeer w m) s.peer }

/-- An operation completes (R13): its results are written, its flags merged, its counter lowered in issue order, and its completion cause
taken (log 6, DEDUCED) (log 73, DEDUCED). -/
def completeOp (sid g id : Nat) (s : State) : State :=
  let s := settleOp sid g id s
  match (findGroup s sid g).bind fun x => findOp x id with
  | none => s
  | some o =>
    if o.done then s
    else
      let s := modSpan s sid fun sp => o.writes.foldl (fun acc w => applyTable w acc) sp
      let s := modGroup s sid g fun x =>
        let x := o.writes.foldl (fun acc w => applyWrite w acc) x
        let x := mergeFlags o.flags x
        let x := modOp id (fun o => { o with done := true, writes := [], flags := 0 }) x
        { x with ops := retireOps x.ops [] }
      match o.cause with
      | none => s
      | some c => completionCause sid (some g) c o.lanes o.block (noteError c s)

/-! ### Named barriers (R183 to R188) -/

/-- Bit `k` of a group's barrier bits written. -/
def setBarBit (x : BitVec 16) (k : Nat) (v : Bool) : BitVec 16 :=
  if v then x ||| ((1 : BitVec 16) <<< k) else x &&& ~~~((1 : BitVec 16) <<< k)

/-- A wait for barrier `k`. -/
def waitsOn (k : Nat) : Wait → Bool
  | .barrier j _ _ _ => j == k
  | _ => false

/-- The waits for barrier `k` have come true. -/
def wakeBarrier (k : Nat) (ws : List GroupWait) : List GroupWait :=
  ws.map fun w => if waitsOn k w.wait then { w with woken := true } else w

/-- A group waits for barrier `k`. -/
def groupAwaits (k : Nat) (g : Group) : Bool := g.waits.any fun w => waitsOn k w.wait && !w.woken

/-- A barrier of the span. -/
def spanBarrier (sp : Span) (k : Nat) : Barrier := (sp.barriers[k]?).getD Barrier.reset

/-- A barrier of the span rewritten. -/
def modBarrier (k : Nat) (f : Barrier → Barrier) (sp : Span) : Span := { sp with barriers := listSet f k sp.barriers }

/-- complete() of R185: the phase flips and every group blocked on it wakes (log 53, DEDUCED). -/
def completeBarrier (k : Nat) (sp : Span) : Span :=
  let sp := modBarrier k (fun b =>
    { b with ph := !b.ph, a := 0, n := b.nNext, init := b.init && !(b.auto && b.nNext == 0) }) sp
  { sp with groups := sp.groups.map fun g =>
      { g with
        arr := setBarBit g.arr k false
        waits := wakeBarrier k g.waits
        savedWaits := wakeBarrier k g.savedWaits } }

/-- An arrival counted, with the completion it may make (R185). -/
def countArrival (k : Nat) (sp : Span) : Span :=
  let sp := modBarrier k (fun b => { b with a := b.a + 1 }) sp
  let b := spanBarrier sp k
  if b.n ≤ b.a then completeBarrier k sp else sp

/-- The test of R188 (log 71, DEDUCED). -/
def inUnderrun (k : Nat) (sp : Span) : Bool :=
  let b := spanBarrier sp k
  sp.groups.any (groupAwaits k) &&
  sp.groups.all (fun g => groupExited g || g.arr.getLsbD k || groupAwaits k g) &&
  decide (b.a + b.pend < b.n)

/-- A group's waits for barrier `k` have taken its token. -/
def tokenTaken (k : Nat) (g : Group) : Bool :=
  (g.waits ++ g.savedWaits).any fun w =>
    match w.wait with
    | .barrier j _ _ token => j == k && token
    | _ => false

/-- A group that faults 0:14 at BAR.WAIT re-executes it; at BAR.SYNC it stays in the wait half. The fault changes no barrier state: a
token that the wait took is the group's again (R188) (log 71, DEDUCED). -/
def underrunGroup (k : Nat) (g : Group) : Group :=
  let leaves (w : GroupWait) : Bool :=
    match w.wait with
    | .barrier j _ sync _ => j == k && !sync
    | _ => false
  { g with
    tv := if tokenTaken k g then setBarBit g.tv k true else g.tv
    waits := g.waits.filter fun w => !leaves w
    savedWaits := g.savedWaits.filter fun w => !leaves w }

/-- The underrun test of a barrier: every group waiting on it faults 0:14, the lowest-numbered takes the trap (R188, R219) (log 71, DEDUCED). -/
def underrunTest (sid k : Nat) (s : State) : State :=
  match findSpan s sid with
  | none => s
  | some sp =>
    if sp.killed.isSome || sp.trap.isSome || sp.handler.isSome then s
    else if inUnderrun k sp then
      match sp.groups.find? (groupAwaits k) with
      | none => s
      | some g =>
        let lanes := lanesOfSlices g (gangSlices g none) (·.act)
        let waiting := (sp.groups.filter (groupAwaits k)).map (·.num)
        let s := takeTrap sid g.num (causeOf 0 14) lanes s
        waiting.foldl (fun acc n => modGroup acc sid n (underrunGroup k)) s
    else s

/-- An engine operation arrives on a barrier of a span: pend falls and the arrival counts, also where an AUTO completion has cleared the
barrier's init meanwhile, which R186 does not exclude (R185, R186) (log 90, DESIGN CHOICE). -/
def engineArrive (sid k : Nat) (s : State) : State :=
  modSpan s sid fun sp => countArrival k (modBarrier k (fun b => { b with pend := b.pend - 1 }) sp)

/-- An engine operation that names a barrier ends without an arrival: pend falls (R16, R186). -/
def dropPend (sid k : Nat) (s : State) : State := modSpan s sid (modBarrier k fun b => { b with pend := b.pend - 1 })

/-- An engine operation that names a barrier fails: pend falls, the span takes the operation's cause (`deliver`), and the underrun test is
made for the other waiters (R16, R186, R188). -/
def engineFail (sid k : Nat) (deliver : State → State) (s : State) : State :=
  underrunTest sid k (deliver (dropPend sid k s))

/-- An engine operation that names a barrier is posted (R186). -/
def raisePend (sid k : Nat) (s : State) : State :=
  modSpan s sid (modBarrier k fun b => { b with pend := b.pend + 1 })

/-- A group's exit at barrier `k` (R187). -/
def exitAdjust (g k : Nat) (sp : Span) : Span :=
  let b := spanBarrier sp k
  if b.auto then
    let arrived := ((sp.groups[g]?).map fun x => x.arr.getLsbD k).getD false
    let sp := modBarrier k (fun b => { b with nNext := b.nNext - 1 }) sp
    if arrived then sp
    else
      let sp := modBarrier k (fun b => { b with n := b.n - 1 }) sp
      let b := spanBarrier sp k
      if b.init && b.n ≤ b.a then completeBarrier k sp else sp
  else sp

/-- What a group's exit does to the span's barriers: the AUTO adjustment, then the underrun test (R187, R188). -/
def groupExit (sid g : Nat) (s : State) : State :=
  let s := modSpan s sid fun sp => (upTo 16).foldl (fun acc k => exitAdjust g k acc) sp
  let s := (upTo 16).foldl (fun acc k => underrunTest sid k acc) s
  enterHandler sid s

/-! ### The context area (R125, R259) -/

/-- First address past HBM: CTXPOOL names HBM below it and the far tier from it on (log 11, DESIGN CHOICE). -/
def hbmBytes : Nat := 0xC000000000

/-- The number of a byte of CTXPOOL's address space (log 11, DESIGN CHOICE). -/
def areaKey (a : Nat) : Nat := if a < hbmBytes then a else 2 ^ 52 + (a - hbmBytes)

/-- Bytes of a context area before its spill blocks, each section at a multiple of 64 (R259, R260). -/
def imageBytes (sp : Span) : Nat :=
  7744 + 4096 * sp.deckUnits.length + 1024 * sp.granules.length + (8 * sp.tags.length + 63) / 64 * 64 + 65536 +
    (sp.groups.map fun g => 10752 + 128 * g.alloc).sum

/-- The spill block `b` of a slice of a group: 512 bytes (R125) (log 11, DESIGN CHOICE). -/
def spillBlock (sp : Span) (g k b : Nat) : Nat := sp.areaBase + imageBytes sp + 32768 * g + 4096 * k + 512 * b

/-! ### The decks -/

/-- A deck offset of a span as the number of a byte of its pier's deck: units are held in order (R198). -/
def deckByteKey (sp : Span) (off : Nat) : Nat :=
  deckKey (spanPier sp) (4096 * ((sp.deckUnits[off / 4096]?).getD 0) + off % 4096)

/-- `n` bytes of a span's deck. -/
def readDeck (s : State) (sp : Span) (off : Nat) : Nat → List Byte
  | 0 => []
  | n + 1 => readByte s.deck (deckByteKey sp off) :: readDeck s sp (off + 1) n

/-- Bytes of a span's deck written. -/
def writeDeckMem (sp : Span) (off : Nat) (m : Memory) : List Byte → Memory
  | [] => m
  | b :: rest => writeDeckMem sp (off + 1) (writeByte m (deckByteKey sp off) b) rest

/-- The deck with bytes of a span's allocation written. -/
def writeDeck (sp : Span) (off : Nat) (bs : List Byte) (s : State) : State :=
  { s with deck := writeDeckMem sp off s.deck bs }

/-- Whether some 64-bit deck word of a range is uncorrectable (R199). -/
def deckPoisoned (s : State) (sp : Span) (off n : Nat) : Bool :=
  (upTo n).any fun i => cellGet 0 s.deckPoison (deckByteKey sp (off + i) / 8) != 0

end Sys2Proof.Machine
end

