-- ==== Sys2Proof/Machine/Operands.lean ====
section
/-!
DEFINITION. Operand forms (R64 to R73), the static checks of R81 in their order, and the shape of an instruction that computes.

A `Form` says for one instruction what each field holds, which U, guard and XP it takes and which modifier bits it defines; `checkEnc`
is R81 for every form.
-/

namespace Sys2Proof.Machine

/-! ### Fields of a word -/

/-- Length in bytes of a word with its XP (R71, R75). -/
def wordLen (e : Enc) : Nat := if e.xp.isSome then 8 else 4

/-- Payload bit `k` of the XP, numbered as in the XP word: 10 to 31 (R71). -/
def xpBit (e : Enc) (k : Nat) : Bool :=
  match e.xp with
  | none => false
  | some p => p.getLsbD (k - 10)

/-- The payload as a number; 0 without XP. -/
def xpVal (e : Enc) : Nat := (e.xp.map (·.toNat)).getD 0

/-- The modifier [31:22] of a layout-A XP (R71). -/
def modifier (e : Enc) : Nat := xpVal e / 2 ^ 12

/-- The rc field [20:15] of a layout-A XP (R71). -/
def rcField (e : Enc) : Nat := xpVal e / 2 ^ 5 % 64

/-- The guard's predicate number. -/
def guardNum (e : Enc) : Nat := e.guard.toNat

/-- The rounding mode in modifier [24:22]; RNE without XP (R71, R156). -/
def wordMode (e : Enc) : RoundMode := roundModeOf (modifier e % 8)

/-- The rc-present bit, modifier [25] (R156). -/
def rcPresent (e : Enc) : Bool := xpBit e 25

/-- The RRI immediate as written: 6 bits, or 28 with XP (R68). -/
def immRri (e : Enc) : Nat := 64 * xpVal e + e.rb.toNat

/-- Its width in bits. -/
def immRriBits (e : Enc) : Nat := if e.xp.isSome then 28 else 6

/-- The sign-extended RRI immediate. -/
def simmRri (e : Enc) : Int := signedOf (immRriBits e) (immRri e)

/-- The RJ immediate: 12 bits, or 34 with XP (R68). -/
def immRj (e : Enc) : Nat := 4096 * xpVal e + 64 * e.rb.toNat + e.ra.toNat

/-- The sign-extended RJ immediate; the BD target is formed the same way. -/
def simmRj (e : Enc) : Int := signedOf (if e.xp.isSome then 34 else 12) (immRj e)

/-- The B offset in halfwords: 18 bits, or 40 with XP, sign-extended (R68). -/
def offsetB (e : Enc) : Int :=
  signedOf (if e.xp.isSome then 40 else 18) (2 ^ 18 * xpVal e + 4096 * e.rb.toNat + 64 * e.ra.toNat + e.rd.toNat)

/-- The signed 6-bit rb offset of a MEM word (R70). -/
def immMem (e : Enc) : Int := signedOf 6 e.rb.toNat

/-- The order of a MEM word's XP: 0 plain, 1 acq, 2 rel, 3 acq_rel (R72). -/
def memOrder (e : Enc) : Nat := modifier e % 4

/-- The scope of a MEM word: 0 grp to 4 sys; span without XP (R70, R72). -/
def memScope (e : Enc) : Nat := if e.xp.isSome then modifier e / 4 % 8 else 1

/-- The rp, deck and nt bits of a MEM word's XP (R72). -/
def memRp (e : Enc) : Bool := xpBit e 27
def memDeck (e : Enc) : Bool := xpBit e 28
def memNt (e : Enc) : Bool := xpBit e 29

/-- A register operand: a lane register or a group register. -/
inductive Loc where
  | lane (r : Nat)
  | grp (r : Nat)
  deriving DecidableEq, Repr

/-- A register field under U, a g bit and a hi bit (R64, R71). -/
def locOf (u g hi : Bool) (field : BitVec 6) : Loc :=
  if u || g then .grp field.toNat else .lane (field.toNat + if hi then 64 else 0)

/-- The rd, ra, rb and rc operands of a layout-A word. -/
def rdLoc (e : Enc) : Loc := locOf e.u false (xpBit e 10) e.rd
def raLoc (e : Enc) : Loc := locOf e.u (xpBit e 13) (xpBit e 11) e.ra
def rbLoc (e : Enc) : Loc := locOf e.u (xpBit e 14) (xpBit e 12) e.rb
def rcLoc (e : Enc) : Loc := if e.u then .grp (rcField e) else .lane (rcField e)

/-- The rd and ra operands of a layout-B word, whose XP holds an immediate. -/
def rdLocB (e : Enc) : Loc := locOf e.u false false e.rd
def raLocB (e : Enc) : Loc := locOf e.u false false e.ra

/-- The number of a register operand in its file. -/
def locNum : Loc → Nat
  | .lane r => r
  | .grp r => r

/-- The operand `k` registers further on. -/
def locAdd (k : Nat) : Loc → Loc
  | .lane r => .lane (r + k)
  | .grp r => .grp (r + k)

/-- The value of a register operand in a lane. -/
def readLoc (g : Group) (lane : Nat) : Loc → Word
  | .lane r => readV g r lane
  | .grp r => readG g r

/-- `n` registers from an operand on, as one number. -/
def readLocs (g : Group) (lane n : Nat) : Loc → Nat
  | .lane r => readWords (fun k => readV g k lane) r n
  | .grp r => readWords (readG g) r n

/-! ### Forms and the checks of R81 -/

/-- What a field of a word holds. -/
inductive FieldUse where
  /-- must be 0 (R66) -/
  | unused
  /-- `n` registers from the field on, the first a multiple of `align` -/
  | reg (n align : Nat)
  /-- a lane register whatever U is (R151) -/
  | laneReg
  /-- a group register whatever U is -/
  | groupReg (n align : Nat)
  /-- part of an immediate -/
  | imm
  /-- an unsigned index below a limit (R70) -/
  | index (limit : Nat)
  /-- a predicate number in the low 3 bits, the upper 3 zero (R69) -/
  | pred
  /-- a condition below a limit in [5:3] and a predicate number in [2:0] (R69) -/
  | cond (limit : Nat)
  deriving DecidableEq, Repr

/-- What the rc field of a layout-A XP holds. -/
inductive RcUse where
  | unused
  /-- a fourth operand of `n` registers where modifier [25] is set (R156) -/
  | present (n align : Nat)
  /-- always an operand -/
  | always
  /-- bits of the entry's own (R143) -/
  | bits
  deriving DecidableEq, Repr

/-- Which XP a word takes. -/
inductive XpUse where
  | layoutA
  | layoutB
  /-- payload 0 only (R177) -/
  | zero
  deriving DecidableEq, Repr

/-- Which U a word takes. -/
inductive UUse where
  | both | zero | one
  deriving DecidableEq, Repr

/-- Which guard a word takes. -/
inductive GuardUse where
  | any | zero
  /-- 0 under U = 0, a q predicate under U = 1 (R177) -/
  | zeroLane
  deriving DecidableEq, Repr

/-- What a MEM word offers: orders by code, deck target, streaming hint (R200). -/
structure MemUse where
  orders : List Nat
  deck : Bool
  nt : Bool
  deriving DecidableEq, Repr

/-- The operand form of an instruction. -/
structure Form where
  rd : FieldUse
  ra : FieldUse
  rb : FieldUse
  rc : RcUse := .unused
  xp : XpUse := .layoutA
  u : UUse := .both
  guard : GuardUse := .any
  /-- defined modifier bits, beside the rounding mode and the rc-present bit -/
  mods : Nat := 0
  /-- modifier [24:22] is a rounding mode -/
  round : Bool := false
  mem : Option MemUse := none
  /-- a prologue may execute it under U = 1 (R237) -/
  prologue : Bool := false
  /-- the guard field selects between operands and guards nothing (SEL, R65, R147) -/
  selector : Bool := false
  deriving DecidableEq, Repr

/-- A field that holds a register, so that its g and hi bits mean something. -/
def isReg : FieldUse → Bool
  | .reg _ _ => true
  | _ => false

/-- A field is legal by itself: unused fields 0, indices and conditions below their limits, predicate fields with [5:3] zero. -/
def fieldLegal (use : FieldUse) (x : BitVec 6) : Bool :=
  match use with
  | .unused => x == 0
  | .index limit => x.toNat < limit
  | .pred => x.toNat < 8
  | .cond limit => x.toNat / 8 < limit
  | _ => true

/-- The g and hi bits of a field: never both, and 0 where the field holds no register (R71). -/
def extLegal (use : FieldUse) (g hi : Bool) : Bool := if isReg use then !(g && hi) else !g && !hi

/-- The modifier bits a form defines. -/
def modMask (f : Form) : Nat :=
  match f.mem with
  | some m => 0x3F ||| (if m.deck then 0x40 else 0) ||| (if m.nt then 0x80 else 0)
  | none =>
    f.mods ||| (if f.round then 7 else 0) ||| (match f.rc with
      | .present _ _ => 8
      | _ => 0)

/-- The MEM modifier is legal for the instruction (R72): its order is offered, its scope is 0 to 4, and rp stands only with acq or
acq_rel at dev. -/
def memLegal (m : MemUse) (e : Enc) : Bool :=
  m.orders.contains (memOrder e) && decide (memScope e ≤ 4) &&
  (!memRp e || ((memOrder e == 1 || memOrder e == 3) && memScope e == 3))

/-- The XP of a word is legal (R71, R72, R177). -/
def xpLegal (f : Form) (e : Enc) : Bool :=
  match e.xp with
  | none => true
  | some p =>
    match f.xp with
    | .layoutB => true
    | .zero => p == 0
    | .layoutA =>
      !xpBit e 21 &&
      (!e.u || p.toNat % 32 == 0) &&
      extLegal f.rd false (xpBit e 10) && extLegal f.ra (xpBit e 13) (xpBit e 11) && extLegal f.rb (xpBit e 14) (xpBit e 12) &&
      (match f.rc with
        | .unused => rcField e == 0
        | .present _ _ => rcPresent e || rcField e == 0
        | _ => true) &&
      (modifier e &&& modMask f == modifier e) &&
      (!f.round || modifier e % 8 ≤ 4) &&
      (match f.mem with
        | none => true
        | some m => memLegal m e)

/-- The guard field is legal (R177). -/
def guardLegal (f : Form) (e : Enc) : Bool :=
  match f.guard with
  | .any => true
  | .zero => e.guard == 0
  | .zeroLane => e.u || e.guard == 0

/-- U is legal. -/
def uLegal (f : Form) (e : Enc) : Bool :=
  match f.u with
  | .both => true
  | .zero => !e.u
  | .one => e.u

/-- A register field meets its alignment (R66). -/
def alignLegal (use : FieldUse) (loc : Loc) : Bool :=
  match use with
  | .reg _ align => locNum loc % align == 0
  | .groupReg _ align => locNum loc % align == 0
  | _ => true

/-- `n` registers lie within the group's allocation, or within g0 to g63 (R66) (log 56, DEDUCED). -/
def locWithin (alloc n : Nat) : Loc → Bool
  | .lane r => decide (r + n ≤ alloc) && decide (r + n ≤ 128)
  | .grp r => decide (r + n ≤ 64)

/-- A field's registers lie within the allocation. -/
def fieldWithin (alloc : Nat) (use : FieldUse) (loc : Loc) : Bool :=
  match use with
  | .reg n _ => locWithin alloc n loc
  | .groupReg n _ => locWithin alloc n (.grp (locNum loc))
  | .laneReg => locWithin alloc 1 (.lane (locNum loc))
  | _ => true

/-- The rc operand, where there is one. -/
def rcUsed (f : Form) (e : Enc) : Option (Nat × Nat) :=
  match f.rc with
  | .present n align => if rcPresent e then some (n, align) else none
  | .always => some (1, 1)
  | _ => none

/-- The first failing check of R81 in its order: the reason of the cause 0:r. `extra` are the entry's own limits on its immediates and
indices (0:0) (log 15, DEDUCED) (log 56, DEDUCED) (log 57, DEDUCED). -/
def checkEnc (f : Form) (extra : Bool) (alloc : Nat) (e : Enc) : Option Nat :=
  let (rd, ra, rb) := if f.xp = .layoutA then (rdLoc e, raLoc e, rbLoc e) else (rdLocB e, raLocB e, locOf e.u false false e.rb)
  if !(fieldLegal f.rd e.rd && fieldLegal f.ra e.ra && fieldLegal f.rb e.rb && xpLegal f e && guardLegal f e && extra) then some 0
  else if !uLegal f e then some 2
  else if !(alignLegal f.rd rd && alignLegal f.ra ra && alignLegal f.rb rb &&
      (match rcUsed f e with
        | some (_, align) => rcField e % align == 0
        | none => true)) then some 4
  else if !(fieldWithin alloc f.rd rd && fieldWithin alloc f.ra ra && fieldWithin alloc f.rb rb &&
      (match rcUsed f e with
        | some (n, _) => locWithin alloc n (rcLoc e)
        | none => true)) then some 3
  else none

/-! ### Running an instruction -/

/-- The lanes of a gang that a p guard leaves active (R65). -/
def guardedLanes (k : Nat) (s : State) : LaneMask :=
  (laneList (gangLanes s)).foldl (fun acc i => if readP (curGroup s) k i then acc ||| ((1 : BitVec 32) <<< i) else acc) 0

/-- The lanes an instruction acts in: under U = 0 the active lanes its guard leaves; under U = 1 all active lanes or none (R65). -/
def actLanes (e : Enc) (s : State) : LaneMask :=
  if e.u then (if readQ (curGroup s) (guardNum e) then gangLanes s else 0) else guardedLanes (guardNum e) s

/-- Whether a U = 1 instruction's q guard is true. -/
def qGuard (e : Enc) (s : State) : Bool := readQ (curGroup s) (guardNum e)

/-- The lanes a fault of an instruction records: those active after the guard, where its field is one (R147, R220). -/
def faultLanes (f : Form) (e : Enc) (s : State) : LaneMask := if f.selector then gangLanes s else actLanes e s

/-- An instruction of a form: the checks of R81, then its effect; a prologue executes only what R237 lists, under U = 1. With nobody
issuing, nothing happens (log 57, DEDUCED). -/
def runForm (f : Form) (extra : Bool) (e : Enc) (body : State → State) (s : State) : Host.Outcome State Fault Refusal :=
  match s.issuer with
  | .nobody => .next s
  | .gang _ _ _ =>
    match checkEnc f extra (curGroup s).alloc e with
    | some r => .next (faultWith 0 r (faultLanes f e s) s)
    | none => .next (body s)
  | .prologue _ =>
    if !f.prologue || !e.u then .next (faultWith 10 2 0 s)
    else
      match checkEnc f extra 128 e with
      | some r => .next (faultWith 0 r 0 s)
      | none => .next (body s)

/-- A compact form guarded by p`guard`: only its registers' allocation is checked (R78, R82). -/
def runCompact (guard : Nat) (regs : List Nat) (body : State → State) (s : State) : Host.Outcome State Fault Refusal :=
  match s.issuer with
  | .nobody => .next s
  | .gang _ _ _ =>
    if regs.all (fun r => locWithin (curGroup s).alloc 1 (.lane r)) then .next (body s)
    else .next (faultWith 0 3 (guardedLanes guard s) s)
  | .prologue _ => .next (faultWith 10 2 0 s)

/-! ### Computing -/

/-- What a computation gives: a number of as many words as the destination has, and flags. -/
abbrev Alu := List Nat → Nat × Flags

/-- One lane's result written: `srcs` are operands with their register counts, read in `g0` before anything is written. -/
def aluLane (srcs : List (Loc × Nat)) (rd k : Nat) (f : Alu) (g0 : Group) (g : Group) (lane : Nat) : Group :=
  let r := f (srcs.map fun p => readLocs g0 lane p.2 p.1)
  mergeFlags r.2 (writeVs rd lane (wordsOf k r.1) g)

/-- A computation in each of some lanes, every source read before any destination is written (R135). -/
def aluLanes (srcs : List (Loc × Nat)) (rd k : Nat) (f : Alu) (lanes : LaneMask) (g : Group) : Group :=
  (laneList lanes).foldl (aluLane srcs rd k f g) g

/-- A computation once for the group. -/
def aluOnce (srcs : List (Loc × Nat)) (rd k : Nat) (f : Alu) (g : Group) : Group :=
  let r := f (srcs.map fun p => readLocs g 0 p.2 p.1)
  mergeFlags r.2 (writeGs rd (wordsOf k r.1) g)

/-- A computation under U and the guard (R65). -/
def aluGroup (u q : Bool) (srcs : List (Loc × Nat)) (rd k : Nat) (f : Alu) (lanes : LaneMask) (g : Group) : Group :=
  if u then (if q then aluOnce srcs rd k f g else g) else aluLanes srcs rd k f lanes g

/-- An instruction that computes `k` words at rd from operands, and goes on. -/
def aluBody (e : Enc) (srcs : List (Loc × Nat)) (rd : Loc) (k : Nat) (f : Alu) (s : State) : State :=
  advance (wordLen e) (modCur s (aluGroup e.u (qGuard e s) srcs (locNum rd) k f (actLanes e s)))

/-- A three-register instruction: sources ra, rb and the old rd, one word each (RRR). -/
def formRrr : Form := { rd := .reg 1 1, ra := .reg 1 1, rb := .reg 1 1, prologue := true }
/-- A two-register instruction (RR). -/
def formRr : Form := { rd := .reg 1 1, ra := .reg 1 1, rb := .unused, prologue := true }
/-- A register and a short immediate (RRI). -/
def formRri : Form := { rd := .reg 1 1, ra := .reg 1 1, rb := .imm, xp := .layoutB, prologue := true }
/-- A long immediate (RJ). -/
def formRj : Form := { rd := .reg 1 1, ra := .imm, rb := .imm, xp := .layoutB, prologue := true }

/-- An RRR instruction over [a, b, d]. -/
def runRrr (e : Enc) (f : Alu) (s : State) : Host.Outcome State Fault Refusal :=
  runForm formRrr true e (aluBody e [(raLoc e, 1), (rbLoc e, 1), (rdLoc e, 1)] (rdLoc e) 1 f) s

/-- An RR instruction over [a]. -/
def runRr (e : Enc) (f : Alu) (s : State) : Host.Outcome State Fault Refusal :=
  runForm formRr true e (aluBody e [(raLoc e, 1)] (rdLoc e) 1 f) s

/-- An RRI instruction over [a], its immediate within the entry's limits. -/
def runRri (e : Enc) (extra : Bool) (f : Alu) (s : State) : Host.Outcome State Fault Refusal :=
  runForm formRri extra e (aluBody e [(raLocB e, 1)] (rdLocB e) 1 f) s

/-- An RJ instruction over [d]. -/
def runRj (e : Enc) (extra : Bool) (f : Alu) (s : State) : Host.Outcome State Fault Refusal :=
  runForm formRj extra e (aluBody e [(rdLocB e, 1)] (rdLocB e) 1 f) s

/-! ### Compact forms (R77, R78) -/

/-- The predicate that guards a compact form: p1, or p0. -/
def cmpGuard (c : Cmp) : Nat := if c.g1 then 1 else 0

/-- The lanes a compact form acts in. -/
def cmpLanes (c : Cmp) (s : State) : LaneMask := guardedLanes (cmpGuard c) s

/-- A compact form over [old rd, rs, old rd]: rd also stands as ra. -/
def runCmp (c : Cmp) (f : Alu) (s : State) : Host.Outcome State Fault Refusal :=
  runCompact (cmpGuard c) [c.rs.toNat, c.rd.toNat] (fun s => advance 2 (modCur s (aluLanes
    [(.lane c.rd.toNat, 1), (.lane c.rs.toNat, 1), (.lane c.rd.toNat, 1)] c.rd.toNat 1 f (cmpLanes c s)))) s

/-- A compact form over [old rd] whose rs field is a signed immediate. -/
def runCmpImm (c : Cmp) (f : Alu) (s : State) : Host.Outcome State Fault Refusal :=
  runCompact (cmpGuard c) [c.rd.toNat] (fun s => advance 2 (modCur s (aluLanes
    [(.lane c.rd.toNat, 1)] c.rd.toNat 1 f (cmpLanes c s)))) s

/-- The signed immediate of a compact form. -/
def simm5 (c : Cmp) : Int := signedOf 5 c.rs.toNat

/-! ### Predicates -/

/-- A predicate result in some lanes, with the complement where pd is even and not 0 (R69, R146). -/
def writePredPair (pd lane : Nat) (v : Bool) (g : Group) : Group :=
  let g := writeP pd lane v g
  if pd % 2 = 0 && pd ≠ 0 then writeP (pd + 1) lane (!v) g else g

/-- The same for a group predicate. -/
def writeQPair (pd : Nat) (v : Bool) (g : Group) : Group :=
  let g := writeQ pd v g
  if pd % 2 = 0 && pd ≠ 0 then writeQ (pd + 1) (!v) g else g

/-- The condition and destination of a CMP word (R69). -/
def cmpCond (e : Enc) : Nat := e.rd.toNat / 8
def cmpPd (e : Enc) : Nat := e.rd.toNat % 8

/-- One lane's predicate result written: `f` gives the result of the lane or none where nothing is written. -/
def predLane (pd : Nat) (f : Group → Nat → Bool × Flags) (g0 : Group) (g : Group) (lane : Nat) : Group :=
  let r := f g0 lane
  mergeFlags r.2 (writePredPair pd lane r.1 g)

/-- An instruction that writes a predicate and goes on. -/
def predBody (e : Enc) (f : Group → Nat → Bool × Flags) (s : State) : State :=
  let g := curGroup s
  let lanes := actLanes e s
  let q := qGuard e s
  advance (wordLen e) (modCur s fun _ =>
    if e.u then
      (if q then
        let r := f g 0
        mergeFlags r.2 (writeQPair (cmpPd e) r.1 g)
      else g)
    else (laneList lanes).foldl (predLane (cmpPd e) f g) g)

/-- A compare of ra and rb, `n` words each (R69). -/
def runCmpFormat (e : Enc) (conds n align : Nat) (f : Nat → Nat → Nat → Bool × Flags) (prologue : Bool) (s : State) :
    Host.Outcome State Fault Refusal :=
  runForm { rd := .cond conds, ra := .reg n align, rb := .reg n align, prologue := prologue } true e
    (predBody e fun g lane => f (cmpCond e) (readLocs g lane n (raLoc e)) (readLocs g lane n (rbLoc e))) s

end Sys2Proof.Machine
end

