-- ==== Sys2Proof/Machine/Translate.lean ====
section
/-!
DEFINITION. From a virtual address to a byte: windows, TLBs and the walk (R268 to R274), the move check (R279), peer windows (R430 to
R432), faults posted to the host (R276), events (R429), release records (R96) and the fetch of code (R62, R63, R280).
-/

namespace Sys2Proof.Machine

/-! ### Records posted to the host (R276, R427, R429) -/

/-- An MSI-X vector fires (R427). -/
def fireVector (v : Nat) (s : State) : State := { s with outside := { s.outside with vectors := s.outside.vectors ++ [v] } }

/-- A host physical address as the number of a byte. -/
def hostKey (pa : Nat) : Nat := memKey 2 pa

/-- The fields FAULTQ and EVQ share: the ring, its size in records, the records the host has consumed. -/
def ringBase (q : BitVec 128) : Nat := 4096 * bitsOf q.toNat 63 12
def ringSize (q : BitVec 128) : Nat := 2 ^ (5 + bitsOf q.toNat 67 64)
def ringRead (q : BitVec 128) : Nat := bitsOf q.toNat 127 96

/-- Records written and not consumed. -/
def ringUsed (q : BitVec 128) (seq : Nat) : Nat := (seq + 2 ^ 32 - ringRead q) % 2 ^ 32

/-- A full ring takes no record. -/
def ringFull (q : BitVec 128) (seq : Nat) : Bool := decide (ringSize q ≤ ringUsed q seq)

/-- A 32-byte record written to a ring; [255:224] is its sequence number, from 1. -/
def ringWrite (q : BitVec 128) (seq rec : Nat) (m : Memory) : Memory :=
  cellSetRange emptyByte m (hostKey (ringBase q + 32 * (seq % ringSize q)))
    (natToBytes 32 (rec % 2 ^ 224 + 2 ^ 224 * ((seq + 1) % 2 ^ 32)))

/-- Held events written while the ring has room (R429). -/
def flushEvents : List (BitVec 256) → State → State
  | [], s => { s with outside := { s.outside with eventsHeld := [] } }
  | r :: rest, s =>
    let q := s.outside.evq
    let n := s.outside.eventSeq
    if ringFull q n then { s with outside := { s.outside with eventsHeld := r :: rest } }
    else
      let s := if ringUsed q n = 0 then fireVector 0 s else s
      flushEvents rest { s with mem := ringWrite q n r.toNat s.mem, outside := { s.outside with eventSeq := n + 1 } }

/-- A keystone event: kind [223:216], detail [15:0]; a ring of 0 disables recording (R429) (log 65, DEDUCED). -/
def postEvent (kind detail : Nat) (s : State) : State :=
  if ringBase s.outside.evq = 0 then s
  else flushEvents (s.outside.eventsHeld ++ [BitVec.ofNat 256 (2 ^ 216 * kind + detail % 2 ^ 16)]) s

/-- A fault record without its sequence number (R276). -/
def faultRecord (f : FaultRec) : Nat :=
  2 ^ 216 * (f.ctx % 256) + 2 ^ 207 * f.cause.toNat + 2 ^ 204 * (f.access % 8) + 2 ^ 196 * (f.pier % 256) + f.va % 2 ^ 57

/-- Waiting fault records written while the ring has room (R276). -/
def flushFaults : List FaultRec → State → State
  | [], s => { s with vm := { s.vm with faultWaiting := [] } }
  | f :: rest, s =>
    let q := s.vm.faultq
    let n := s.vm.faultSeq
    if ringFull q n then { s with vm := { s.vm with faultWaiting := f :: rest } }
    else
      let s := if ringUsed q n = 0 then fireVector 129 s else s
      flushFaults rest { s with mem := ringWrite q n (faultRecord f) s.mem, vm := { s.vm with faultSeq := n + 1 } }

/-- A record for the fault queue; a ring of 0 disables recording (log 65, DEDUCED). -/
def queueFault (f : FaultRec) (s : State) : State :=
  if ringBase s.vm.faultq = 0 then s else flushFaults (s.vm.faultWaiting ++ [f]) s

/-- Bit `k` of FMODE: the function is in hardware mode (R239). -/
def hwMode (s : State) (k : Nat) : Bool := s.fe.fmode.getLsbD k

/-- A replayable fault: one record for a context and page until it is serviced; a host-owned page of HBM or the far tier is serviced on
the device in hardware fault mode (R276). -/
def postFault (ctx : Nat) (cause : Cause) (access pier va tier : Nat) (s : State) : State :=
  let page := va / 4096
  if s.vm.faultOpen.any fun f => f.ctx == ctx && f.page == page then s
  else
    let hw := hwMode s 1 && cause == causeOf 3 10 && decide (tier < 2)
    let f : FaultRec := ⟨ctx, page, cause, access, pier, va, hw⟩
    let s := { s with vm := { s.vm with faultOpen := s.vm.faultOpen ++ [f] } }
    if hw then s else queueFault f s

/-! ### Frames and swizzles (R268, R269) -/

/-- Bytes of a frame. -/
def frameBytes : Nat := 2 ^ 21

/-- An HBM frame's stack, stack frame and layer (R268). -/
def frameStack (f : Nat) : Nat := f % 8
def stackFrame (f : Nat) : Nat := f / 8
def frameLayer (f : Nat) : Nat := f / 8 / 3072

/-- An HBM frame is present: within the stacks and in a present layer (R268). -/
def framePresent (s : State) (f : Nat) : Bool :=
  decide (f < 393216) && (((s.vm.hbmcap[frameStack f]?).getD 0).getLsbD (frameLayer f))

/-- A frame of a tier exists (R268) (log 41, DEDUCED). -/
def frameExists (s : State) (tier f : Nat) : Bool :=
  match tier with
  | 0 => framePresent s f
  | 1 => decide (f < 786432)
  | _ => true

/-- The permutation of an offset within its frame (R269). -/
def placeOffset (perm o : Nat) : Nat :=
  match perm with
  | 1 => o / 2 ^ 16 * 2 ^ 16 + bitsOf o 11 8 * 2 ^ 12 + bitsOf o 15 12 * 2 ^ 8 + o % 2 ^ 8
  | 2 => o / 2 ^ 13 * 2 ^ 13 + (bitsOf o 12 8 ^^^ bitsOf o 20 16) * 2 ^ 8 + o % 2 ^ 8
  | _ => o

/-- The pseudo-channel of a placed offset of an HBM frame (R269). -/
def pseudoChannel (swizzle f o' : Nat) : Nat :=
  let u := o' / 256
  let sf := stackFrame f
  match swizzle % 4 with
  | 0 => (u + sf) % 192
  | 1 => (u / 8 + sf) % 192
  | _ => (u / 16 + sf) % 192

/-- The 40-bit offset within the stack that the gather expander receives (R268). -/
def stackOffset (f o' : Nat) : Nat := stackFrame f * 2 ^ 21 + o'

/-- A swizzle is legal for a leaf of `2^size` bytes in a tier (R269). -/
def swizzleLegal (swizzle tier size : Nat) : Bool :=
  (swizzle == 0 || tier == 0) && decide (swizzle % 4 < 3) &&
  (match swizzle / 4 with
    | 0 => true
    | 1 => decide (16 ≤ size)
    | 2 => decide (21 ≤ size)
    | _ => false)

/-- The physical address of a virtual address in its leaf, before placement. -/
def leafPa (x : Xlat) (va : Nat) : Nat := x.base + va % 2 ^ x.size

/-- Its placed address (R269). -/
def placedPa (x : Xlat) (va : Nat) : Nat :=
  let pa := leafPa x va
  pa / frameBytes * frameBytes + placeOffset (x.swizzle / 4) (pa % frameBytes)

/-! ### Contexts, windows and the walk (R270 to R274) -/

/-- `n` bytes of a tier as a little-endian number. -/
def readPhys (s : State) (tier pa n : Nat) : Nat := bytesToNat (cellRange emptyByte s.mem (memKey tier pa) n)

/-- The tier and address of a context's entry (R270, R278). -/
def ctxEntryPa (s : State) (ctx : Nat) : Nat × Nat := (s.vm.ctxtab.toNat % 4, 4096 * bitsOf s.vm.ctxtab.toNat 63 12 + 64 * ctx)

/-- A context's 64-byte entry. -/
def ctxEntry (s : State) (ctx : Nat) : Nat := readPhys s (ctxEntryPa s ctx).1 (ctxEntryPa s ctx).2 64

/-- The window part of a context entry (R270). -/
def windowOf (ctx e : Nat) : Window where
  ctx := ctx
  valid := e.testBit 256
  base := bitsOf e 127 64
  limit := bitsOf e 191 128
  offset := bitsOf e 255 192
  attrs := BitVec.ofNat 64 (bitsOf e 319 256)

/-- A window is well formed (R269, R270, R272) (log 41, DEDUCED). -/
def windowLegal (w : Window) : Bool :=
  let a := w.attrs.toNat
  bitsOf a 63 10 == 0 && bitsOf a 9 8 != 3 && swizzleLegal (bitsOf a 7 4) 0 21 &&
  w.base % frameBytes == 0 && w.limit % frameBytes == 0 && (w.base + w.offset) % 2 ^ 52 % frameBytes == 0

/-- What a virtual address translates to. -/
inductive Look where
  | ok (x : Xlat)
  | absent
  | malformed
  /-- a peer window: device and offset (R430) -/
  | peer (dev off : Nat)
  /-- bits [63:57] are not 0 -/
  | outside
  deriving DecidableEq, Repr

/-- A window that serves an address. -/
def windowServes (w : Window) (va : Nat) : Bool := w.valid && decide (w.base ≤ va) && decide (va < w.limit)

/-- The translation a window gives (R271). -/
def lookWindow (w : Window) (va : Nat) : Look :=
  if !windowLegal w then .malformed
  else
    let a := w.attrs.toNat
    .ok ⟨0, (va / frameBytes * frameBytes + w.offset) % 2 ^ 52, 21, a.testBit 1, a.testBit 2, a.testBit 3, false, bitsOf a 7 4,
      bitsOf a 9 8, true⟩

/-- A leaf entry read at a level (2 or 3) as a translation of `2^size` bytes (R272) (log 41, DEDUCED). -/
def leafOf (e size : Nat) : Look :=
  let tier := bitsOf e 55 54
  let swizzle := bitsOf e 59 56
  let frame := 4096 * bitsOf e 51 12
  if bitsOf e 63 62 ≠ 0 || bitsOf e 61 60 = 3 || tier = 3 || bitsOf e 8 2 ≠ 0 || !swizzleLegal swizzle tier size then .malformed
  else if size = 21 && (frame % frameBytes ≠ 0 || e.testBit 52) then .malformed
  else
    .ok ⟨tier, frame / 2 ^ size * 2 ^ size, size, e.testBit 9, e.testBit 10, e.testBit 11, e.testBit 53, swizzle, bitsOf e 61 60, false⟩

/-- Sixteen level-3 entries form a 64 KiB leaf (R272). -/
def runLegal (es : List Nat) : Bool :=
  let clean (e : Nat) : Nat := e - 4096 * bitsOf e 15 12
  match es with
  | [] => false
  | e0 :: _ =>
    ((upTo 16).zip es).all fun p => p.2 % 4 == 3 && p.2.testBit 52 && clean p.2 == clean e0 && bitsOf p.2 15 12 == p.1

/-- The last level of a walk: entry `e` at `pa` of a tier. -/
def walkLast (s : State) (tier pa : Nat) : Look :=
  let e := readPhys s tier pa 8
  if e % 2 = 0 then .absent
  else if !e.testBit 1 then .malformed
  else if e.testBit 52 then
    if runLegal ((upTo 16).map fun i => readPhys s tier (pa / 128 * 128 + 8 * i) 8) then leafOf e 16 else .malformed
  else leafOf e 12

/-- The index bits of a level: its lowest bit and its width. -/
def levelShift : Nat → Nat × Nat
  | 0 => (39, 17)
  | 1 => (30, 9)
  | 2 => (21, 9)
  | _ => (12, 9)

/-- The walk from a table at `pa` of a tier, `fuel` levels remaining above the last; a table in an HBM frame that is not present traps as a
malformed one does, and so does tier 3 in a root or non-leaf entry (R268, R272) (log 41, DEDUCED). -/
def walkFrom (s : State) (va : Nat) : Nat → Nat → Nat → Look
  | tier, table, fuel =>
    if tier = 3 || !frameExists s tier (table / frameBytes) then .malformed
    else
      match fuel with
      | 0 => walkLast s tier (table + 8 * (va / 2 ^ 12 % 2 ^ 9))
      | n + 1 =>
        let (lo, w) := levelShift (3 - (n + 1))
        let e := readPhys s tier (table + 8 * (va / 2 ^ lo % 2 ^ w)) 8
        if e % 2 = 0 then .absent
        else if e.testBit 1 then (if n = 0 then leafOf e 21 else .malformed)
        else walkFrom s va (bitsOf e 55 54) (4096 * bitsOf e 51 12) n

/-- The frame that holds a context's entry is present (R268). -/
def ctxPresent (s : State) (ctx : Nat) : Bool := frameExists s (ctxEntryPa s ctx).1 ((ctxEntryPa s ctx).2 / frameBytes)

/-- The walk of a context's tables from its root (R270, R272). -/
def walk (s : State) (ctx va : Nat) : Look :=
  let e := ctxEntry s ctx
  if !ctxPresent s ctx then .malformed
  else walkFrom s va (bitsOf e 55 54) (2 ^ 20 * bitsOf e 51 20) 3

/-- A TLB entry serves an address. -/
def tlbServes (ctx va : Nat) (t : TlbEntry) : Bool := t.ctx == ctx && t.page == va / 2 ^ t.leaf.size

/-- The entry of a TLB for an address. -/
def tlbFind (tlbs : List (Nat × List TlbEntry)) (n ctx va : Nat) : Option Xlat :=
  (((keyFind n tlbs).getD []).find? (tlbServes ctx va)).map (·.leaf)

/-- The pier TLB, then the die TLB, then the walk (R271); the front end and the causeway have no TLB (log 8, DESIGN CHOICE) (log 41, DEDUCED). -/
def lookTables (s : State) (pier : Option Nat) (ctx va : Nat) : Look :=
  match pier with
  | none => walk s ctx va
  | some p =>
    match tlbFind s.vm.pierTlb p ctx va with
    | some x => .ok x
    | none =>
      match tlbFind s.vm.dieTlb (p / 64) ctx va with
      | some x => .ok x
      | none => walk s ctx va

/-- The window translation held for a context (R274). -/
def heldWindow (s : State) (ctx : Nat) : Option Window := s.vm.windows.find? fun w => w.ctx == ctx

/-- The translation of an address in a context (R271). -/
def look (s : State) (pier : Option Nat) (ctx va : Nat) : Look :=
  if 2 ^ 57 ≤ va then .outside
  else if va.testBit 56 then .peer (bitsOf va 55 47) (bitsOf va 46 0)
  else
    match heldWindow s ctx with
    | some w => if windowServes w va then lookWindow w va else lookTables s pier ctx va
    | none =>
      let e := ctxEntry s ctx
      if !ctxPresent s ctx then .malformed
      else if e % 2 = 0 then .absent
      else if bitsOf e 511 320 ≠ 0 then .malformed
      else
        let w := windowOf ctx e
        if windowServes w va then lookWindow w va else lookTables s pier ctx va

/-- A TLB with an entry added, the oldest leaving when it is full (log 8, DESIGN CHOICE). -/
def tlbAdd (cap n : Nat) (t : TlbEntry) (tlbs : List (Nat × List TlbEntry)) : List (Nat × List TlbEntry) :=
  let l := (keyFind n tlbs).getD []
  if l.contains t then tlbs else keySet n ((t :: l).take cap) tlbs

/-- A translation used: the context's window is held, and a walk's leaf enters the TLBs of the pier and its die (R274) (log 8, DESIGN CHOICE). -/
def noteUse (pier : Option Nat) (ctx va : Nat) (s : State) : State :=
  match look s pier ctx va with
  | .ok x =>
    let s :=
      match heldWindow s ctx with
      | some _ => s
      | none =>
        let w := windowOf ctx (ctxEntry s ctx)
        if w.valid && !windowLegal w then s else { s with vm := { s.vm with windows := s.vm.windows ++ [w] } }
    if x.window then s
    else
      match pier with
      | none => s
      | some p =>
        let t : TlbEntry := ⟨ctx, va / 2 ^ x.size, x⟩
        { s with vm := { s.vm with
            pierTlb := tlbAdd 512 p t s.vm.pierTlb
            dieTlb := tlbAdd 16384 (p / 64) t s.vm.dieTlb } }
  | _ => s

/-! ### Reaching a part of an access (R201 to R203, R279, R430) -/

/-- What an access wants, numbered as the fault record numbers it (R276). -/
inductive Need where
  | load | store | atomic | fetch | engineRead | engineWrite
  deriving DecidableEq, Repr

/-- The access code of a fault record. -/
def needCode : Need → Nat
  | .load => 0
  | .store => 1
  | .atomic => 2
  | .fetch => 3
  | .engineRead => 4
  | .engineWrite => 5

/-- Loads and atomics read; stores and atomics write. -/
def needReads : Need → Bool
  | .load | .atomic | .engineRead => true
  | _ => false
def needWrites : Need → Bool
  | .store | .atomic | .engineWrite => true
  | _ => false

/-- What a part of an access meets. -/
inductive Reach where
  /-- the number of its first byte in the device's memory -/
  | mem (key : Nat)
  /-- a peer device's window -/
  | peer (dev off : Nat)
  /-- a fault: the step of R203 and the reason -/
  | fault (step reason : Nat)
  /-- 3:6 of step 4 or 5 -/
  | absent
  /-- 3:10 of a page of a tier -/
  | hostOwned (tier : Nat)
  /-- a frame under a move lock -/
  | locked (tier frame : Nat)
  /-- a part performed before its lane parked (R91) -/
  | done
  deriving DecidableEq, Repr

/-- A frame is locked by a move (R279). -/
def frameLocked (s : State) (tier f : Nat) : Bool := s.vm.moves.any fun m => m.started && m.srcTier == tier && m.srcFrame == f

/-- The checks of R203 on a leaf, in their order, then the move check (R279) (log 41, DEDUCED) (log 66, DESIGN CHOICE). -/
def reachLeaf (s : State) (need : Need) (x : Xlat) (va : Nat) : Reach :=
  let f := leafPa x va / frameBytes
  if needReads need && !x.r then .fault 3 9
  else if needWrites need && !x.w then .fault 3 7
  else if need == .fetch && !x.x then .fault 3 8
  else if !frameExists s x.tier f then .fault 4 6
  else if x.hostOwned then .hostOwned x.tier
  else if frameLocked s x.tier f then .locked x.tier f
  else .mem (memKey x.tier (placedPa x va))

/-- What a translation comes to for an access that is not to a peer (log 41, DEDUCED). -/
def reachLook (s : State) (need : Need) (va : Nat) : Look → Reach
  | .ok x => reachLeaf s need x va
  | .absent => .absent
  | .malformed => .fault 4 6
  | .peer dev off => .peer dev off
  | .outside => .fault 2 6

/-- The export context, where it is enabled (R431). -/
def exportCtx (s : State) : Option Nat := if s.outside.expctx.getLsbD 8 then some (s.outside.expctx.toNat % 256) else none

/-- Where an access reaches: an access that names the device's own id goes to the export context (R430) (log 41, DEDUCED). -/
def reach (s : State) (pier : Option Nat) (ctx : Nat) (need : Need) (va : Nat) : Reach :=
  match look s pier ctx va with
  | .peer dev off =>
    if dev = s.outside.podId then
      match exportCtx s with
      | none => .fault 4 6
      | some c => reachLook s need off (look s pier c off)
    else .peer dev off
  | l => reachLook s need va l

/-- The context and address a TLB note is made under. -/
def noteAccess (pier : Option Nat) (ctx va : Nat) (s : State) : State :=
  match look s pier ctx va with
  | .peer dev off =>
    if dev = s.outside.podId then
      match exportCtx s with
      | none => s
      | some c => noteUse pier c off s
    else s
  | _ => noteUse pier ctx va s

/-- The context and address under which an access's fault is recorded: those of the export context where it names the device's own id
(R276, R430). -/
def faultPlace (s : State) (ctx va : Nat) : Nat × Nat :=
  if 2 ^ 56 ≤ va && decide (va < 2 ^ 57) && bitsOf va 55 47 == s.outside.podId then
    match exportCtx s with
    | some c => (c, bitsOf va 46 0)
    | none => (ctx, va)
  else (ctx, va)

/-- A run of bytes cut at the 128-byte lines, and so at the 256-byte interleave regions (R91, R432): the first bytes' addresses and
lengths. -/
def cutRun (va : Nat) : Nat → Nat → List (Nat × Nat)
  | _, 0 => []
  | n, fuel + 1 =>
    if n = 0 then []
    else
      let k := min n (128 - va % 128)
      (va, k) :: cutRun (va + k) (n - k) fuel

/-- The parts of a run of `n` bytes. -/
def partsOf (va n : Nat) : List (Nat × Nat) := cutRun va n (n / 128 + 2)

/-- A part of an access: what it wants, its address, its length and what it meets. -/
structure Part where
  need : Need
  va : Nat
  len : Nat
  at_ : Reach
  deriving DecidableEq, Repr

/-- The parts of a run with what each meets. -/
def reachRun (s : State) (pier : Option Nat) (ctx : Nat) (need : Need) (va n : Nat) : List Part :=
  (partsOf va n).map fun p => ⟨need, p.1, p.2, reach s pier ctx need p.1⟩

/-- A part meets a fault of a step with a reason; in a launch that is not replayable an absent translation is one of step 4 and a
host-owned page one of step 5 (R203, R216) (log 41, DEDUCED). -/
def partFault (replay : Bool) (step reason : Nat) (p : Part) : Bool :=
  match p.at_ with
  | .fault st r => st == step && r == reason
  | .absent => !replay && step == 4 && reason == 6
  | .hostOwned _ => !replay && step == 5 && reason == 10
  | _ => false

/-- The steps and reasons in the order of R203. -/
def faultOrder : List (Nat × Nat) := [(2, 6), (3, 9), (3, 7), (3, 8), (4, 6), (5, 10)]

/-- The reason of the first check, in the order of R203, that some part fails. -/
def firstFault (replay : Bool) (ps : List Part) : Option Nat :=
  (faultOrder.find? fun sr => ps.any (partFault replay sr.1 sr.2)).map (·.2)

/-- A part that stops its access without a trap. -/
def partParks (p : Part) : Bool :=
  match p.at_ with
  | .absent | .hostOwned _ | .locked _ _ => true
  | _ => false

/-- The first part that parks. -/
def firstPark (ps : List Part) : Option Part := ps.find? partParks

/-- The cause a parking part records; 0 for a move lock. -/
def parkCause (p : Part) : Cause :=
  match p.at_ with
  | .absent => causeOf 3 6
  | .hostOwned _ => causeOf 3 10
  | _ => 0

/-- The lock a part waits for. -/
def parkLock (p : Part) : Option (Nat × Nat) :=
  match p.at_ with
  | .locked t f => some (t, f)
  | _ => none

/-- A parking part's fault is posted (R276); a move lock posts none (R279). -/
def postPart (ctx pier : Nat) (p : Part) (s : State) : State :=
  let a := faultPlace s ctx p.va
  match p.at_ with
  | .absent => postFault a.1 (causeOf 3 6) (needCode p.need) pier a.2 3 s
  | .hostOwned t => postFault a.1 (causeOf 3 10) (needCode p.need) pier a.2 t s
  | _ => s

/-! ### The bytes of a part -/

/-- The bytes of a part. -/
def readPart (s : State) (p : Part) : List Byte :=
  match p.at_ with
  | .mem key => cellRange emptyByte s.mem key p.len
  | .peer dev off => cellRange emptyByte s.peer (peerKey dev off) p.len
  | _ => []

/-- The bytes of a run (log 1, DESIGN CHOICE) (log 66, DESIGN CHOICE). -/
def readParts (s : State) (ps : List Part) : List Byte := (ps.map (readPart s)).flatten

/-- Whether a range of memory holds an uncorrectable granule (R204). -/
def memPoisoned (s : State) (key n : Nat) : Bool :=
  (upTo n).any fun i => cellGet 0 s.poison ((key + i) / 8) != 0

/-- Whether a run holds uncorrectable data. -/
def partsPoisoned (s : State) (ps : List Part) : Bool :=
  ps.any fun p =>
    match p.at_ with
    | .mem key => memPoisoned s key p.len
    | _ => false

/-- Bytes written to a part. -/
def writePart (p : Part) (bs : List Byte) (s : State) : State :=
  match p.at_ with
  | .mem key => writeMem key bs s
  | .peer dev off => { s with peer := cellSetRange emptyByte s.peer (peerKey dev off) bs }
  | _ => s

/-- Bytes written to a run, part by part (log 1, DESIGN CHOICE) (log 66, DESIGN CHOICE). -/
def writeParts : List Part → List Byte → State → State
  | [], _, s => s
  | p :: rest, bs, s => writeParts rest (bs.drop p.len) (writePart p (bs.take p.len) s)

/-! ### The causeway (R432) -/

/-- A link takes part in port selection unless it is down. -/
def linkLive (l : Link) : Bool := l.state != .down

/-- The live ports, ascending. -/
def livePorts (s : State) : List Nat := (upTo 16).filter fun p => ((s.outside.links[p]?).map linkLive).getD false

/-- The port of an access to device `dev` at a virtual address (R432); none when no port lives. -/
def portOf (s : State) (dev va : Nat) : Option Nat :=
  let l := livePorts s
  l[(dev ^^^ bitsOf va 22 7) % l.length]?

/-- The port of a part. -/
def partPort (s : State) (p : Part) : Option (Option Nat) :=
  match p.at_ with
  | .peer dev _ => some (portOf s dev p.va)
  | _ => none

/-- A port's link rewritten. -/
def modLink (port : Nat) (f : Link → Link) (s : State) : State := { s with outside := { s.outside with links := listSet f port s.outside.links } }

/-- The table entry that stands for a device's header (log 20, DESIGN CHOICE). -/
def headerEntry (dev : Nat) (l : Link) : Option Nat := (l.headers.find? fun h => h.2 == dev).map (·.1)

/-- The entry a flit to a device installs: the least free one, where none stands for it or is about to (log 20, DESIGN CHOICE). -/
def headerInstall (dev : Nat) (l : Link) : Option Nat :=
  if (headerEntry dev l).isSome || l.unacked.any (fun f => f.dev == dev && f.installs.isSome) then none
  else (upTo (l.headers.length + l.unacked.length + 1)).find? fun k =>
    !(l.headers.any fun h => h.1 == k) && !(l.unacked.any fun f => f.installs == some k)

/-- The entry a flit to a device removes, where a free bit says so: the first of another device (log 20, DESIGN CHOICE). -/
def headerRemove (port dev : Nat) (l : Link) : Option Nat :=
  if Sys2Proof.Config.freeBit (2 ^ 200 + 2 ^ 64 * port + l.next) then
    (l.headers.find? fun h => h.2 != dev && !(l.unacked.any fun f => f.removes == some h.1)).map (·.1)
  else none

/-- The next flit to a device on a port: encoded against the table as it stands, without the changes not yet acknowledged (R433)
(log 20, DESIGN CHOICE). -/
def nextFlit (port dev : Nat) (l : Link) : Flit :=
  { seq := l.next, dev := dev, entry := headerEntry dev l, installs := headerInstall dev l, removes := headerRemove port dev l }

/-- A flit to a device is sent on a port and kept for replay (R433) (log 20, DESIGN CHOICE). -/
def sendFlit (port dev : Nat) (l : Link) : Link :=
  let f := nextFlit port dev l
  { l with
    next := l.next + 1
    unacked := l.unacked ++ [f]
    wire := l.wire ++ [f] }

/-- The flits not acknowledged go over the link again as they were (R433). -/
def resend (l : Link) : Link := { l with wire := l.wire ++ l.unacked }

/-- The flit of a part that goes to a peer. -/
def sendPart (p : Part) (s : State) : State :=
  match p.at_ with
  | .peer dev _ =>
    match portOf s dev p.va with
    | none => s
    | some port => modLink port (sendFlit port dev) s
  | _ => s

/-! ### Writes to peer windows that the owner has not answered (R359, R431) -/

/-- The bytes of a write, as a number and a length. -/
def peerRange (w : OpWrite) : Option (Nat × Nat) :=
  match w with
  | .peer _ _ key bs => some (key, bs.length)
  | _ => none

/-- The bytes of peer windows whose writes await the owner's answer. -/
def unansweredWrites (s : State) : List (Nat × Nat) :=
  (s.spans.map fun p =>
    ((p.2.groups.map fun g => (g.ops.map fun o => o.writes.filterMap peerRange).flatten).flatten) ++
    (p.2.queues.map fun q => (q.map fun t => t.pending.map fun w => (w.2.1, w.2.2.length)).flatten).flatten).flatten

/-- Two runs share a granule. -/
def shareGranule (a n b m : Nat) : Bool := decide (a / 8 ≤ (b + m - 1) / 8) && decide (b / 8 ≤ (a + n - 1) / 8)

/-- A part reaches a granule of a peer window whose write the owner has not answered: its request follows that write on the same port, so it
is not performed before it (R87, R432) (log 18, DESIGN CHOICE). -/
def peerBusy (s : State) (p : Part) : Bool :=
  match p.at_ with
  | .peer dev off => (unansweredWrites s).any fun w => shareGranule (peerKey dev off) p.len w.1 w.2
  | _ => false

/-! ### Release records of the viaduct caches (R96) -/

/-- A release at span or grp scope to a line by a pier. -/
def recordRelease (pier line : Nat) (s : State) : State :=
  let die := pier / 64
  { s with releases := s.releases.filter (fun r => !(r.1 == die && r.2.1 == line)) ++ [(die, line, pier)] }

/-- The lines of a run that lie in the device's memory, every line that a part touches. -/
def partLines (ps : List Part) : List Nat :=
  (ps.map fun p =>
    match p.at_ with
    | .mem key => (upTo ((key + p.len - 1) / 128 + 1 - key / 128)).map fun i => key / 128 + i
    | _ => []).flatten

/-! ### Fetching code (R62, R63, R280) -/

/-- A pier's fetched copy of the block at a byte number. -/
def icacheFind (s : State) (pier key : Nat) : Option (List Byte) :=
  (s.icache.find? fun b => b.1 == pier && b.2.1 == key).map (·.2.2)

/-- What fetching a block comes to. -/
inductive Fetch where
  | ok (b : CodeBlock)
  | stop (p : Part)
  deriving DecidableEq, Repr

/-- A fetched granule: its bytes, or bytes the spec leaves open where they are uncorrectable (log 55, DESIGN CHOICE). -/
def fetchGranule (s : State) (key i : Nat) : List Byte :=
  if memPoisoned s (key + 8 * i) 8 then
    natToBytes 4 (Sys2Proof.Config.freeWord (s.fresh + 2 * i)).toNat ++ natToBytes 4 (Sys2Proof.Config.freeWord (s.fresh + 2 * i + 1)).toNat
  else cellRange emptyByte s.mem (key + 8 * i) 8

/-- A block as memory gives it. -/
def fetchMemory (s : State) (key : Nat) : List Byte :=
  if memPoisoned s key 64 then ((upTo 8).map (fetchGranule s key)).flatten else cellRange emptyByte s.mem key 64

/-- The copy of a block that a pier has fetched; a prologue engine keeps none (log 55, DESIGN CHOICE). -/
def fetchedCopy (s : State) (pier : Option Nat) (key : Nat) : Option (List Byte) := pier.bind fun p => icacheFind s p key

/-- The block at a 64-byte aligned address: the one the slice holds, or a fetch that translates again (R280). -/
def fetchBlock (s : State) (pier : Option Nat) (ctx : Nat) (held : List CodeBlock) (va : Nat) : Fetch :=
  match held.find? fun b => b.va == va with
  | some b => .ok b
  | none =>
    let p : Part := ⟨.fetch, va, 64, reach s pier ctx .fetch va⟩
    match p.at_ with
    | .mem key => .ok ⟨va, (fetchedCopy s pier key).getD (fetchMemory s key)⟩
    | .peer _ _ => .stop { p with at_ := .fault 3 8 }
    | _ => .stop p

/-- A block fetched: the pier keeps its copy until CCTL discards it (R63); a host page is never cached (R425) (log 55, DESIGN CHOICE). -/
def noteFetch (pier : Option Nat) (ctx : Nat) (held : List CodeBlock) (b : CodeBlock) (s : State) : State :=
  if held.contains b then s
  else
    match reach s pier ctx .fetch b.va with
    | .mem key =>
      let s := if memPoisoned s key 64 then { s with fresh := s.fresh + 16 } else s
      match pier with
      | none => s
      | some p =>
        let s := noteAccess pier ctx b.va s
        if 2 ≤ key / 2 ^ 52 || (icacheFind s p key).isSome then s else { s with icache := s.icache ++ [(p, key, b.bytes)] }
    | _ => s

end Sys2Proof.Machine
end

