-- ==== Sys2Proof/Machine/Access.lean ====
section
/-!
DEFINITION. A memory instruction's accesses (R200 to R204): addresses of the active lanes, the checks of R203 in their order, parking and
replay of the unfinished lanes, one counted operation for all, and what an operation carries to its completion.
-/

namespace Sys2Proof.Machine

/-! ### The issuing group and its launch -/

/-- The context the issuer's addresses are translated in (R270). -/
def curCtx (s : State) : Nat := ((curLaunch s).map (·.ctx)).getD 0

/-- The issuer's launch is replayable (R203); a prologue's loads wait as in one that is (R237). -/
def curReplay (s : State) : Bool :=
  match s.issuer with
  | .prologue _ => true
  | _ => ((curLaunch s).map replayable).getD false

/-- The parked entries of the issuing gang or slice. -/
def myParked (s : State) : List Parked := (curGroup s).parked.filter fun p => p.slice == issuerSlice s

/-- The issuing gang's parked entries replaced. -/
def setMyParked (ps : List Parked) (s : State) : State :=
  let sl := issuerSlice s
  modCur s fun g => { g with parked := g.parked.filter (fun p => p.slice != sl) ++ ps }

/-- A group's operands kept with an instruction that parks (R204). -/
def operandsOf (g : Group) : Operands := ⟨g.vregs, g.gregs, g.preds, g.qpreds⟩

/-- The issuing group with the operands its instruction reads: those at issue where the instruction has parked (R204). -/
def issueGroup (s : State) : Group :=
  match (myParked s).findSome? (·.operands) with
  | none => curGroup s
  | some o => { curGroup s with vregs := o.vregs, gregs := o.gregs, preds := o.preds, qpreds := o.qpreds }

/-- Lanes as a mask. -/
def maskOfLanes (l : List Nat) : LaneMask := l.foldl (fun acc i => acc ||| ((1 : BitVec 32) <<< i)) 0

/-- The lanes of several parked entries. -/
def parkedLanes (ps : List Parked) : LaneMask := ps.foldl (fun acc p => acc ||| p.lanes) 0

/-- The accesses of a lane mask: its lanes, or one access for the group under U = 1 (R200). A gang without an active lane makes none under
U = 1 either, though its operation is counted (log 85, DESIGN CHOICE). -/
def accessLanes (u : Bool) (m : LaneMask) : List Nat := if u then (if m == 0 then [] else [0]) else laneList m

/-! ### Where one lane's access acts -/

/-- The bytes a lane accesses: a run of memory, or a deck offset. -/
inductive Spot where
  | glob (ps : List Part)
  | deck (off : Nat)
  deriving DecidableEq, Repr

/-- The bytes of a spot. -/
def readSpot (s : State) (n : Nat) : Spot → List Byte
  | .glob ps => readParts s ps
  | .deck off =>
    match curSpan s with
    | none => []
    | some sp => readDeck s sp off n

/-- Bytes written to the deck, a word wholly written being correctable again (R199) (log 64, DEDUCED). -/
def storeDeck (sp : Span) (off : Nat) (bs : List Byte) (s : State) : State :=
  let s := writeDeck sp off bs s
  let g0 := (off + 7) / 8
  let g1 := (off + bs.length) / 8
  { s with deckPoison := (upTo (g1 - g0)).foldl (fun acc i => cellSet 0 acc (deckByteKey sp (8 * (g0 + i)) / 8) 0) s.deckPoison }

/-- A word of the deck that a store of `n` bytes writes in part is uncorrectable: the merge reads it (R199). -/
def mergePoisoned (s : State) (sp : Span) (off n : Nat) : Bool :=
  (off % 8 != 0 && deckPoisoned s sp off (min n (8 - off % 8))) ||
  ((off + n) % 8 != 0 && deckPoisoned s sp (max off ((off + n) / 8 * 8)) ((off + n) - max off ((off + n) / 8 * 8)))

/-- A spot's memory is uncorrectable; the deck's errors are a kill of their own (R199). -/
def spotPoisoned (s : State) : Spot → Bool
  | .glob ps => partsPoisoned s ps
  | .deck _ => false

/-- A number for the cell at a spot: equal cells have equal numbers. -/
def spotKey : Spot → Nat
  | .deck off => off
  | .glob ps =>
    match ps with
    | [] => 0
    | p :: _ =>
      match p.at_ with
      | .mem key => key
      | .peer dev off => 2 ^ 60 + peerKey dev off
      | _ => 0

/-! ### What the lanes' accesses leave -/

/-- The state and the operation's results while lanes are performed. -/
structure Acc where
  s : State
  writes : List OpWrite
  flags : Flags
  /-- the first completion cause met -/
  cause : Option Cause
  /-- cells on which ATOM.bump has failed (R209) -/
  failed : List Nat
  /-- the operation's number, and the draw that says which granules of its accesses are performed late (R90) -/
  op : Nat
  split : Option Nat
  /-- an atomic's scope (R85) -/
  point : Option Nat

/-- An operation whose lanes begin to be performed. -/
def Acc.start (s : State) (op : Nat) (split point : Option Nat) : Acc := ⟨s, [], 0, none, [], op, split, point⟩

/-- A granule of an access is performed late: a free bit of its byte number (R90) (log 80, DESIGN CHOICE). -/
def isLate (split : Option Nat) (addr : Nat) : Bool :=
  match split with
  | none => false
  | some d => Sys2Proof.Config.freeBit (2 ^ 64 * d + addr / 8)

/-- A run of bytes cut at granules: the offset of each and its length. -/
def cutGranules (addr : Nat) : Nat → Nat → List (Nat × Nat)
  | _, 0 => []
  | n, fuel + 1 =>
    if n = 0 then []
    else
      let k := min n (8 - addr % 8)
      (addr, k) :: cutGranules (addr + k) (n - k) fuel

/-- The granules of a run of `n` bytes at an address. -/
def granulesOf (addr n : Nat) : List (Nat × Nat) := cutGranules addr n (n / 8 + 2)

/-- The owner of what an operation of the issuing group has still to perform. -/
def lateOwner (s : State) (op : Nat) : Option (Nat × Nat × Nat) := some (curSid s, curNum s, op)

/-- Bytes written granule by granule to a space, by an atomic of scope `point` where one is named: the late ones wait (R85, R90). -/
def putGranules (owner : Option (Nat × Nat × Nat)) (split point : Option Nat) (sp : Space) (key : Nat) (bs : List Byte) (s : State) : State :=
  (granulesOf key bs.length).foldl (fun acc g =>
    let part := (bs.drop (g.1 - key)).take g.2
    if isLate split g.1 then { acc with late := acc.late ++ [⟨owner, sp, g.1, part, point⟩] }
    else writeSpace sp g.1 part acc) s

/-- The granules of a run that `keep` names by their first byte, written to a memory. -/
def putKept (keep : Nat → Bool) (key : Nat) (bs : List Byte) (m : Memory) : Memory :=
  (granulesOf key bs.length).foldl (fun acc g =>
    if keep g.1 then cellSetRange emptyByte acc g.1 ((bs.drop (g.1 - key)).take g.2) else acc) m

/-- A part written by a lane: at once, or where it lies in a peer window when the owner answers (R90, R431). -/
def putPart (lane : Nat) (p : Part) (bs : List Byte) (a : Acc) : Acc :=
  match p.at_ with
  | .mem key =>
    match a.split with
    | none => { a with s := writeMem key bs a.s }
    | some _ => { a with s := putGranules (lateOwner a.s a.op) a.split a.point .mem key bs a.s }
  | .peer dev off =>
    match portOf a.s dev p.va with
    | none => a
    | some port => { a with writes := a.writes ++ [.peer lane port (peerKey dev off) bs] }
  | _ => a

/-- A run written by a lane, part by part (R91). -/
def putParts (lane : Nat) : List Part → List Byte → Acc → Acc
  | [], _, a => a
  | p :: rest, bs, a => putParts lane rest (bs.drop p.len) (putPart lane p (bs.take p.len) a)

/-- Bytes written to a spot by a lane. -/
def putSpot (lane : Nat) (sp : Spot) (bs : List Byte) (a : Acc) : Acc :=
  match sp with
  | .glob ps => putParts lane ps bs a
  | .deck off =>
    match curSpan a.s with
    | none => a
    | some span =>
      match a.split with
      | none => { a with s := storeDeck span off bs a.s }
      | some _ => { a with s := putGranules (lateOwner a.s a.op) a.split a.point .deck (deckByteKey span off) bs a.s }

/-- The granules of a run as a load reads them: some late (R90). -/
def runPieces (s : State) (split : Option Nat) (sp : Space) (key n : Nat) : List LoadPiece :=
  (granulesOf key n).map fun g => if isLate split g.1 then .late sp g.1 g.2 else .got (readSpace s sp g.1 g.2)

/-- The granules of a part as a load reads them. -/
def partPieces (s : State) (split : Option Nat) (p : Part) : List LoadPiece :=
  match p.at_ with
  | .mem key => runPieces s split .mem key p.len
  | .peer dev off => runPieces s split .peer (peerKey dev off) p.len
  | _ => []

/-- The granules of a spot as a load reads them. -/
def spotPieces (s : State) (split : Option Nat) (n : Nat) : Spot → List LoadPiece
  | .glob ps => (ps.map (partPieces s split)).flatten
  | .deck off =>
    match curSpan s with
    | none => []
    | some sp => runPieces s split .deck (deckByteKey sp off) n

/-- The late writes of the atomics that the issuer shares a point with, on the lines of a spot, are performed before it is written (R85). -/
def settleSpot (n : Nat) (sp : Spot) (s : State) : State :=
  match sp with
  | .glob ps => ps.foldl (fun acc p =>
      match p.at_ with
      | .mem key => settlePoint (some (curPier s)) .mem key p.len acc
      | _ => acc) s
  | .deck off =>
    match curSpan s with
    | none => s
    | some span => settlePoint (some (curPier s)) .deck (deckByteKey span off) n s

/-- The address that names a spot's first byte. -/
def spotAddr : Spot → Nat
  | .deck off => off
  | .glob ps => ((ps.head?).map (·.va)).getD 0

/-- The issuing group's late writes on the lines of some parts are performed before it reads them (R87). -/
def settleRead (ps : List Part) (s : State) : State :=
  ps.foldl (fun acc p =>
    match p.at_ with
    | .mem key => settleWrites (fun w => lateOf (curSid s) (curNum s) w && lateIn .mem key p.len w) acc
    | _ => acc) s

/-- A draw for the late granules of an instruction, where some access of it may be late and a group issues it (R85, R88, R90). -/
def drawSplit (wide : Bool) (s : State) : Option Nat × State :=
  match s.issuer with
  | .gang _ _ _ =>
    if wide then
      let (d, s) := draw s
      (some d, s)
    else (none, s)
  | _ => (none, s)

/-- A completion cause met; the first stays. -/
def noteCause (c : Cause) (a : Acc) : Acc := if a.cause.isSome then a else { a with cause := some c }

/-- Register `j` past rd in a lane, or past the group register. -/
def regWrite (rd : Loc) (lane j : Nat) (v : Word) : OpWrite :=
  match rd with
  | .lane r => .lane (r + j) lane v
  | .grp r => .group (r + j) v

/-- Words for the registers from rd on. -/
def regWrites (rd : Loc) (lane : Nat) : Nat → List Word → List OpWrite
  | _, [] => []
  | j, v :: rest => regWrite rd lane j v :: regWrites rd lane (j + 1) rest

/-- `n` unspecified register values (log 68, DESIGN CHOICE). -/
def freeWrites (rd : Loc) (lane : Nat) : Nat → State → List OpWrite × State
  | 0, s => ([], s)
  | n + 1, s =>
    let (w, s) := freeWrites rd lane n s
    let (d, s) := draw s
    (w ++ [regWrite rd lane n (Sys2Proof.Config.freeWord d)], s)

/-- One lane's access. -/
abbrev Perform := Acc → Nat → Spot → Acc

/-- The ports an access's parts wait for (R432). -/
def partPorts (s : State) (ps : List Part) : List (Option Nat) := ps.filterMap (partPort s)

/-- A lane's ports. -/
def lanePorts (s : State) (lane : Nat) (ps : List Part) : List (Nat × Option Nat) := (partPorts s ps).map fun p => (lane, p)

/-- The issuing group's operation given what its lanes did (log 73, DEDUCED). -/
def addToOp (id : Nat) (a : Acc) (ports : List (Nat × Option Nat)) (remote : Bool) (ready : Bool) : State :=
  modCur a.s fun g => modOp id (fun o =>
    { o with
      writes := o.writes ++ a.writes
      flags := o.flags ||| a.flags
      cause := if o.cause.isSome then o.cause
        else if a.cause.isSome then a.cause
        else if ports.any fun p => p.2.isNone then some (causeOf 3 30)
        else none
      ready := ready
      ports := o.ports ++ ports.filterMap (fun p => p.2.map fun k => (p.1, k))
      remoteLoad := o.remoteLoad || (remote && !ports.isEmpty) }) g

/-- A parked instruction traps or is cut short: its operation completes with what was performed, and the instruction, once it is executed
again, issues afresh for all its lanes (log 81, DESIGN CHOICE). -/
def dropParked (s : State) : State :=
  match (myParked s).head?.bind (·.op) with
  | none => setMyParked [] s
  | some id => setMyParked [] (modCur s (modOp id fun o => { o with ready := true }))

/-- A counted instruction under U = 1 whose q guard is false only goes on (R65); one that has parked, or waits, read its guard at issue (R204)
(log 69, DEDUCED). -/
def guardedOp (e : Enc) (body : State → State) (s : State) : State :=
  if e.u && (myParked s).isEmpty && (waitOf (curGroup s) (issuerSlice s)).isNone && !qGuard e s then advance (wordLen e) s else body s

/-- A fault s:r of a memory instruction. -/
def memFault (src reason : Nat) (lanes : LaneMask) (s : State) : State := faultWith src reason lanes (dropParked s)

/-! ### Deck accesses (R198, R199, R201, R202) -/

/-- The deck access of every lane, once bounds and alignment are checked; reading an uncorrectable word kills the span. `reads`: the access
reads the words it touches. -/
def deckIssue (cls : OpClass) (size : Nat) (reads : Bool) (e : Enc) (perf : Perform) : State → State := guardedOp e fun s =>
  let g := curGroup s
  let lanes := actLanes e s
  if counter g cls = 63 then s
  else
    match curSpan s with
    | none => s
    | some sp =>
      let offs := (accessLanes e.u lanes).map fun l => (l, ((readLoc g l (raLoc e)).toNat : Int) + immMem e * size)
      if offs.any fun p => decide (p.2 < 0) || decide ((deckSize sp : Int) < p.2 + size) then memFault 2 5 lanes s
      else if offs.any fun p => p.2 % size != 0 then memFault 2 4 lanes s
      else if offs.any fun p => if reads then deckPoisoned s sp p.2.toNat size else mergePoisoned s sp p.2.toNat size then
        killPoisoned (curSid s) s
      else
        let id := g.opCount
        let (split, s) := drawSplit (decide (8 < size) && !offs.isEmpty) (modCur s (issueOp cls .lsu lanes))
        let a := offs.foldl (fun a p => perf a p.1 (.deck p.2.toNat)) (Acc.start s id split (if memDeck e then some 1 else none))
        advance (wordLen e) (addToOp id a [] false true)

/-! ### Global accesses (R201 to R204) -/

/-- A global address of a lane (R201). -/
def globalAddr (g : Group) (e : Enc) (size lane : Nat) : Nat :=
  ((readLocs g lane 2 (raLoc e) + immMem e * size) % (2 ^ 64 : Nat)).toNat

/-- An access of one lane with what it meets. -/
abbrev LaneRun := Nat × List Part

/-- A part that stops a lane recorded as a parked entry, its fault recorded at `place`: `left` the parts that wait with it, where others of
its lane do not, and the operands at issue (R204, R276). -/
def parkEntry (slice : Option Nat) (u : Bool) (all : LaneMask) (op : Option Nat) (parted : Bool) (operands : Operands)
    (lane : Nat) (place : Nat × Nat) (p : Part) : Parked where
  slice := slice
  lanes := if u then all else (1 : BitVec 32) <<< lane
  op := op
  cause := parkCause p
  ctx := place.1
  page := place.2 / 4096
  lock := parkLock p
  retry := false
  cancel := false
  left := if parted then some [p.va] else none
  operands := some operands

/-- The parked entries of a lane's run: one for each page that stops it, or for each part where the parts are separate accesses (R91). -/
def parkEntries (s : State) (u : Bool) (all : LaneMask) (op : Option Nat) (parted : Bool) (operands : Operands) (r : LaneRun) :
    List Parked :=
  ((r.2.filter partParks).map fun p =>
    parkEntry (issuerSlice s) u all op parted operands r.1 (faultPlace s (curCtx s) p.va) p).eraseDups

/-- The faults of parked lanes posted in ascending lane order. -/
def postRuns (ctx pier : Nat) (runs : List LaneRun) (s : State) : State :=
  runs.foldl (fun acc r => (r.2.filter partParks).foldl (fun acc p => postPart ctx pier p acc) acc) s

/-- The TLB notes of performed parts, and the flits of those that go to a peer. -/
def noteRuns (pier ctx : Nat) (runs : List LaneRun) (s : State) : State :=
  runs.foldl (fun acc r => r.2.foldl (fun acc p => sendPart p (noteAccess (some pier) ctx p.va acc)) acc) s

/-- A lane run that passes every check. -/
def runPasses (r : LaneRun) : Bool := (firstPark r.2).isNone

/-- A part is performed now. -/
def partActs (p : Part) : Bool := !partParks p && p.at_ != .done

/-- A retried lane's parts: where its parts are separate accesses, those that do not retry are not performed now (R91). -/
def remaining (mine : List Parked) (u : Bool) (r : LaneRun) : LaneRun :=
  match (mine.filter fun p => p.retry && (u || p.lanes.getLsbD r.1)).filterMap (·.left) with
  | [] => r
  | l => (r.1, r.2.map fun p => if l.flatten.contains p.va then p else { p with at_ := .done })

/-- An access of several granules. -/
def runWide (r : LaneRun) : Bool := decide (8 < spotAddr (.glob r.2) % 8 + (r.2.map (·.len)).sum)

/-- Some part that acts now wants an access of a kind. -/
def actsWith (need : Need) (runs : List LaneRun) : Bool := runs.any fun r => r.2.any fun p => partActs p && p.need == need

/-- Some access of an operation may be performed late: it has several granules, it is a plain store, which its group need not observe, or an
atomic whose point is not the memory side (R85, R88, R90) (log 80, DESIGN CHOICE). -/
def mayBeLate (cls : OpClass) (kind : OpKind) (scope : Nat) (runs : List LaneRun) : Bool :=
  (kind == .lsu || cls == .st) &&
  (runs.any runWide || (kind == .lsu && (actsWith .store runs || (decide (scope < 3) && actsWith .atomic runs))))

/-- The parked entries that stay: those whose fault is not yet serviced, of lanes that are not performed again whole. -/
def stillParked (parted : Bool) (lanes : LaneMask) (mine : List Parked) : List Parked :=
  mine.filter fun p => !p.retry && (parted || p.lanes &&& lanes == 0)

/-- The accesses that pass are performed and the others park; the instruction goes on when none is left (R203, R204). The parts of a plain
store are separate accesses, and those that pass are performed though others of their lane park (R91, R202) (log 78, DEDUCED). -/
def globalPerform (cls : OpClass) (kind : OpKind) (e : Enc) (perf : Perform) (lanes : LaneMask) (runs : List LaneRun)
    (s : State) : State :=
  let pier := curPier s
  let ctx := curCtx s
  let mine := myParked s
  let fresh := mine.isEmpty
  let operands := operandsOf (issueGroup s)
  let id := if fresh then (curGroup s).opCount else ((mine.head?.bind (·.op)).getD 0)
  let s := if fresh then modCur s (issueOp cls kind lanes) else s
  let parted := cls == .st && kind == .lsu
  let stuck := runs.filter fun r => !runPasses r
  let acting := if parted then runs else runs.filter runPasses
  let s := noteRuns pier ctx (acting.map fun r => (r.1, r.2.filter partActs)) s
  let ports := (acting.map fun r => lanePorts s r.1 r.2).flatten
  let (split, s) := drawSplit (mayBeLate cls kind (memScope e) acting) s
  let point := if actsWith .atomic acting then some (memScope e) else none
  let a := acting.foldl (fun a r => perf a r.1 (.glob r.2)) (Acc.start s id split point)
  let left := stillParked parted lanes mine ++ (stuck.map (parkEntries s e.u lanes (some id) parted operands)).flatten
  let done := left.isEmpty
  let s := addToOp id a ports (cls != .st) done
  let s := setMyParked left s
  let s := postRuns ctx pier stuck s
  if done then advance (wordLen e) s else s

/-- The lanes active at the issue of the parked instruction, after its guard (R220). -/
def parkedAtIssue (s : State) (mine : List Parked) : LaneMask :=
  (((mine.head?.bind (·.op)).bind (findOp (curGroup s))).map (·.lanes)).getD (parkedLanes mine)

/-- What an instruction checks before any translation: the source and reason of a fault. -/
abbrev PreCheck := Group → List Nat → Option (Nat × Nat)

/-- A global memory instruction: a first issue, or the retry of parked lanes. `plan` gives the parts a lane accesses. -/
def globalIssue (cls : OpClass) (kind : OpKind) (pre : PreCheck) (plan : Group → Nat → List Part) (e : Enc) (perf : Perform) :
    State → State := guardedOp e fun s =>
  let g := issueGroup s
  let mine := myParked s
  match mine.find? (·.cancel) with
  | some p => memFault (p.cause.toNat / 32) (p.cause.toNat % 32) (parkedAtIssue s mine) s
  | none =>
    let fresh := mine.isEmpty
    let lanes := if fresh then actLanes e s else parkedLanes (mine.filter (·.retry))
    let all := if fresh then lanes else parkedAtIssue s mine
    if fresh && counter g cls = 63 then s
    else if !fresh && lanes == 0 then s
    else
      let ls := accessLanes e.u lanes
      match pre g ls with
      | some (src, reason) => memFault src reason all s
      | none =>
        let runs : List LaneRun := ls.map fun l => remaining mine e.u (l, plan g l)
        match firstFault (curReplay s) ((runs.map (·.2)).flatten) with
        | some r => memFault 3 r all s
        | none =>
          if ((runs.map (·.2)).flatten).any (peerBusy s) then s
          else globalPerform cls kind e perf lanes runs s

/-- An operation that one engine entry performs for all lanes: while some lane's part parks, nothing is posted and the whole instruction is
issued again once a lane may retry (R204, R341, R415). -/
def wholeIssue (lanes : LaneMask) (u : Bool) (runs : State → List LaneRun) (post : State → State) (s : State) : State :=
  let mine := myParked s
  match mine.find? (·.cancel) with
  | some p => memFault (p.cause.toNat / 32) (p.cause.toNat % 32) lanes s
  | none =>
    if !mine.isEmpty && mine.all fun p => !p.retry then s
    else
      let s := setMyParked [] s
      let rs := runs s
      match firstFault (curReplay s) ((rs.map (·.2)).flatten) with
      | some r => faultWith 3 r lanes s
      | none =>
        let stuck := rs.filter fun r => !runPasses r
        if stuck.isEmpty then post (noteRuns (curPier s) (curCtx s) rs s)
        else
          let s := setMyParked (stuck.map (parkEntries s u lanes none false (operandsOf (curGroup s)))).flatten s
          postRuns (curCtx s) (curPier s) stuck s

/-- The parts of one run of the issuing group's launch. -/
def curRun (s : State) (need : Need) (va n : Nat) : List Part := reachRun s (some (curPier s)) (curCtx s) need va n

/-- An access of `size` bytes at the address of R201 in each lane; `natural`: the address must be aligned (R202). -/
def plainIssue (cls : OpClass) (kind : OpKind) (need : Need) (size : Nat) (natural : Bool) (scale : Nat) (e : Enc) (perf : Perform)
    (s : State) : State :=
  globalIssue cls kind
    (fun g ls => if natural && ls.any fun l => globalAddr g e scale l % size != 0 then some (3, 4) else none)
    (fun g l => curRun s need (globalAddr g e scale l) size) e perf s

/-! ### Loads, stores and read-modify-writes -/

/-- A load of `size` bytes into `k` registers, sign-extended where `signed`. Uncorrectable data leave them unspecified (R204). -/
def loadLane (size k : Nat) (rd : Loc) (signed : Bool) : Perform := fun a lane sp =>
  if spotPoisoned a.s sp then
    let (w, s) := freeWrites rd lane k a.s
    { noteCause (causeOf 3 25) a with s := s, writes := a.writes ++ w }
  else
    match a.split with
    | none => { a with writes := a.writes ++ regWrites rd lane 0 (loadWords signed size k (bytesToNat (readSpot a.s size sp))) }
    | some _ =>
      let grp := match rd with
        | .grp _ => true
        | .lane _ => false
      { a with writes := a.writes ++ [.load grp (locNum rd) lane k signed size (spotPieces a.s a.split size sp)] }

/-- A store of the low `size` bytes of a lane's registers. -/
def storeLane (size : Nat) (data : Nat → Nat) : Perform := fun a lane sp =>
  putSpot lane sp (natToBytes size (data lane)) { a with s := settleSpot size sp a.s }

/-- What an atomic does with the old value of its `size` bytes in a lane: the new value, the results from rd on, flags. -/
abbrev Rmw := Nat → Nat → Nat × List Word × Flags

/-- What a lane's access finds: in a peer window, what the earlier lanes of its instruction will have written there (R91) (log 18, DESIGN CHOICE). -/
def seenBy (a : Acc) (sp : Spot) : State :=
  match sp with
  | .glob ({ at_ := .peer _ _, .. } :: _) => { a.s with peer := a.writes.foldl (fun m w => applyPeer w m) a.s.peer }
  | _ => a.s

/-- One atomic lane: it reads what the atomics before it that share its point have left; one that leaves the old value stores nothing
(R85, R208). -/
def atomLane (size k : Nat) (rd : Loc) (f : Rmw) : Perform := fun a lane sp =>
  let a := { a with s := settleSpot size sp a.s }
  if spotPoisoned a.s sp then
    let (w, s) := freeWrites rd lane k a.s
    { noteCause (causeOf 3 25) a with s := s, writes := a.writes ++ w }
  else
    let old := bytesToNat (readSpot (seenBy a sp) size sp)
    let (new, res, fl) := f lane old
    let a := if new = old then a else putSpot lane sp (natToBytes size new) a
    { a with
      writes := a.writes ++ regWrites rd lane 0 res
      flags := a.flags ||| fl }

/-- A release at span or grp scope recorded for each line of some parts (R96). -/
def recordLines (pier : Nat) (release : Bool) (ps : List Part) (s : State) : State :=
  if release then (partLines ps).foldl (fun acc l => recordRelease pier l acc) s else s

/-- A performed release of an instruction recorded for the parts it writes. -/
def recordParts (e : Enc) (ps : List Part) (a : Acc) : Acc :=
  { a with s := recordLines (curPier a.s) ((memOrder e == 2 || memOrder e == 3) && decide (memScope e ≤ 1)) ps a.s }

/-- A lane's access that is a release where its order says so (R96). -/
def recorded (e : Enc) (perf : Perform) : Perform := fun a lane sp =>
  let a := perf a lane sp
  match sp with
  | .deck _ => a
  | .glob ps => recordParts e ps a

end Sys2Proof.Machine
end

