-- ==== Sys2Proof/Machine/Float.lean ====
section
/-!
DEFINITION. Number formats and exact arithmetic (R32 to R45, R50 to R56).

A finite value is kept exactly, as a sign, a natural significand and a power of two; one rounding function per kind of destination
narrows it at the end and says which flags that sets.
-/

namespace Sys2Proof.Machine

/-! ### Exact values -/

/-- A floating-point value read exactly (R32): a finite one is (−1)^neg · m · 2^e. -/
inductive Num where
  | nan (signalling : Bool)
  | inf (neg : Bool)
  | fin (neg : Bool) (m : Nat) (e : Int)
  deriving DecidableEq, Repr

/-- An IEEE binary format (R32). -/
structure FloatFormat where
  expBits : Nat
  fracBits : Nat
  deriving DecidableEq, Repr

/-- FP16 (R32). -/
def fp16 : FloatFormat := ⟨5, 10⟩
/-- BF16 (R32). -/
def bf16 : FloatFormat := ⟨8, 7⟩
/-- FP32 (R32). -/
def fp32 : FloatFormat := ⟨8, 23⟩
/-- FP64 (R32). -/
def fp64 : FloatFormat := ⟨11, 52⟩

/-- The format's exponent bias (R32). -/
def fmtBias (f : FloatFormat) : Nat := 2 ^ (f.expBits - 1) - 1
/-- The weight exponent of the least subnormal (R32). -/
def fmtMinLsb (f : FloatFormat) : Int := 1 - (fmtBias f : Int) - f.fracBits
/-- The pattern of +∞. -/
def fmtInf (f : FloatFormat) : Nat := (2 ^ f.expBits - 1) * 2 ^ f.fracBits
/-- The pattern of the sign bit. -/
def fmtSign (f : FloatFormat) (neg : Bool) : Nat := if neg then 2 ^ (f.expBits + f.fracBits) else 0
/-- The canonical NaN (R32, R34). -/
def fmtNaN (f : FloatFormat) : Nat := fmtInf f + 2 ^ (f.fracBits - 1)

/-- The value of a pattern (R32). -/
def floatValue (f : FloatFormat) (x : Nat) : Num :=
  let neg := x / 2 ^ (f.expBits + f.fracBits) % 2 = 1
  let ex := x / 2 ^ f.fracBits % 2 ^ f.expBits
  let fr := x % 2 ^ f.fracBits
  if ex = 2 ^ f.expBits - 1 then
    if fr = 0 then .inf neg else .nan (fr < 2 ^ (f.fracBits - 1))
  else if ex = 0 then .fin neg fr (fmtMinLsb f)
  else .fin neg (2 ^ f.fracBits + fr) (fmtMinLsb f + (ex - 1 : Nat))

/-- A signalling NaN. -/
def numIsSNaN : Num → Bool
  | .nan s => s
  | _ => false

/-- A NaN. -/
def numIsNaN : Num → Bool
  | .nan _ => true
  | _ => false

/-- The value of opposite sign. -/
def numNeg : Num → Num
  | .nan s => .nan s
  | .inf n => .inf (!n)
  | .fin n m e => .fin (!n) m e

/-- INV where some operand is a signalling NaN (R34, R35). -/
def snanFlags (l : List Num) : Flags := flagIf (l.any numIsSNaN) flagINV

/-- A significand as a signed integer at a lower exponent `e0 ≤ e`. -/
def scaledInt (neg : Bool) (m : Nat) (e e0 : Int) : Int :=
  let v : Nat := m * 2 ^ (e - e0).toNat
  if neg then -(v : Int) else v

/-! ### Rounding -/

/-- A dropped part relative to half a unit of the last place kept. -/
inductive Remainder where
  | zero | below | half | above
  deriving DecidableEq, Repr

/-- What is dropped when the low `k` bits of `m` go. -/
def remainderOf (m k : Nat) : Remainder :=
  let r := m % 2 ^ k
  if r = 0 then .zero
  else if 2 * r < 2 ^ k then .below
  else if 2 * r = 2 ^ k then .half
  else .above

/-- Whether a magnitude `q` with dropped part `r` rounds up in magnitude (R33). -/
def roundsUp (mode : RoundMode) (neg : Bool) (q : Nat) (r : Remainder) : Bool :=
  match r with
  | .zero => false
  | .below => (mode == .rup && !neg) || (mode == .rdn && neg)
  | .half => (mode == .rup && !neg) || (mode == .rdn && neg) || mode == .rna || (mode == .rne && q % 2 == 1)
  | .above => (mode == .rup && !neg) || (mode == .rdn && neg) || mode == .rna || mode == .rne

/-- `m` without its low `k` bits, rounded; and whether anything was dropped. -/
def roundShift (mode : RoundMode) (neg : Bool) (m k : Nat) : Nat × Bool :=
  let q := m / 2 ^ k
  let r := remainderOf m k
  (if roundsUp mode neg q r then q + 1 else q, r != .zero)

/-- Rounds the nonzero finite value (−1)^neg · m · 2^e into a format: the pattern and its flags OVF, UNF, INX (R33, R35). -/
def roundFinite (f : FloatFormat) (mode : RoundMode) (neg : Bool) (m : Nat) (e : Int) : Nat × Flags :=
  let top : Int := e + Nat.log2 m
  let unbounded : Int := top - f.fracBits
  let lsb : Int := max unbounded (fmtMinLsb f)
  let place (l : Int) : Nat × Bool :=
    if l ≤ e then (m * 2 ^ (e - l).toNat, false) else roundShift mode neg m (l - e).toNat
  let (sig, inexact) := place lsb
  let bits := (lsb - fmtMinLsb f).toNat * 2 ^ f.fracBits + sig
  if fmtInf f ≤ bits then
    let toInf := mode == .rne || mode == .rna || (mode == .rup && !neg) || (mode == .rdn && neg)
    (fmtSign f neg + (if toInf then fmtInf f else fmtInf f - 1), flagOVF ||| flagINX)
  else
    let tiny := unbounded < fmtMinLsb f &&
      !((place unbounded).1 == 2 ^ (f.fracBits + 1) && unbounded + 1 == fmtMinLsb f)
    (fmtSign f neg + bits, flagIf inexact flagINX ||| flagIf (inexact && tiny) flagUNF)

/-- Rounds a value into a format; a NaN becomes the canonical NaN with no flag of its own (R34). -/
def roundNum (f : FloatFormat) (mode : RoundMode) : Num → Nat × Flags
  | .nan _ => (fmtNaN f, noFlags)
  | .inf neg => (fmtSign f neg + fmtInf f, noFlags)
  | .fin neg m e => if m = 0 then (fmtSign f neg, noFlags) else roundFinite f mode neg m e

/-! ### Exact sums and products, and the results NaN with INV (R34, R35, R158, R159) -/

/-- The sum of two values; an exact zero sum is +0, or −0 when rounding down, and two zeros of one sign keep it (R158). -/
def numAdd (mode : RoundMode) (a b : Num) : Num × Flags :=
  match a, b with
  | .nan _, _ => (.nan false, snanFlags [a, b])
  | _, .nan _ => (.nan false, snanFlags [a, b])
  | .inf x, .inf y => if x = y then (.inf x, noFlags) else (.nan false, flagINV)
  | .inf x, _ => (.inf x, noFlags)
  | _, .inf y => (.inf y, noFlags)
  | .fin na ma ea, .fin nb mb eb =>
    if ma = 0 && mb = 0 then (.fin (if na = nb then na else mode == .rdn) 0 0, noFlags)
    else
      let e0 := min ea eb
      let v := scaledInt na ma ea e0 + scaledInt nb mb eb e0
      if v = 0 then (.fin (mode == .rdn) 0 0, noFlags)
      else (.fin (v < 0) v.natAbs e0, noFlags)

/-- The product of two values; 0·∞ is invalid. -/
def numMul (a b : Num) : Num × Flags :=
  match a, b with
  | .nan _, _ => (.nan false, snanFlags [a, b])
  | _, .nan _ => (.nan false, snanFlags [a, b])
  | .inf x, .inf y => (.inf (x != y), noFlags)
  | .inf x, .fin n m _ => if m = 0 then (.nan false, flagINV) else (.inf (x != n), noFlags)
  | .fin n m _, .inf y => if m = 0 then (.nan false, flagINV) else (.inf (n != y), noFlags)
  | .fin na ma ea, .fin nb mb eb => (.fin (na != nb) (ma * mb) (ea + eb), noFlags)

/-- a + b in a format (R158). -/
def floatAdd (f : FloatFormat) (mode : RoundMode) (x y : Nat) : Nat × Flags :=
  let (v, fl) := numAdd mode (floatValue f x) (floatValue f y)
  let (r, fl') := roundNum f mode v
  (r, fl ||| fl')

/-- a − b in a format (R158). -/
def floatSub (f : FloatFormat) (mode : RoundMode) (x y : Nat) : Nat × Flags :=
  let (v, fl) := numAdd mode (floatValue f x) (numNeg (floatValue f y))
  let (r, fl') := roundNum f mode v
  (r, fl ||| fl')

/-- a · b in a format (R158). -/
def floatMul (f : FloatFormat) (mode : RoundMode) (x y : Nat) : Nat × Flags :=
  let (v, fl) := numMul (floatValue f x) (floatValue f y)
  let (r, fl') := roundNum f mode v
  (r, fl ||| fl')

/-- a · b + c rounded once; 0·∞ is invalid even beside a quiet NaN (R159). -/
def floatFma (f : FloatFormat) (mode : RoundMode) (x y z : Nat) : Nat × Flags :=
  let c := floatValue f z
  let (p, fl) := numMul (floatValue f x) (floatValue f y)
  let (v, fl2) := numAdd mode p c
  let (r, fl3) := roundNum f mode v
  (r, fl ||| fl2 ||| fl3)

/-- Whether a ≤ b for two numbers that are no NaN, −0 below +0 (R36). -/
def numLeTotal (a b : Num) : Bool :=
  match a, b with
  | .inf x, .inf y => x || !y
  | .inf x, _ => x
  | _, .inf y => !y
  | .fin na ma ea, .fin nb mb eb =>
    let e0 := min ea eb
    let va := scaledInt na ma ea e0
    let vb := scaledInt nb mb eb e0
    if va = vb then na || !nb else va < vb
  | _, _ => false

/-- minimumNumber (R36). -/
def floatMin (f : FloatFormat) (x y : Nat) : Nat × Flags :=
  let a := floatValue f x
  let b := floatValue f y
  let fl := snanFlags [a, b]
  if numIsNaN a && numIsNaN b then (fmtNaN f, fl)
  else if numIsNaN a then (y, fl)
  else if numIsNaN b then (x, fl)
  else if numLeTotal a b then (x, fl) else (y, fl)

/-- maximumNumber (R36). -/
def floatMax (f : FloatFormat) (x y : Nat) : Nat × Flags :=
  let a := floatValue f x
  let b := floatValue f y
  let fl := snanFlags [a, b]
  if numIsNaN a && numIsNaN b then (fmtNaN f, fl)
  else if numIsNaN a then (y, fl)
  else if numIsNaN b then (x, fl)
  else if numLeTotal a b then (y, fl) else (x, fl)

/-- How two values compare: `none` where one is a NaN. −0 equals +0 (R160). -/
def numCompare (a b : Num) : Option Ordering :=
  match a, b with
  | .nan _, _ => none
  | _, .nan _ => none
  | .inf x, .inf y => some (if x = y then .eq else if x then .lt else .gt)
  | .inf x, _ => some (if x then .lt else .gt)
  | _, .inf y => some (if y then .gt else .lt)
  | .fin na ma ea, .fin nb mb eb =>
    let e0 := min ea eb
    let va := scaledInt na ma ea e0
    let vb := scaledInt nb mb eb e0
    some (if va < vb then .lt else if va = vb then .eq else .gt)

/-- The result of a floating compare under a condition code 0 to 7 (R69, R160). -/
def floatCompare (f : FloatFormat) (cond : Nat) (x y : Nat) : Bool × Flags :=
  let a := floatValue f x
  let b := floatValue f y
  let res :=
    match numCompare a b with
    | none => cond == 1 || cond == 6
    | some o =>
      match cond with
      | 0 => o == .eq
      | 1 => o != .eq
      | 2 => o == .lt
      | 3 => o != .gt
      | 4 => o == .gt
      | 5 => o != .lt
      | 6 => false
      | _ => true
  (res, snanFlags [a, b])

/-- FABS (R161). -/
def floatAbs (f : FloatFormat) (x : Nat) : Nat × Flags :=
  let a := floatValue f x
  if numIsNaN a then (fmtNaN f, snanFlags [a]) else (x % 2 ^ (f.expBits + f.fracBits), noFlags)

/-- FNEG (R161). -/
def floatNeg (f : FloatFormat) (x : Nat) : Nat × Flags :=
  let a := floatValue f x
  if numIsNaN a then (fmtNaN f, snanFlags [a])
  else ((x + 2 ^ (f.expBits + f.fracBits)) % 2 ^ (f.expBits + f.fracBits + 1), noFlags)

/-! ### Division and the functions of R162

A quotient or root is kept with many more bits than any destination has and one more bit, set, below them when it is not exact:
every rounding mode then rounds it as it rounds the exact value. -/

/-- A significand with a sticky bit below it. -/
def withSticky (m : Nat) (exact : Bool) : Nat := 2 * m + (if exact then 0 else 1)

/-- The exact quotient of two finite nonzero values, with a sticky bit. -/
def quotient (na : Bool) (ma : Nat) (ea : Int) (nb : Bool) (mb : Nat) (eb : Int) : Num :=
  let k : Nat := 128
  let q := ma * 2 ^ k / mb
  .fin (na != nb) (withSticky q (q * mb == ma * 2 ^ k)) (ea - eb - k - 1)

/-- a / b (R162). -/
def floatDiv (f : FloatFormat) (mode : RoundMode) (x y : Nat) : Nat × Flags :=
  let a := floatValue f x
  let b := floatValue f y
  match a, b with
  | .nan _, _ => (fmtNaN f, snanFlags [a, b])
  | _, .nan _ => (fmtNaN f, snanFlags [a, b])
  | .inf _, .inf _ => (fmtNaN f, flagINV)
  | .inf na, .fin nb _ _ => (fmtSign f (na != nb) + fmtInf f, noFlags)
  | .fin na _ _, .inf nb => (fmtSign f (na != nb), noFlags)
  | .fin na ma ea, .fin nb mb eb =>
    if mb = 0 then
      if ma = 0 then (fmtNaN f, flagINV) else (fmtSign f (na != nb) + fmtInf f, flagDZ)
    else if ma = 0 then (fmtSign f (na != nb), noFlags)
    else roundNum f mode (quotient na ma ea nb mb eb)

/-- The bits of the integer square root of `x`, from bit `i − 1` down, added to `r`. -/
def isqrtFrom : Nat → Nat → Nat → Nat
  | 0, _, r => r
  | i + 1, x, r => isqrtFrom i x (if (r + 2 ^ i) * (r + 2 ^ i) ≤ x then r + 2 ^ i else r)

/-- floor(√x). -/
def isqrt (x : Nat) : Nat := isqrtFrom (Nat.log2 x / 2 + 1) x 0

/-- √ of a positive finite value, with a sticky bit. -/
def rootOf (m : Nat) (e : Int) : Num :=
  let odd := e % 2 = 1
  let m2 := (if odd then 2 * m else m) * 2 ^ 128
  let e2 := (if odd then e - 1 else e) - 128
  let r := isqrt m2
  .fin false (withSticky r (r * r == m2)) (e2 / 2 - 1)

/-- 1/√ of a positive finite value, with a sticky bit. -/
def recipRootOf (m : Nat) (e : Int) : Num :=
  let odd := e % 2 = 1
  let m2 := if odd then 2 * m else m
  let e2 := if odd then e - 1 else e
  let k : Nat := 256
  let r := isqrt (2 ^ (2 * k) / m2)
  .fin false (withSticky r (r * r * m2 == 2 ^ (2 * k))) (-(e2 / 2) - k - 1)

/-- FRCP (R162). -/
def floatRcp (f : FloatFormat) (mode : RoundMode) (x : Nat) : Nat × Flags :=
  match floatValue f x with
  | .nan s => (fmtNaN f, flagIf s flagINV)
  | .inf n => (fmtSign f n, noFlags)
  | .fin n m e =>
    if m = 0 then (fmtSign f n + fmtInf f, flagDZ) else roundNum f mode (quotient false 1 0 n m e)

/-- FSQRT (R162). -/
def floatSqrt (f : FloatFormat) (mode : RoundMode) (x : Nat) : Nat × Flags :=
  match floatValue f x with
  | .nan s => (fmtNaN f, flagIf s flagINV)
  | .inf n => if n then (fmtNaN f, flagINV) else (fmtInf f, noFlags)
  | .fin n m e =>
    if m = 0 then (fmtSign f n, noFlags)
    else if n then (fmtNaN f, flagINV)
    else roundNum f mode (rootOf m e)

/-- FRSQ (R162). -/
def floatRsqrt (f : FloatFormat) (mode : RoundMode) (x : Nat) : Nat × Flags :=
  match floatValue f x with
  | .nan s => (fmtNaN f, flagIf s flagINV)
  | .inf n => if n then (fmtNaN f, flagINV) else (0, noFlags)
  | .fin n m e =>
    if m = 0 then (fmtSign f n + fmtInf f, flagDZ)
    else if n then (fmtNaN f, flagINV)
    else roundNum f mode (recipRootOf m e)

/-! #### 2^a, log2 a, sin πa, cos πa

The exact value is irrational but for the arguments taken apart below. DESIGN CHOICE (log 7): it is computed with 256 fraction
bits and rounded once with the sticky bit set; the rounding is the exact value's unless that value lies within about 2^-240 of a
boundary, which no FP32 argument is known to reach. -/

/-- Fraction bits of the fixed-point work (log 7, DESIGN CHOICE). -/
def fixBits : Nat := 256

/-- Σ over the terms t, t·x/(c+1), … of a power series, `n` terms, in fixed point: each term is the last times `x` over a counter. -/
def expTerms : Nat → Nat → Nat → Nat → Nat → Nat
  | 0, _, _, _, acc => acc
  | n + 1, x, c, t, acc =>
    let t' := t * x / 2 ^ fixBits / c
    expTerms n x (c + 1) t' (acc + t')

/-- Σ 1 / ((2i+1) · 9^i), i from `i`, `n` terms, in fixed point. -/
def ln2Terms : Nat → Nat → Nat → Nat → Nat
  | 0, _, _, acc => acc
  | n + 1, i, p, acc => ln2Terms n (i + 1) (p / 9) (acc + p / (2 * i + 1))

/-- ln 2 = (2/3) · Σ 1/((2i+1)·9^i), in fixed point. -/
def ln2Fix : Nat := ln2Terms 90 0 (2 ^ (fixBits + 1) / 3) 0

/-- arctan(1/k) · `s` in fixed point by its alternating series, kept as the sums of its positive and negative terms. -/
def atanTerms : Nat → Nat → Nat → Nat → Nat → Nat → Nat
  | 0, _, _, _, pos, neg => pos - neg
  | n + 1, k, i, p, pos, neg =>
    let t := p / (2 * i + 1)
    atanTerms n k (i + 1) (p / (k * k)) (if i % 2 = 0 then pos + t else pos) (if i % 2 = 0 then neg else neg + t)

/-- π in fixed point, by Machin's formula 16·arctan(1/5) − 4·arctan(1/239). -/
def piFix : Nat :=
  16 * atanTerms 120 5 0 (2 ^ fixBits / 5) 0 0 - 4 * atanTerms 40 239 0 (2 ^ fixBits / 239) 0 0

/-- Σ (−1)^i y^i / ((2i+1)!), `n` terms, with `y` the square of the argument, in fixed point. -/
def sincTerms : Nat → Nat → Nat → Nat → Nat → Nat → Nat
  | 0, _, _, _, pos, neg => pos - neg
  | n + 1, y, i, t, pos, neg =>
    sincTerms n y (i + 1) (t * y / 2 ^ fixBits / ((2 * i + 2) * (2 * i + 3)))
      (if i % 2 = 0 then pos + t else pos) (if i % 2 = 0 then neg else neg + t)

/-- floor of a finite value, and whether it is an integer. -/
def numFloor (neg : Bool) (m : Nat) (e : Int) : Int × Bool :=
  if 0 ≤ e then (scaledInt neg m e 0, true)
  else
    let k := (-e).toNat
    let v := scaledInt neg m e e
    (v.fdiv (2 ^ k : Nat), m % 2 ^ k = 0)

/-- 2^a for a nonzero finite a (log 7, DESIGN CHOICE). -/
def exp2Of (neg : Bool) (m : Nat) (e : Int) : Num :=
  let (n, whole) := numFloor neg m e
  if 2000 < n then .fin false 1 2000
  else if n < -2000 then .fin false 1 (-2000)
  else if whole then .fin false 1 n
  else
    let k := (-e).toNat
    let frac := (scaledInt neg m e e - n * (2 ^ k : Nat)).toNat
    let x := frac * 2 ^ fixBits / 2 ^ k
    let y := x * ln2Fix / 2 ^ fixBits
    .fin false (withSticky (expTerms 80 y 1 (2 ^ fixBits) (2 ^ fixBits)) false) (n - fixBits - 1)

/-- FEXP2 (R162). -/
def floatExp2 (f : FloatFormat) (mode : RoundMode) (x : Nat) : Nat × Flags :=
  match floatValue f x with
  | .nan s => (fmtNaN f, flagIf s flagINV)
  | .inf n => if n then (0, noFlags) else (fmtInf f, noFlags)
  | .fin n m e => if m = 0 then roundNum f mode (.fin false 1 0) else roundNum f mode (exp2Of n m e)

/-- The first `n` fraction bits of log2 x for 1 ≤ x < 2 in fixed point, by repeated squaring, after those already in `acc`. -/
def log2Digits : Nat → Nat → Nat → Nat
  | 0, _, acc => acc
  | n + 1, x, acc =>
    let y := x * x / 2 ^ 384
    if 2 ^ 385 ≤ y then log2Digits n (y / 2) (2 * acc + 1) else log2Digits n y (2 * acc)

/-- log2 of a positive finite value (log 7, DESIGN CHOICE). -/
def log2Of (m : Nat) (e : Int) : Num :=
  let b := Nat.log2 m
  let n : Int := e + b
  if m = 2 ^ b then .fin (n < 0) n.natAbs 0
  else
    let digits := log2Digits 160 (m * 2 ^ 384 / 2 ^ b) 0
    let v : Int := 2 * (n * (2 ^ 160 : Nat) + digits) + 1
    .fin (v < 0) v.natAbs (-161)

/-- FLOG2 (R162). -/
def floatLog2 (f : FloatFormat) (mode : RoundMode) (x : Nat) : Nat × Flags :=
  match floatValue f x with
  | .nan s => (fmtNaN f, flagIf s flagINV)
  | .inf n => if n then (fmtNaN f, flagINV) else (fmtInf f, noFlags)
  | .fin n m e =>
    if m = 0 then (fmtSign f true + fmtInf f, flagDZ)
    else if n then (fmtNaN f, flagINV)
    else roundNum f mode (log2Of m e)

/-- sin πr for 0 < r ≤ 1/2, r = m/2^k (log 7, DESIGN CHOICE). -/
def sinPiSmall (neg : Bool) (m k : Nat) : Num :=
  let y := piFix * piFix / 2 ^ fixBits * m / 2 ^ k * m / 2 ^ k
  let s := sincTerms 80 y 0 (2 ^ fixBits) 0 0
  let v := piFix * m * s
  let one := 2 ^ (2 * fixBits + k)
  .fin neg (withSticky (if one ≤ v then one - 1 else v) false) (-(2 * fixBits + k : Nat) - 1)

/-- sin πa for a nonzero finite a that is no integer: a mod 2 = j/2^k, brought into (0, 1/2]. -/
def sinPiOf (neg : Bool) (m : Nat) (e : Int) : Num :=
  let k := (-e).toNat
  let j := m % 2 ^ (k + 1)
  let up := 2 ^ k ≤ j
  let t := if up then j - 2 ^ k else j
  let t := if 2 ^ k < 2 * t then 2 ^ k - t else t
  if 2 * t = 2 ^ k then .fin (neg != up) 1 0 else sinPiSmall (neg != up) t k

/-- FSINPI (R162). -/
def floatSinPi (f : FloatFormat) (mode : RoundMode) (x : Nat) : Nat × Flags :=
  match floatValue f x with
  | .nan s => (fmtNaN f, flagIf s flagINV)
  | .inf _ => (fmtNaN f, flagINV)
  | .fin n m e =>
    if m = 0 then (fmtSign f n, noFlags)
    else if (numFloor n m e).2 then (fmtSign f n, noFlags)
    else roundNum f mode (sinPiOf n m e)

/-- cos πa = sin π(a + 1/2), for a finite a that is no half of an odd integer; a + 1/2 = j/2^k mod 2. -/
def cosPiOf (m : Nat) (e : Int) : Num :=
  let k := (max 1 (-e)).toNat
  let j := (m * 2 ^ (e + k).toNat + 2 ^ (k - 1)) % 2 ^ (k + 1)
  let up := 2 ^ k ≤ j
  let t := if up then j - 2 ^ k else j
  let t := if 2 ^ k < 2 * t then 2 ^ k - t else t
  if 2 * t = 2 ^ k then .fin up 1 0 else sinPiSmall up t k

/-- Whether a is n + 1/2. -/
def isHalfOdd (m : Nat) (e : Int) : Bool :=
  e < 0 && 2 * m % 2 ^ (-e).toNat == 0 && m % 2 ^ (-e).toNat != 0

/-- FCOSPI (R162). -/
def floatCosPi (f : FloatFormat) (mode : RoundMode) (x : Nat) : Nat × Flags :=
  match floatValue f x with
  | .nan s => (fmtNaN f, flagIf s flagINV)
  | .inf _ => (fmtNaN f, flagINV)
  | .fin _ m e =>
    if m = 0 then roundNum f mode (.fin false 1 0)
    else if isHalfOdd m e then (0, noFlags)
    else roundNum f mode (cosPiOf m e)

/-! ### Integral values -/

/-- The integer nearest a finite value in a mode, in magnitude, and whether it differs. -/
def roundToInt (mode : RoundMode) (neg : Bool) (m : Nat) (e : Int) : Nat × Bool :=
  if 0 ≤ e then (m * 2 ^ e.toNat, false) else roundShift mode neg m (-e).toNat

/-- The signed nearest integer with ties to even: rne_int of the pseudocode (R30, R45). -/
def rneInt (neg : Bool) (m : Nat) (e : Int) : Int :=
  let (q, _) := roundToInt .rne neg m e
  if neg then -(q : Int) else q

/-- FRND (R163). -/
def floatRnd (f : FloatFormat) (mode : RoundMode) (x : Nat) : Nat × Flags :=
  match floatValue f x with
  | .nan s => (fmtNaN f, flagIf s flagINV)
  | .inf n => (fmtSign f n + fmtInf f, noFlags)
  | .fin n m e =>
    if m = 0 then (x, noFlags)
    else
      let (q, inexact) := roundToInt mode n m e
      if q = 0 then (fmtSign f n, flagIf inexact flagINX)
      else ((roundNum f mode (.fin n q 0)).1, flagIf inexact flagINX)

/-- An exact integer rounded into a format (R167). -/
def floatOfInt (f : FloatFormat) (mode : RoundMode) (v : Int) : Nat × Flags :=
  roundNum f mode (.fin (v < 0) v.natAbs 0)

/-- A float rounded to an integer between `lo` and `hi` (R167). -/
def intOfFloat (f : FloatFormat) (mode : RoundMode) (lo hi : Int) (x : Nat) : Int × Flags :=
  match floatValue f x with
  | .nan _ => (0, flagINV)
  | .inf n => (if n then lo else hi, flagSAT)
  | .fin n m e =>
    let (q, inexact) := roundToInt mode n m e
    let v : Int := if n then -(q : Int) else q
    if v < lo then (lo, flagSAT)
    else if hi < v then (hi, flagSAT)
    else (v, flagIf inexact flagINX)

/-- A pattern of one format converted into another (R168); a signalling NaN sets INV. -/
def floatConvert (src dst : FloatFormat) (mode : RoundMode) (x : Nat) : Nat × Flags :=
  let a := floatValue src x
  let (r, fl) := roundNum dst mode a
  (r, fl ||| snanFlags [a])

/-! ### T8 and T6 (R37 to R44) -/

/-- Length of the run of equal bits at the top of `bits`, which has `n` bits. -/
def runLength (bits : Nat) (top : Bool) : Nat → Nat
  | 0 => 0
  | n + 1 => if bits.testBit n = top then runLength bits top n + 1 else 0

/-- The magnitude of a positive n-bit tapered code: significand and power of two (R37). -/
def taperedMag (n c : Nat) : Nat × Int :=
  let bits := c % 2 ^ (n - 1)
  let top := bits.testBit (n - 2)
  let run := runLength bits top (n - 1)
  let k : Int := if top then (run : Int) - 1 else -(run : Int)
  let restLen := n - 1 - run - 1
  let rest := bits % 2 ^ restLen
  if restLen = 0 then (1, 2 * k)
  else
    let fb := restLen - 1
    let ex : Int := rest / 2 ^ fb
    (2 ^ fb + rest % 2 ^ fb, 2 * k + ex - fb)

/-- The NaR code of n bits (R37). -/
def narCode (n : Nat) : Nat := 2 ^ (n - 1)

/-- The value of an n-bit tapered code; `none` is NaR (R37). -/
def taperedValue (n c : Nat) : Option Num :=
  let c := c % 2 ^ n
  if c = 0 then some (.fin false 0 0)
  else if c = narCode n then none
  else
    let neg := c.testBit (n - 1)
    let mag := if neg then 2 ^ n - c else c
    let (m, e) := taperedMag n mag
    some (.fin neg m e)

/-- The largest code from `c` down whose value does not exceed the magnitude m·2^e, in units of 2^u. -/
def taperedFloor (n : Nat) (v : Nat) (u : Int) : Nat → Nat
  | 0 => 0
  | c + 1 =>
    let (cm, ce) := taperedMag n (c + 1)
    if cm * 2 ^ (ce - u).toNat ≤ v then c + 1 else taperedFloor n v u c

/-- sat_t8 for n = 8 and sat_t6 for n = 6 (R40). -/
def taperedOf (n : Nat) (x : Num) : Nat × Flags :=
  let lim : Nat := if n = 8 then 12 else 8
  let maxCode := 2 ^ (n - 1) - 1
  let signed (neg : Bool) (c : Nat) : Nat := if neg then (2 ^ n - c) % 2 ^ n else c
  match x with
  | .nan _ => (narCode n, flagINV)
  | .inf neg => (signed neg maxCode, flagSAT)
  | .fin neg m e =>
    if m = 0 then (0, noFlags)
    else
      let u : Int := min e (-(lim : Int) - 1)
      let v := m * 2 ^ (e - u).toNat
      let unit := 2 ^ (-u).toNat
      if unit * 2 ^ lim < v then (signed neg maxCode, flagSAT)
      else if v * 2 ^ (lim + 1) ≤ unit then (0, flagUNF ||| flagINX)
      else
        let lo := taperedFloor n v u maxCode
        let value (c : Nat) : Nat := (taperedMag n c).1 * 2 ^ ((taperedMag n c).2 - u).toNat
        let loVal := if lo = 0 then 0 else value lo
        if lo ≠ 0 && loVal = v then (signed neg lo, noFlags)
        else if lo = 0 then (signed neg 1, flagINX)
        else
          let hiVal := value (lo + 1)
          let c := if 2 * v < loVal + hiVal then lo
            else if loVal + hiVal < 2 * v then lo + 1
            else if lo % 2 = 0 then lo else lo + 1
          (signed neg c, flagINX)

/-- A value times 2^k, exactly. -/
def numScale (k : Int) : Num → Num
  | .fin n m e => .fin n m (e + k)
  | v => v

/-- An element under an E8M0 scale code, encoded (R43, R169): `encN`. -/
def taperedEncode (n scale : Nat) (x : Num) : Nat × Flags :=
  if scale = 0xFF then (narCode n, flagINV) else taperedOf n (numScale (127 - (scale : Int)) x)

/-- A tapered element under an E8M0 scale code, as FP32 (R43, R169): `dec`. -/
def taperedDecode (n scale c : Nat) : Nat × Flags :=
  match taperedValue n c with
  | none => (fmtNaN fp32, flagNAR)
  | some v => if scale = 0xFF then (fmtNaN fp32, flagNAR) else roundNum fp32 .rne (numScale ((scale : Int) - 127) v)

/-- scale_t8 for n = 8 and scale_t6 for n = 6 (R44). -/
def taperedScale (n : Nat) (x : Num) : Nat × Flags :=
  let d : Int := if n = 8 then 12 else 8
  match x with
  | .nan _ => (0xFF, noFlags)
  | .inf _ => (0xFF, noFlags)
  | .fin _ m e =>
    if m = 0 then (127, noFlags)
    else
      let ex : Int := e + Nat.log2 m - d
      if ex < -127 then (0, flagUNF)
      else if 127 < ex then (254, flagSAT)
      else ((ex + 127).toNat, noFlags)

/-! ### N8 (R45) -/

/-- sat_n8 (R45). -/
def n8Of (x : Num) : Nat × Flags :=
  match x with
  | .nan _ => (0, flagINV)
  | .inf neg => (if neg then 0 else 255, flagSAT)
  | .fin neg m e =>
    if m = 0 then (0, noFlags)
    else if neg then (0, flagSAT)
    else
      let above := if 0 ≤ e then 1 < m * 2 ^ e.toNat else 2 ^ (-e).toNat < m
      if above then (255, flagSAT)
      else
        let (q, inexact) := roundToInt .rne false (m * 255) e
        (q, flagIf inexact flagINX)

/-- q/255 as FP32 (R45, R169). -/
def n8Value (q : Nat) : Nat × Flags :=
  if q = 0 then (0, noFlags) else roundNum fp32 .rne (quotient false q 0 false 255 0)

/-! ### X320 (R50 to R52) -/

/-- An X320 value apart: the 308-bit field and its four status bits. -/
structure Exact where
  /-- [307:0], two's complement at weight 2^-149 -/
  field : Nat
  /-- [308] NaN seen -/
  nan : Bool
  /-- [309] +∞ seen -/
  pinf : Bool
  /-- [310] −∞ seen -/
  ninf : Bool
  /-- [311] a term out of range -/
  ovf : Bool
  deriving DecidableEq, Repr

/-- 2^308, the modulus of the fixed field. -/
def exactMod : Nat := 2 ^ 308

/-- The X320 in a 320-bit number; bits [319:312] are ignored (R50). -/
def exactOfNat (x : Nat) : Exact where
  field := x % exactMod
  nan := x.testBit 308
  pinf := x.testBit 309
  ninf := x.testBit 310
  ovf := x.testBit 311

/-- The 320 bits of an X320, [319:312] written 0 (R50). -/
def natOfExact (a : Exact) : Nat :=
  a.field + (if a.nan then 2 ^ 308 else 0) + (if a.pinf then 2 ^ 309 else 0) + (if a.ninf then 2 ^ 310 else 0)
    + (if a.ovf then 2 ^ 311 else 0)

/-- An integer added to the fixed field, modulo 2^308. -/
def exactAddInt (a : Exact) (q : Int) : Exact :=
  { a with field := (((a.field : Int) + q) % (exactMod : Int)).toNat }

/-- add_term of two X320 values (R51). -/
def exactAdd (a b : Exact) : Exact where
  field := (a.field + b.field) % exactMod
  nan := a.nan || b.nan
  pinf := a.pinf || b.pinf
  ninf := a.ninf || b.ninf
  ovf := a.ovf || b.ovf

/-- add_term of a real term (R51). -/
def exactAddTerm (a : Exact) (t : Num) : Exact × Flags :=
  match t with
  | .nan _ => ({ a with nan := true }, noFlags)
  | .inf neg => if neg then ({ a with ninf := true }, noFlags) else ({ a with pinf := true }, noFlags)
  | .fin neg m e =>
    if m = 0 then (a, noFlags)
    else if 128 ≤ e + (Nat.log2 m : Int) then ({ a with ovf := true }, flagXOVF)
    else
      let (q, inexact) := roundToInt .rne neg m (e + 149)
      (exactAddInt a (if neg then -(q : Int) else q), flagIf inexact flagINX)

/-- xrnd (R52) (log 70, DEDUCED). -/
def exactRound (a : Exact) : Nat × Flags :=
  let negative := 2 ^ 307 ≤ a.field
  if a.nan || (a.pinf && a.ninf) then (fmtNaN fp32, flagINV)
  else if a.pinf then (fmtInf fp32, noFlags)
  else if a.ninf then (fmtSign fp32 true + fmtInf fp32, noFlags)
  else if a.ovf then (fmtSign fp32 negative + fmtInf fp32, flagXOVF)
  else roundNum fp32 .rne (.fin negative (if negative then exactMod - a.field else a.field) (-149))

/-! ### Matrix sums (R53 to R56) -/

/-- A finite value as an integer multiple of 2^e0, where it is one. -/
def numAsInt (e0 : Int) : Num → Int
  | .fin n m e => if e0 ≤ e then scaledInt n m e e0 else rneInt n m (e - e0)
  | _ => 0

/-- The least exponent among finite values. -/
def minExponent (l : List Num) : Int :=
  l.foldl (fun acc v => match v with
    | .fin _ _ e => min acc e
    | _ => acc) 0

/-- The exact sum of finite values as a value; an empty or zero sum is +0 (log 70, DEDUCED). -/
def exactSum (l : List Num) : Num :=
  let e0 := minExponent l
  let v := l.foldl (fun (acc : Int) t => acc + numAsInt e0 t) 0
  .fin (v < 0) v.natAbs e0

/-- rne_f32(C_old + Σ terms) with the exceptional cases of R55; `nar` says a NaR or NaN-scaled operand took part. The terms are
finite (log 70, DEDUCED). -/
def mmaExact (cOld : Nat) (nar : Bool) (terms : List Num) : Nat × Flags :=
  let c := floatValue fp32 cOld
  let narFl := flagIf nar flagNAR
  match c with
  | .nan s => (fmtNaN fp32, narFl ||| flagIf s flagINV)
  | .inf n => if nar then (fmtNaN fp32, narFl) else (fmtSign fp32 n + fmtInf fp32, noFlags)
  | .fin n m e =>
    if nar then (fmtNaN fp32, narFl)
    else
      let (v, _) := numAdd .rne (.fin n m e) (exactSum terms)
      roundNum fp32 .rne v

/-- One element of a BF16 or FP16 MMA (R56): `pairs` are the operands, in K order. -/
def mmaWindow (cOld : Nat) (pairs : List (Num × Num)) : Nat × Flags :=
  let c := floatValue fp32 cOld
  let prods := pairs.map fun p => numMul p.1 p.2
  let terms := c :: prods.map (·.1)
  let zeroInf := pairs.any fun p => !numIsNaN p.1 && !numIsNaN p.2 && numIsNaN (numMul p.1 p.2).1
  let signal := numIsSNaN c || pairs.any fun p => numIsSNaN p.1 || numIsSNaN p.2
  let isInf (neg : Bool) (v : Num) : Bool := decide (v = .inf neg)
  let pos := terms.any (isInf false)
  let neg := terms.any (isInf true)
  if terms.any numIsNaN || (pos && neg) then
    (fmtNaN fp32, flagIf ((pos && neg) || zeroInf || signal) flagINV)
  else if pos then (fmtInf fp32, noFlags)
  else if neg then (fmtSign fp32 true + fmtInf fp32, noFlags)
  else
    let mag (v : Num) : Option Int := match v with
      | .fin _ m e => if m = 0 then none else some (e + Nat.log2 m)
      | _ => none
    match (terms.filterMap mag).foldl (fun (acc : Option Int) x => some (match acc with | none => x | some y => max y x)) none with
    | none =>
      let allNeg := terms.all fun v => match v with
        | .fin n _ _ => n
        | _ => false
      (fmtSign fp32 allNeg, noFlags)
    | some top =>
      let w : Int := top - 88
      let cut (v : Num) : Int × Bool := match v with
        | .fin n m e =>
          if w ≤ e then (scaledInt n m e w, false)
          else
            let q := m / 2 ^ (w - e).toNat
            (if n then -(q : Int) else q, m % 2 ^ (w - e).toNat != 0)
        | _ => (0, false)
      let parts := terms.map cut
      let sum : Int := parts.foldl (fun acc p => acc + p.1) 0
      let st := parts.any (·.2)
      let twice : Int := 2 * sum + (if st then (if 0 ≤ sum then 1 else -1) else 0)
      let (r, fl) := roundNum fp32 .rne (.fin (twice < 0) twice.natAbs (w - 1))
      (r, fl ||| flagIf st flagINX)

end Sys2Proof.Machine
end

