-- ==== Sys2Proof/Machine/Integer.lean ====
section
/-!
DEFINITION. Integer, bit, predicate and move instructions (R135 to R154) and their compact forms (R78).

Each effect is a function over the operands' values as numbers; the shared runners read the operands, apply U and the guard, write the
result and go on.
-/

namespace Sys2Proof.Machine

/-- wr(x) of 32 bits. -/
def wr32 (x : Int) : Nat := (x % (2 ^ 32 : Nat)).toNat

/-- wr(x) of 64 bits. -/
def wr64 (x : Int) : Nat := (x % (2 ^ 64 : Nat)).toNat

/-- s(x): the signed value of a 32-bit pattern. -/
def s32 (x : Nat) : Int := signedOf 32 x

/-- An effect of two sources, without a flag. -/
def alu2 (f : Nat → Nat → Nat) : Alu
  | a :: b :: _ => (f a b, noFlags)
  | _ => (0, noFlags)

/-- An effect of two sources, with flags. -/
def alu2f (f : Nat → Nat → Nat × Flags) : Alu
  | a :: b :: _ => f a b
  | _ => (0, noFlags)

/-- An effect of two sources and the old destination, without a flag. -/
def alu3 (f : Nat → Nat → Nat → Nat) : Alu
  | a :: b :: d :: _ => (f a b d, noFlags)
  | _ => (0, noFlags)

/-- An effect of two sources and a third, with flags. -/
def alu3f (f : Nat → Nat → Nat → Nat × Flags) : Alu
  | a :: b :: c :: _ => f a b c
  | _ => (0, noFlags)

/-- An effect of one source, without a flag. -/
def alu1 (f : Nat → Nat) : Alu
  | a :: _ => (f a, noFlags)
  | _ => (0, noFlags)

/-- An effect of one source, with flags. -/
def alu1f (f : Nat → Nat × Flags) : Alu
  | a :: _ => f a
  | _ => (0, noFlags)

/-! ### The effects -/

/-- A signed result clamped to 32 bits, with SAT (R137). -/
def clamp32 (x : Int) : Nat × Flags :=
  if x < -(2 ^ 31 : Nat) then (2 ^ 31, flagSAT)
  else if (2 ^ 31 : Nat) ≤ x then (2 ^ 31 - 1, flagSAT)
  else (wr32 x, noFlags)

/-- d := wr(a + b). -/
def fAdd (a b : Nat) : Nat := (a + b) % 2 ^ 32
/-- d := wr(a − b). -/
def fSub (a b : Nat) : Nat := wr32 ((a : Int) - b)
/-- d := s(a) + s(b), clamped. -/
def fAdds (a b : Nat) : Nat × Flags := clamp32 (s32 a + s32 b)
/-- d := s(a) − s(b), clamped. -/
def fSubs (a b : Nat) : Nat × Flags := clamp32 (s32 a - s32 b)
/-- d := wr(a · b). -/
def fMullo (a b : Nat) : Nat := a * b % 2 ^ 32
/-- The high word of the signed product. -/
def fMulhiS (a b : Nat) : Nat := wr64 (s32 a * s32 b) / 2 ^ 32
/-- The high word of the unsigned product. -/
def fMulhiZ (a b : Nat) : Nat := a * b / 2 ^ 32 % 2 ^ 32
/-- d := wr(d + a · b). -/
def fMad (a b d : Nat) : Nat := (d + a * b) % 2 ^ 32
/-- The lesser by s(). -/
def fMinS (a b : Nat) : Nat := if s32 a ≤ s32 b then a else b
/-- The greater by s(). -/
def fMaxS (a b : Nat) : Nat := if s32 a ≤ s32 b then b else a
/-- The lesser by z(). -/
def fMinZ (a b : Nat) : Nat := if a ≤ b then a else b
/-- The greater by z(). -/
def fMaxZ (a b : Nat) : Nat := if a ≤ b then b else a
/-- not x, in 32 bits. -/
def fNot (a : Nat) : Nat := 2 ^ 32 - 1 - a % 2 ^ 32
/-- a and not b. -/
def fAndn (a b : Nat) : Nat := a &&& fNot b
/-- A left shift by the whole of b. -/
def fShl (a b : Nat) : Nat := if 32 ≤ b then 0 else a * 2 ^ b % 2 ^ 32
/-- A right shift by the whole of b, zeros in. -/
def fShrZ (a b : Nat) : Nat := if 32 ≤ b then 0 else a / 2 ^ b
/-- A right shift, sign in. -/
def fShrS (a b : Nat) : Nat := wr32 ((s32 a).fdiv (2 ^ (min b 31) : Nat))
/-- A left rotation. -/
def fRotl (a b : Nat) : Nat := a * 2 ^ (b % 32) % 2 ^ 32 + a / 2 ^ (32 - b % 32)

/-- DIV.s32 (R138). -/
def fDivS (a b : Nat) : Nat × Flags :=
  if b = 0 then (if 0 ≤ s32 a then 2 ^ 31 - 1 else 2 ^ 31, flagDZ)
  else if a = 2 ^ 31 && s32 b = -1 then (2 ^ 31 - 1, flagSAT)
  else (wr32 ((s32 a).tdiv (s32 b)), noFlags)
/-- DIV.z32 (R138). -/
def fDivZ (a b : Nat) : Nat × Flags := if b = 0 then (2 ^ 32 - 1, flagDZ) else (a / b, noFlags)
/-- REM.s32 (R138). -/
def fRemS (a b : Nat) : Nat × Flags :=
  if b = 0 then (a, flagDZ)
  else if a = 2 ^ 31 && s32 b = -1 then (0, flagSAT)
  else (wr32 (s32 a - (s32 a).tdiv (s32 b) * s32 b), noFlags)
/-- REM.z32 (R138). -/
def fRemZ (a b : Nat) : Nat × Flags := if b = 0 then (a, flagDZ) else (a % b, noFlags)

/-- NEG. -/
def fNegI (a : Nat) : Nat := wr32 (-(s32 a))
/-- ABS.s32. -/
def fAbsI (a : Nat) : Nat := wr32 (s32 a).natAbs
/-- Leading zeros of an n-bit number. -/
def fClz (n a : Nat) : Nat := if a = 0 then n else n - 1 - Nat.log2 a
/-- Trailing zeros of a 32-bit number. -/
def fCtz (a : Nat) : Nat := ((upTo 32).find? fun i => a.testBit i).getD 32
/-- Set bits of a 32-bit number. -/
def fPopc (a : Nat) : Nat := ((upTo 32).filter fun i => a.testBit i).length
/-- The number whose bit `i` is `f i`, of `n` bits. -/
def fromBits (n : Nat) (f : Nat → Bool) : Nat := (upTo n).foldl (fun acc i => if f i then acc + 2 ^ i else acc) 0
/-- BREV.b32. -/
def fBrev (a : Nat) : Nat := fromBits 32 fun i => a.testBit (31 - i)

/-- The field length n of R142 from the position and length word. -/
def bfxLen (b : Nat) : Nat :=
  let pos := b % 256
  let len := b / 256 % 256
  if 31 < pos || len = 0 then 0 else min len (32 - pos)
/-- BFX.z32 (R142). -/
def fBfxZ (a b : Nat) : Nat := if bfxLen b = 0 then 0 else a / 2 ^ (b % 256) % 2 ^ bfxLen b
/-- BFX.s32 (R142). -/
def fBfxS (a b : Nat) : Nat := if bfxLen b = 0 then 0 else wr32 (signedOf (bfxLen b) (a / 2 ^ (b % 256)))
/-- BFI (R142). -/
def fBfi (a b d : Nat) : Nat :=
  let n := bfxLen b
  let pos := b % 256
  if n = 0 then d else d % 2 ^ pos + a % 2 ^ n * 2 ^ pos + d / 2 ^ (pos + n) * 2 ^ (pos + n)

/-- PRMT under a 16-bit selector (R143). -/
def fPrmt (sel a b : Nat) : Nat :=
  (upTo 4).foldl (fun acc j =>
    let n := sel / 16 ^ j % 16
    let t := (a + 2 ^ 32 * b) / 256 ^ (n % 8) % 256
    let t := if 8 ≤ n then (if 128 ≤ t then 255 else 0) else t
    acc + t * 256 ^ j) 0

/-- ILV2 (R144). -/
def fIlv2 (a b : Nat) : Nat := fromBits 32 fun i => if i % 2 = 0 then a.testBit (i / 2) else b.testBit (i / 2)
/-- ILV3, its third source the old rd (R144). -/
def fIlv3 (a b d : Nat) : Nat :=
  fromBits 30 fun i => if i % 3 = 0 then a.testBit (i / 3) else if i % 3 = 1 then b.testBit (i / 3) else d.testBit (i / 3)
/-- DLV2 (R144). -/
def fDlv2 (c a : Nat) : Nat := fromBits 16 fun i => a.testBit (2 * i + c)
/-- DLV3 (R144). -/
def fDlv3 (c a : Nat) : Nat := fromBits 10 fun i => a.testBit (3 * i + c)
/-- CLZX.b32 (R144). -/
def fClzx (a b : Nat) : Nat := fClz 32 (a ^^^ b)

/-- An integer compare under a code 0 to 5 (R69, R146). -/
def intCompare (x y : Int) (cond : Nat) : Bool :=
  match cond with
  | 0 => x == y
  | 1 => x != y
  | 2 => decide (x < y)
  | 3 => decide (x ≤ y)
  | 4 => decide (y < x)
  | _ => decide (y ≤ x)

/-- PLOP's result (R148). -/
def plopOp (op : Nat) (a b : Bool) : Bool :=
  match op with
  | 0 => a && b
  | 1 => a || b
  | 2 => a != b
  | 3 => a && !b
  | 4 => a || !b
  | 5 => a == b
  | 6 => !a
  | _ => a

/-! ### The instructions -/

/-- ADD_S32 (R137).  -/
def execAddS32 (e : Enc) (s : State) : Host.Outcome State Fault Refusal := runRrr e (alu2 fAdd) s

/-- SUB_S32 (R137).  -/
def execSubS32 (e : Enc) (s : State) : Host.Outcome State Fault Refusal := runRrr e (alu2 fSub) s

/-- MULLO_B32 (R137).  -/
def execMulloB32 (e : Enc) (s : State) : Host.Outcome State Fault Refusal := runRrr e (alu2 fMullo) s

/-- MULHI_S32 (R137).  -/
def execMulhiS32 (e : Enc) (s : State) : Host.Outcome State Fault Refusal := runRrr e (alu2 fMulhiS) s

/-- MULHI_Z32 (R137).  -/
def execMulhiZ32 (e : Enc) (s : State) : Host.Outcome State Fault Refusal := runRrr e (alu2 fMulhiZ) s

/-- MIN_S32 (R137).  -/
def execMinS32 (e : Enc) (s : State) : Host.Outcome State Fault Refusal := runRrr e (alu2 fMinS) s

/-- MAX_S32 (R137).  -/
def execMaxS32 (e : Enc) (s : State) : Host.Outcome State Fault Refusal := runRrr e (alu2 fMaxS) s

/-- MIN_Z32 (R137).  -/
def execMinZ32 (e : Enc) (s : State) : Host.Outcome State Fault Refusal := runRrr e (alu2 fMinZ) s

/-- MAX_Z32 (R137).  -/
def execMaxZ32 (e : Enc) (s : State) : Host.Outcome State Fault Refusal := runRrr e (alu2 fMaxZ) s

/-- ANDN (R137).  -/
def execAndn (e : Enc) (s : State) : Host.Outcome State Fault Refusal := runRrr e (alu2 fAndn) s

/-- SHL (R137).  -/
def execShl (e : Enc) (s : State) : Host.Outcome State Fault Refusal := runRrr e (alu2 fShl) s

/-- SHR_Z32 (R137).  -/
def execShrZ32 (e : Enc) (s : State) : Host.Outcome State Fault Refusal := runRrr e (alu2 fShrZ) s

/-- SHR_S32 (R137).  -/
def execShrS32 (e : Enc) (s : State) : Host.Outcome State Fault Refusal := runRrr e (alu2 fShrS) s

/-- ROTL (R137).  -/
def execRotl (e : Enc) (s : State) : Host.Outcome State Fault Refusal := runRrr e (alu2 fRotl) s

/-- AND (R137).  -/
def execAnd (e : Enc) (s : State) : Host.Outcome State Fault Refusal := runRrr e (alu2 (· &&& ·)) s

/-- OR (R137).  -/
def execOr (e : Enc) (s : State) : Host.Outcome State Fault Refusal := runRrr e (alu2 (· ||| ·)) s

/-- XOR (R137).  -/
def execXor (e : Enc) (s : State) : Host.Outcome State Fault Refusal := runRrr e (alu2 (· ^^^ ·)) s

/-- ADDS_S32 (R137).  -/
def execAddsS32 (e : Enc) (s : State) : Host.Outcome State Fault Refusal := runRrr e (alu2f fAdds) s

/-- SUBS_S32 (R137).  -/
def execSubsS32 (e : Enc) (s : State) : Host.Outcome State Fault Refusal := runRrr e (alu2f fSubs) s

/-- DIV_S32 (R138).  -/
def execDivS32 (e : Enc) (s : State) : Host.Outcome State Fault Refusal := runRrr e (alu2f fDivS) s

/-- DIV_Z32 (R138).  -/
def execDivZ32 (e : Enc) (s : State) : Host.Outcome State Fault Refusal := runRrr e (alu2f fDivZ) s

/-- REM_S32 (R138).  -/
def execRemS32 (e : Enc) (s : State) : Host.Outcome State Fault Refusal := runRrr e (alu2f fRemS) s

/-- REM_Z32 (R138).  -/
def execRemZ32 (e : Enc) (s : State) : Host.Outcome State Fault Refusal := runRrr e (alu2f fRemZ) s

/-- MAD_B32 (R137).  -/
def execMadB32 (e : Enc) (s : State) : Host.Outcome State Fault Refusal := runRrr e (alu3 fMad) s

/-- ADDI (R139).  -/
def execAddi (e : Enc) (s : State) : Host.Outcome State Fault Refusal := runRri e true (alu1 fun a => wr32 ((a : Int) + simmRri e)) s

/-- SHLI (R139).  -/
def execShli (e : Enc) (s : State) : Host.Outcome State Fault Refusal := 
  runRri e (immRri e < 32) (alu1 fun a => fShl a (immRri e)) s

/-- SHRI_Z32 (R139).  -/
def execShriZ32 (e : Enc) (s : State) : Host.Outcome State Fault Refusal := 
  runRri e (immRri e < 32) (alu1 fun a => fShrZ a (immRri e)) s

/-- SHRI_S32 (R139).  -/
def execShriS32 (e : Enc) (s : State) : Host.Outcome State Fault Refusal := 
  runRri e (immRri e < 32) (alu1 fun a => fShrS a (immRri e)) s

/-- ANDI (R139).  -/
def execAndi (e : Enc) (s : State) : Host.Outcome State Fault Refusal := 
  runRri e true (alu1 fun a => a &&& wr32 (simmRri e)) s

/-- LI (R140).  -/
def execLi (e : Enc) (s : State) : Host.Outcome State Fault Refusal := runRj e true (alu1 fun _ => wr32 (simmRj e)) s

/-- LIH (R140).  -/
def execLih (e : Enc) (s : State) : Host.Outcome State Fault Refusal := 
  runRj e (immRj e < 0x10000) (alu1 fun d => immRj e * 2 ^ 16 + d % 2 ^ 16) s

/-- NOT (R141).  -/
def execNot (e : Enc) (s : State) : Host.Outcome State Fault Refusal := runRr e (alu1 fNot) s

/-- NEG (R141).  -/
def execNeg (e : Enc) (s : State) : Host.Outcome State Fault Refusal := runRr e (alu1 fNegI) s

/-- ABS_S32 (R141).  -/
def execAbsS32 (e : Enc) (s : State) : Host.Outcome State Fault Refusal := runRr e (alu1 fAbsI) s

/-- CLZ_B32 (R141).  -/
def execClzB32 (e : Enc) (s : State) : Host.Outcome State Fault Refusal := runRr e (alu1 (fClz 32)) s

/-- CTZ_B32 (R141).  -/
def execCtzB32 (e : Enc) (s : State) : Host.Outcome State Fault Refusal := runRr e (alu1 fCtz) s

/-- POPC_B32 (R141).  -/
def execPopcB32 (e : Enc) (s : State) : Host.Outcome State Fault Refusal := runRr e (alu1 fPopc) s

/-- BREV_B32 (R141).  -/
def execBrevB32 (e : Enc) (s : State) : Host.Outcome State Fault Refusal := runRr e (alu1 fBrev) s

/-- BFX_Z32 (R142).  -/
def execBfxZ32 (e : Enc) (s : State) : Host.Outcome State Fault Refusal := runRrr e (alu2 fBfxZ) s

/-- BFX_S32 (R142).  -/
def execBfxS32 (e : Enc) (s : State) : Host.Outcome State Fault Refusal := runRrr e (alu2 fBfxS) s

/-- BFI (R142).  -/
def execBfi (e : Enc) (s : State) : Host.Outcome State Fault Refusal := runRrr e (alu3 fBfi) s

/-- PRMT's selector: 0x5410 without XP, else the modifier and the rc field (R143). -/
def prmtSel (e : Enc) : Nat := if e.xp.isSome then modifier e * 64 + rcField e else 0x5410

/-- PRMT (R143). Its selector takes the rc field and the modifier. -/
def execPrmt (e : Enc) (s : State) : Host.Outcome State Fault Refusal :=
  runForm { formRrr with rc := .bits, mods := 0x3FF } true e
    (aluBody e [(raLoc e, 1), (rbLoc e, 1)] (rdLoc e) 1 (alu2 (fPrmt (prmtSel e)))) s

/-- ILV2 (R144).  -/
def execIlv2 (e : Enc) (s : State) : Host.Outcome State Fault Refusal := runRrr e (alu2 fIlv2) s

/-- ILV3 (R144).  -/
def execIlv3 (e : Enc) (s : State) : Host.Outcome State Fault Refusal := runRrr e (alu3 fIlv3) s

/-- DLV2 (R144).  -/
def execDlv2 (e : Enc) (s : State) : Host.Outcome State Fault Refusal := 
  runRri e (immRri e < 2) (alu1 (fDlv2 (immRri e))) s

/-- DLV3 (R144).  -/
def execDlv3 (e : Enc) (s : State) : Host.Outcome State Fault Refusal := 
  runRri e (immRri e < 3) (alu1 (fDlv3 (immRri e))) s

/-- CLZX_B32 (R144).  -/
def execClzxB32 (e : Enc) (s : State) : Host.Outcome State Fault Refusal := runRrr e (alu2 fClzx) s

/-- CLZ_B64 (R145). -/
def execClzB64 (e : Enc) (s : State) : Host.Outcome State Fault Refusal :=
  runForm { formRr with ra := .reg 2 2 } true e (aluBody e [(raLoc e, 2)] (rdLoc e) 1 (alu1 (fClz 64))) s

/-- A 64-bit sum or difference of pairs (R145). -/
def runPair (e : Enc) (f : Nat → Nat → Nat) (s : State) : Host.Outcome State Fault Refusal :=
  runForm { formRrr with rd := .reg 2 2, ra := .reg 2 2, rb := .reg 2 2 } true e
    (aluBody e [(raLoc e, 2), (rbLoc e, 2)] (rdLoc e) 2 (alu2 f)) s

/-- ADD_B64 (R145). -/
def execAddB64 (e : Enc) (s : State) : Host.Outcome State Fault Refusal := runPair e (fun a b => (a + b) % 2 ^ 64) s

/-- SUB_B64 (R145). -/
def execSubB64 (e : Enc) (s : State) : Host.Outcome State Fault Refusal := runPair e (fun a b => wr64 ((a : Int) - b)) s

/-- ADDA (R145): sh is modifier [24:22], 0 to 4. -/
def execAdda (e : Enc) (s : State) : Host.Outcome State Fault Refusal :=
  runForm { formRrr with rd := .reg 2 2, ra := .reg 2 2, mods := 7 } (decide (modifier e % 8 ≤ 4)) e
    (aluBody e [(raLoc e, 2), (rbLoc e, 1)] (rdLoc e) 2 (alu2 fun a b => wr64 ((a : Int) + s32 b * (2 ^ (modifier e % 8) : Nat)))) s

/-- MULW_S32 (R145). -/
def execMulwS32 (e : Enc) (s : State) : Host.Outcome State Fault Refusal :=
  runForm { formRrr with rd := .reg 2 2 } true e
    (aluBody e [(raLoc e, 1), (rbLoc e, 1)] (rdLoc e) 2 (alu2 fun a b => wr64 (s32 a * s32 b))) s

/-- ICMP_S32 (R146). -/
def execIcmpS32 (e : Enc) (s : State) : Host.Outcome State Fault Refusal :=
  runCmpFormat e 6 1 1 (fun c a b => (intCompare (s32 a) (s32 b) c, noFlags)) true s

/-- ICMP_Z32 (R146). -/
def execIcmpZ32 (e : Enc) (s : State) : Host.Outcome State Fault Refusal :=
  runCmpFormat e 6 1 1 (fun c a b => (intCompare a b c, noFlags)) true s

/-- SEL in one lane: the guard field names the selector (R147). -/
def selLane (e : Enc) (g0 : Group) (g : Group) (lane : Nat) : Group :=
  writeV (locNum (rdLoc e)) lane (readLoc g0 lane (if readP g0 (guardNum e) lane then raLoc e else rbLoc e)) g

/-- SEL (R147): every lane of the active mask executes, under U = 1 the group. -/
def execSel (e : Enc) (s : State) : Host.Outcome State Fault Refusal :=
  runForm { formRrr with selector := true } true e (fun s =>
    let lanes := gangLanes s
    advance (wordLen e) (modCur s fun g =>
      if e.u then writeG (locNum (rdLoc e)) (readLoc g 0 (if readQ g (guardNum e) then raLoc e else rbLoc e)) g
      else (laneList lanes).foldl (selLane e g) g)) s

/-- PLOP (R148): op in [19:17], the source predicates in ra and rb; op 6 and 7 have no second source. -/
def execPlop (e : Enc) (s : State) : Host.Outcome State Fault Refusal :=
  runForm { rd := .cond 8, ra := .pred, rb := .pred, prologue := true } (decide (cmpCond e < 6) || e.rb == 0) e
    (predBody e fun g lane =>
      let rd (k : Nat) : Bool := if e.u then readQ g k else readP g k lane
      (plopOp (cmpCond e) (rd e.ra.toNat) (rd e.rb.toNat), noFlags)) s

/-- The word of a predicate set: bit k = predicate k, bit 0 reads 1 (R149). -/
def predWord (x : BitVec 8) : Word := (x ||| 1).setWidth 32

/-- P2R (R149). -/
def execP2r (e : Enc) (s : State) : Host.Outcome State Fault Refusal :=
  runForm { rd := .reg 1 1, ra := .unused, rb := .unused, prologue := true } true e (fun s =>
    let lanes := actLanes e s
    let q := qGuard e s
    let rd := locNum (rdLoc e)
    advance (wordLen e) (modCur s fun g =>
      if e.u then (if q then writeG rd (predWord g.qpreds) g else g)
      else (laneList lanes).foldl (fun acc i => writeV rd i (predWord (cellGet 0 g.preds i)) acc) g)) s

/-- A predicate set from a register: bits 1 to 7 (R149). -/
def wordPreds (w : Word) : BitVec 8 := w.setWidth 8 &&& 0xFE

/-- REG_TO_PREDICATES (R149). -/
def execR2p (e : Enc) (s : State) : Host.Outcome State Fault Refusal :=
  runForm { rd := .unused, ra := .reg 1 1, rb := .unused, prologue := true } true e (fun s =>
    let lanes := actLanes e s
    let q := qGuard e s
    advance (wordLen e) (modCur s fun g =>
      if e.u then (if q then { g with qpreds := wordPreds (readLoc g 0 (raLoc e)) } else g)
      else (laneList lanes).foldl (fun acc i =>
        { acc with preds := cellSet 0 acc.preds i (wordPreds (readLoc g i (raLoc e))) }) g)) s

/-- MOV (R150). -/
def execMov (e : Enc) (s : State) : Host.Outcome State Fault Refusal := runRr e (alu1 id) s

/-- A lane belongs to a gang. -/
def laneInGang (s : State) (lane : Nat) : Bool := (issuerSlice s).isNone || (curSlices s).contains (lane / 4)

/-- MOVL (R151): a lane's register into a group register. -/
def execMovl (e : Enc) (s : State) : Host.Outcome State Fault Refusal :=
  runForm { rd := .groupReg 1 1, ra := .laneReg, rb := .imm, xp := .layoutB, u := .one } (immRri e < 32) e (fun s =>
    if !qGuard e s then advance (wordLen e) s
    else if !laneInGang s (immRri e) then faultWith 0 11 (actLanes e s) s
    else advance (wordLen e) (modCur s fun g => writeG e.rd.toNat (readV g e.ra.toNat (immRri e)) g)) s

/-! #### Special registers (R119, R120, R152) -/

/-- A lane-kind special register (R119). -/
def spLane (i : Nat) : Bool := i == 0 || i == 1 || i == 25 || i == 26

/-- A special register software may write (R119). -/
def spWritable (i : Nat) : Bool := i == 15 || i == 16 || (24 ≤ i && i ≤ 28)

/-- The slices in the gang of a slice, as a mask (%gang). -/
def gangMask (s : State) : Nat := (curSlices s).foldl (fun acc k => acc + 2 ^ k) 0

/-- A grid extent of the issuing launch, by axis (R114, R233). -/
def gridExtent (la : Launch) (axis : Nat) : Nat := recField la.record (11 + 4 * axis) (8 + 4 * axis)

/-- The span-space extents of a launch. -/
def gridExtents (la : Launch) : List Nat := (upTo 3).map (gridExtent la)

/-- The image of a coordinate list under a symmetry element, in a space with extents `n` and shifts `sh` (R411). -/
def symMap (el : SymElement) (n sh p : List Nat) : List Nat :=
  (upTo 3).map fun a =>
    let v := (p[(el.axes[a]?).getD a]?).getD 0
    let ext := (n[a]?).getD 1
    let v := if (el.flips[a]?).getD false then ext - 1 - v else v
    (v + (sh[a]?).getD 0) % ext

/-- %stab: the elements that fix the span's point in span space (R119, R413). -/
def stabMask (sp : Span) (la : Launch) : Nat :=
  match la.symmetry with
  | none => 1
  | some sy =>
    let n := (upTo 3).map (gridExtent la)
    fromBits sy.elements.length fun k => match sy.elements[k]? with
      | none => false
      | some el => symMap el n el.spanShifts [sp.x, sp.y, sp.z] == [sp.x, sp.y, sp.z]

/-- %orbit (R413). -/
def orbitSize (sp : Span) (la : Launch) : Nat :=
  match la.symmetry with
  | none => 1
  | some sy => sy.elements.length / fPopc (stabMask sp la)

/-- A group-kind special register's value (R119). -/
def spGroup (s : State) (sp : Span) (la : Launch) (g : Group) (i : Nat) : Nat :=
  match i with
  | 2 => g.num
  | 3 => sp.groups.length
  | 4 => sp.x
  | 5 => sp.y
  | 6 => sp.z
  | 7 => gridExtent la 0
  | 8 => gridExtent la 1
  | 9 => gridExtent la 2
  | 10 => sp.bay
  | 11 => spanPier sp % 64
  | 12 => spanPier sp / 64
  | 13 => gangMask s
  | 14 => (liveLanes g).toNat
  | 15 => g.fsr.toNat
  | 16 => g.fen.toNat
  | 17 => stabMask sp la
  | 18 => orbitSize sp la
  | 19 => recField la.record 3 0
  | 20 => recField la.record 7 4 % 2 ^ 25
  | 21 => recField la.record 67 64
  | 22 => recField la.record 71 68 % 2 ^ 25
  | 23 => deckSize sp
  | 24 => g.tcause.toNat
  | 27 => g.tskid.toNat
  | 28 => g.tlanes.toNat
  | _ => 0

/-- A special register's value in a lane (R119). -/
def spValue (s : State) (sp : Span) (la : Launch) (g : Group) (lane i : Nat) : Word :=
  let tpc := (((g.slices[lane / 4]?).map Slice.tpc).getD (0 : Va)).toNat
  match i with
  | 0 => BitVec.ofNat 32 lane
  | 1 => BitVec.ofNat 32 (lane / 4)
  | 25 => BitVec.ofNat 32 tpc
  | 26 => BitVec.ofNat 32 (tpc / 2 ^ 32)
  | _ => BitVec.ofNat 32 (spGroup s sp la g i)

/-- MOVS (R152): a lane register under U = 1 faults 0:2 (R120). -/
def execMovs (e : Enc) (s : State) : Host.Outcome State Fault Refusal :=
  runForm { formRri with ra := .unused, prologue := false } (immRri e < 29) e (fun s =>
    let i := immRri e
    if e.u && spLane i then faultWith 0 2 (actLanes e s) s
    else
      match curSpan s, curLaunch s with
      | some sp, some la =>
        let lanes := actLanes e s
        let q := qGuard e s
        let rd := locNum (rdLocB e)
        advance (wordLen e) (modCur s fun g =>
          if e.u then (if q then writeG rd (spValue s sp la g 0 i) g else g)
          else (laneList lanes).foldl (fun acc l => writeV rd l (spValue s sp la g l i) acc) g)
      | _, _ => s) s

/-- A half of a recorded pc written: the low 32 bits, or the high 25 (R120). -/
def setTpcHalf (high : Bool) (v : Word) (sl : Slice) : Slice :=
  { sl with tpc := if high then v.setWidth 25 ++ sl.tpc.setWidth 32 else sl.tpc.extractLsb' 32 25 ++ v }

/-- A group register of the trap or flag registers written (R152, R225). -/
def setSpecial (i : Nat) (v : Word) (g : Group) : Group :=
  match i with
  | 15 => { g with fsr := v.setWidth 9 }
  | 16 => { g with fen := v.setWidth 9 }
  | 24 => { g with tcause := v.setWidth 9 }
  | 27 => { g with tskid := v.setWidth 4 }
  | 28 => { g with tlanes := v }
  | _ => g

/-- The lowest lane of a mask within a slice. -/
def lowestLane (m : LaneMask) (k : Nat) : Option Nat := (laneList m).find? fun i => i / 4 = k

/-- MOVSW (R120, R152): a register that may not be written faults 0:2; under U = 0 a group register takes the lowest active lane's value,
and a recorded pc its slice's lowest active lane's. -/
def execMovsw (e : Enc) (s : State) : Host.Outcome State Fault Refusal :=
  runForm { formRri with ra := .unused, prologue := false } (immRri e < 29) e (fun s =>
    let i := immRri e
    if !spWritable i then faultWith 0 2 (actLanes e s) s
    else
      let lanes := actLanes e s
      let q := qGuard e s
      let ks := curSlices s
      let val (g : Group) (lane : Nat) : Word := readLoc g lane (rdLocB e)
      advance (wordLen e) (modCur s fun g =>
        if i = 25 || i = 26 then
          if e.u then (if q then modSlices g ks (setTpcHalf (i = 26) (val g 0)) else g)
          else ks.foldl (fun acc k => match lowestLane lanes k with
            | none => acc
            | some l => modSlices acc [k] (setTpcHalf (i = 26) (val g l))) g
        else if e.u then (if q then setSpecial i (val g 0) g else g)
        else
          match laneList lanes with
          | [] => g
          | l :: _ => setSpecial i (val g l) g)) s

/-- The clock count of a pier (R134, R153) (log 75, DESIGN CHOICE). -/
def pierClock (s : State) (pier : Nat) : BitVec 64 := s.clock + (Config.pierSkew pier).setWidth 64

/-- CCNT (R153): the count to a pair, every active lane the same. -/
def execCcnt (e : Enc) (s : State) : Host.Outcome State Fault Refusal :=
  runForm { rd := .reg 2 2, ra := .unused, rb := .unused } true e (fun s =>
    aluBody e [] (rdLoc e) 2 (fun _ => ((pierClock s (curPier s)).toNat, noFlags)) s) s

/-- NOP (R154). -/
def execNop (e : Enc) (s : State) : Host.Outcome State Fault Refusal :=
  runForm { rd := .unused, ra := .unused, rb := .unused, xp := .zero, prologue := true } true e (advance (wordLen e)) s

/-! ### Compact integer forms (R78) -/

/-- COMPACT_MOV (R78). -/
def execCompactMov (c : Cmp) (s : State) : Host.Outcome State Fault Refusal := runCmp c (alu2 fun _ b => b) s

/-- COMPACT_ADD_S32 (R78). -/
def execCompactAddS32 (c : Cmp) (s : State) : Host.Outcome State Fault Refusal := runCmp c (alu2 fAdd) s

/-- COMPACT_SUB_S32 (R78). -/
def execCompactSubS32 (c : Cmp) (s : State) : Host.Outcome State Fault Refusal := runCmp c (alu2 fSub) s

/-- COMPACT_AND (R78). -/
def execCompactAnd (c : Cmp) (s : State) : Host.Outcome State Fault Refusal := runCmp c (alu2 (· &&& ·)) s

/-- COMPACT_OR (R78). -/
def execCompactOr (c : Cmp) (s : State) : Host.Outcome State Fault Refusal := runCmp c (alu2 (· ||| ·)) s

/-- COMPACT_XOR (R78). -/
def execCompactXor (c : Cmp) (s : State) : Host.Outcome State Fault Refusal := runCmp c (alu2 (· ^^^ ·)) s

/-- COMPACT_SHL (R78). -/
def execCompactShl (c : Cmp) (s : State) : Host.Outcome State Fault Refusal := runCmp c (alu2 fShl) s

/-- COMPACT_SHR_Z32 (R78). -/
def execCompactShrZ32 (c : Cmp) (s : State) : Host.Outcome State Fault Refusal := runCmp c (alu2 fShrZ) s

/-- COMPACT_MULLO_B32 (R78). -/
def execCompactMulloB32 (c : Cmp) (s : State) : Host.Outcome State Fault Refusal := runCmp c (alu2 fMullo) s

/-- COMPACT_ADDI (R78). -/
def execCompactAddi (c : Cmp) (s : State) : Host.Outcome State Fault Refusal := runCmpImm c (alu1 fun a => wr32 ((a : Int) + simm5 c)) s

/-- COMPACT_LI (R78). -/
def execCompactLi (c : Cmp) (s : State) : Host.Outcome State Fault Refusal := runCmpImm c (alu1 fun _ => wr32 (simm5 c)) s

end Sys2Proof.Machine
end

