-- ==== Sys2Proof/Machine/Memory.lean ====
section
/-!
DEFINITION. Memory access: loads and stores, deck, gather, atomics, the tag table and cache control (R198 to R213).
-/

namespace Sys2Proof.Machine

/-! ### Forms (R200) -/

/-- A MEM word: `n` data registers aligned to `align`, an even address pair; orders and the `.nt` hint as offered. -/
def formMem (n align : Nat) (orders : List Nat) (nt : Bool) : Form :=
  { rd := .reg n align, ra := .reg 2 2, rb := .imm, mem := some ⟨orders, false, nt⟩ }

/-- A deck word: the address is one register. -/
def formDeck (n : Nat) (orders : List Nat) : Form :=
  { rd := .reg n n, ra := .reg 1 1, rb := .imm, mem := some ⟨orders, false, false⟩ }

/-! ### LD, ST, LDD, STD (R205) -/

/-- The operations of a prologue engine complete at once; uncorrectable data fail its launch (R237) (log 15, DEDUCED). -/
def settleEngine (s : State) : State :=
  match s.issuer with
  | .prologue _ =>
    let ready := (curGroup s).ops.filter (·.ready)
    let s := modCur s fun g =>
      let g := ready.foldl (fun acc o => o.writes.foldl (fun acc w => applyWrite w acc) acc) g
      { g with ops := g.ops.filter fun o => !o.ready }
    match ready.findSome? (·.cause) with
    | none => s
    | some c => faultWith (c.toNat / 32) (c.toNat % 32) 0 (noteError c s)
  | _ => s

/-- A global load. -/
def runLoad (e : Enc) (size k : Nat) (signed : Bool) (s : State) : Host.Outcome State Fault Refusal :=
  runForm { formMem k k [0, 1] true with prologue := true } true e
    (fun s => settleEngine (plainIssue .ld .lsu .load size false size e (loadLane size k (rdLoc e) signed) s)) s

/-- LD.z8 (R205). -/
def execLdZ8 (e : Enc) (s : State) : Host.Outcome State Fault Refusal := runLoad e 1 1 false s

/-- LD.s8 (R205). -/
def execLdS8 (e : Enc) (s : State) : Host.Outcome State Fault Refusal := runLoad e 1 1 true s

/-- LD.z16 (R205). -/
def execLdZ16 (e : Enc) (s : State) : Host.Outcome State Fault Refusal := runLoad e 2 1 false s

/-- LD.s16 (R205). -/
def execLdS16 (e : Enc) (s : State) : Host.Outcome State Fault Refusal := runLoad e 2 1 true s

/-- LD.b32 (R205). -/
def execLdB32 (e : Enc) (s : State) : Host.Outcome State Fault Refusal := runLoad e 4 1 false s

/-- LD.b64 (R205). -/
def execLdB64 (e : Enc) (s : State) : Host.Outcome State Fault Refusal := runLoad e 8 2 false s

/-- LD.b128 (R205). -/
def execLdB128 (e : Enc) (s : State) : Host.Outcome State Fault Refusal := runLoad e 16 4 false s

/-- A global store of `size` bytes from `k` registers, read at issue. -/
def runStore (e : Enc) (size k : Nat) (s : State) : Host.Outcome State Fault Refusal :=
  let g := issueGroup s
  runForm (formMem k k [0, 2] true) true e
    (plainIssue .st .lsu .store size false size e
      (recorded e (storeLane size fun l => readLocs g l k (rdLoc e)))) s

/-- ST.b8 (R205). -/
def execStB8 (e : Enc) (s : State) : Host.Outcome State Fault Refusal := runStore e 1 1 s

/-- ST.b16 (R205). -/
def execStB16 (e : Enc) (s : State) : Host.Outcome State Fault Refusal := runStore e 2 1 s

/-- ST.b32 (R205). -/
def execStB32 (e : Enc) (s : State) : Host.Outcome State Fault Refusal := runStore e 4 1 s

/-- ST.b64 (R205). -/
def execStB64 (e : Enc) (s : State) : Host.Outcome State Fault Refusal := runStore e 8 2 s

/-- ST.b128 (R205). -/
def execStB128 (e : Enc) (s : State) : Host.Outcome State Fault Refusal := runStore e 16 4 s

/-- A deck load of `k` registers. -/
def runDeckLoad (e : Enc) (k : Nat) (s : State) : Host.Outcome State Fault Refusal :=
  runForm (formDeck k [0, 1]) true e (deckIssue .ld (4 * k) true e (loadLane (4 * k) k (rdLoc e) false)) s

/-- LDD.b32 (R205). -/
def execLddB32 (e : Enc) (s : State) : Host.Outcome State Fault Refusal := runDeckLoad e 1 s

/-- LDD.b64 (R205). -/
def execLddB64 (e : Enc) (s : State) : Host.Outcome State Fault Refusal := runDeckLoad e 2 s

/-- LDD.b128 (R205). -/
def execLddB128 (e : Enc) (s : State) : Host.Outcome State Fault Refusal := runDeckLoad e 4 s

/-- A deck store of `k` registers. -/
def runDeckStore (e : Enc) (k : Nat) (s : State) : Host.Outcome State Fault Refusal :=
  let g := curGroup s
  runForm (formDeck k [0, 2]) true e
    (deckIssue .st (4 * k) false e (storeLane (4 * k) fun l => readLocs g l k (rdLoc e))) s

/-- STD.b32 (R205). -/
def execStdB32 (e : Enc) (s : State) : Host.Outcome State Fault Refusal := runDeckStore e 1 s

/-- STD.b64 (R205). -/
def execStdB64 (e : Enc) (s : State) : Host.Outcome State Fault Refusal := runDeckStore e 2 s

/-- STD.b128 (R205). -/
def execStdB128 (e : Enc) (s : State) : Host.Outcome State Fault Refusal := runDeckStore e 4 s

/-! ### GLD (R206, R207) -/

/-- A gather of naturally aligned elements: the result of a load (log 63, DEDUCED). -/
def runGather (e : Enc) (size k : Nat) (s : State) : Host.Outcome State Fault Refusal :=
  runForm { formMem k k [0] false with u := .zero } true e
    (plainIssue .ld .gather .load size true size e (loadLane size k (rdLoc e) false)) s

/-- GLD.z8 (R206). -/
def execGldZ8 (e : Enc) (s : State) : Host.Outcome State Fault Refusal := runGather e 1 1 s

/-- GLD.b16 (R206). -/
def execGldB16 (e : Enc) (s : State) : Host.Outcome State Fault Refusal := runGather e 2 1 s

/-- GLD.b32 (R206). -/
def execGldB32 (e : Enc) (s : State) : Host.Outcome State Fault Refusal := runGather e 4 1 s

/-- GLD.b64 (R206). -/
def execGldB64 (e : Enc) (s : State) : Host.Outcome State Fault Refusal := runGather e 8 2 s

/-! ### ATOM (R208 to R210) -/

/-- An ATOM word with `n` data registers aligned to `align`: an even address pair, or one register with `.deck`. -/
def formAtom (n align : Nat) (e : Enc) : Form :=
  { rd := .reg n align, ra := if memDeck e then .reg 1 1 else .reg 2 2, rb := .imm, u := .zero,
    mem := some ⟨[0, 1, 2, 3], true, false⟩ }

/-- An atomic of `size` bytes over `n` registers, `k` of them written. -/
def runAtomWith (e : Enc) (n align size : Nat) (perf : Group → Perform) (s : State) : Host.Outcome State Fault Refusal :=
  let g := issueGroup s
  runForm (formAtom n align e) true e (fun s =>
    if memDeck e then deckIssue .ld size true e (perf g) s
    else plainIssue .ld .lsu .atomic size true size e (recorded e (perf g)) s) s

/-- A one-register atomic: `f m x` is the new value; rd receives the old. -/
def runAtom (e : Enc) (f : Nat → Nat → Nat × Flags) (s : State) : Host.Outcome State Fault Refusal :=
  runAtomWith e 1 1 4 (fun g => atomLane 4 1 (rdLoc e) fun lane m =>
    let r := f m (readLoc g lane (rdLoc e)).toNat
    (r.1, wordsOf 1 m, r.2)) s

/-- An integer operation without flags. -/
def rmwPlain (f : Nat → Nat → Nat) (m x : Nat) : Nat × Flags := (f m x, noFlags)

/-- ATOM.add.s32 (R208). -/
def execAtomAddS32 (e : Enc) (s : State) : Host.Outcome State Fault Refusal := runAtom e (rmwPlain fun m x => (m + x) % 2 ^ 32) s

/-- ATOM.min.s32 (R208). -/
def execAtomMinS32 (e : Enc) (s : State) : Host.Outcome State Fault Refusal :=
  runAtom e (rmwPlain fun m x => if signedOf 32 x < signedOf 32 m then x else m) s

/-- ATOM.max.s32 (R208). -/
def execAtomMaxS32 (e : Enc) (s : State) : Host.Outcome State Fault Refusal :=
  runAtom e (rmwPlain fun m x => if signedOf 32 m < signedOf 32 x then x else m) s

/-- ATOM.and.b32 (R208). -/
def execAtomAndB32 (e : Enc) (s : State) : Host.Outcome State Fault Refusal := runAtom e (rmwPlain (· &&& ·)) s

/-- ATOM.or.b32 (R208). -/
def execAtomOrB32 (e : Enc) (s : State) : Host.Outcome State Fault Refusal := runAtom e (rmwPlain (· ||| ·)) s

/-- ATOM.xor.b32 (R208). -/
def execAtomXorB32 (e : Enc) (s : State) : Host.Outcome State Fault Refusal := runAtom e (rmwPlain (· ^^^ ·)) s

/-- ATOM.xchg.b32 (R208). -/
def execAtomXchgB32 (e : Enc) (s : State) : Host.Outcome State Fault Refusal := runAtom e (rmwPlain fun _ x => x) s

/-- A compare and swap of `k` registers: expected from rd, new from rd + k; rd receives the old value (R208). -/
def casLane (e : Enc) (k : Nat) (g : Group) : Perform :=
  atomLane (4 * k) k (rdLoc e) fun lane m =>
    let expected := readLocs g lane k (rdLoc e)
    let new := readLocs g lane k (locAdd k (rdLoc e))
    (if m = expected then new else m, wordsOf k m, noFlags)

/-- ATOM.cas.b32 (R208). -/
def execAtomCasB32 (e : Enc) (s : State) : Host.Outcome State Fault Refusal := runAtomWith e 2 2 4 (casLane e 1) s

/-- ATOM.cas.b64 (R208). -/
def execAtomCasB64 (e : Enc) (s : State) : Host.Outcome State Fault Refusal := runAtomWith e 4 4 8 (casLane e 2) s

/-- ATOM.add.f32 (R208). -/
def execAtomAddF32 (e : Enc) (s : State) : Host.Outcome State Fault Refusal := runAtom e (floatAdd fp32 .rne) s

/-- One lane of ATOM.xadd: add_term of an X320 on the line's first 40 bytes; bits [319:312] are written 0 (R210). Uncorrectable data
anywhere in the 64-byte line stop it, though the add reads only 40 bytes of it (log 82, DESIGN CHOICE). -/
def xaddLane (e : Enc) (g : Group) : Perform := fun a lane sp =>
  atomLane 40 0 (rdLoc e) (fun lane m =>
    (natOfExact (exactAdd (exactOfNat m) (exactOfNat (readLocs g lane 10 (rdLoc e)))) % 2 ^ 312, [], noFlags))
    a lane sp

/-- ATOM.xadd (R210). -/
def execAtomXadd (e : Enc) (s : State) : Host.Outcome State Fault Refusal := runAtomWith e 10 2 64 (xaddLane e) s

/-- One lane of ATOM.bump (R209): after a failure on a cell every later lane of the instruction fails there. An increment of 0 on a cell whose
count is above its limit fails, as R209's pseudocode has it, though its text says that 0 does not fail (log 83, DESIGN CHOICE). -/
def bumpLane (e : Enc) (g : Group) : Perform := fun a lane sp =>
  let a := { a with s := settleSpot 8 sp a.s }
  let n := (readLoc g lane (rdLoc e)).toNat
  let cell := bytesToNat (readSpot (seenBy a sp) 8 sp)
  let c := cell % 2 ^ 32
  let limit := cell / 2 ^ 32
  if spotPoisoned a.s sp || (!a.failed.contains (spotKey sp) && decide (c + n ≤ limit)) then
    atomLane 8 1 (rdLoc e) (fun _ _ => (c + n + 2 ^ 32 * limit, wordsOf 1 c, noFlags)) a lane sp
  else { a with writes := a.writes ++ regWrites (rdLoc e) lane 0 [0xFFFFFFFF], failed := spotKey sp :: a.failed }

/-- ATOM.bump (R209). -/
def execAtomBump (e : Enc) (s : State) : Host.Outcome State Fault Refusal := runAtomWith e 2 2 8 (bumpLane e) s

/-! ### The tag table (R211, R212) -/

/-- The first slot of a key's set (R211). -/
def tagBase (t k : Nat) : Nat :=
  let h := bitsOf (k * 0x5851F42D4C95 % 2 ^ 48) 47 40
  4 * (h / 2 ^ (8 - Nat.log2 (t / 4)))

/-- A tag entry. -/
def tagAt (sp : Span) (i : Nat) : TagEntry := (sp.tags[i]?).getD ⟨false, 0, 0⟩

/-- The slot of a key that is present. -/
def tagFind (sp : Span) (k : Nat) : Option Nat :=
  let b := tagBase sp.tags.length k
  ((upTo 4).map (b + ·)).find? fun i => (tagAt sp i).valid && (tagAt sp i).key.toNat == k

/-- An entry rewritten as the most recent (log 78, DEDUCED). -/
def tagTouch (i : Nat) (f : TagEntry → TagEntry) (sp : Span) : Span :=
  { sp with tags := listSet (fun t => { f t with used := sp.tagClock + 1 }) i sp.tags, tagClock := sp.tagClock + 1 }

/-- The least recent slot of a set. -/
def tagVictim (sp : Span) (b : Nat) : Nat :=
  ((upTo 4).map (b + ·)).foldl (fun best i => if (tagAt sp i).used < (tagAt sp best).used then i else best) b

/-- What a tag instruction does with one key: the span and the result (R212). -/
abbrev TagOp := Nat → Span → Span × Word

/-- TAGL on a key. -/
def tagLookup : TagOp := fun k sp =>
  match tagFind sp k with
  | some i => (tagTouch i id sp, BitVec.ofNat 32 i)
  | none => (sp, 0xFFFFFFFF)

/-- TAGI on a key. -/
def tagInstall : TagOp := fun k sp =>
  match tagFind sp k with
  | some i => (tagTouch i id sp, BitVec.ofNat 32 i)
  | none =>
    let b := tagBase sp.tags.length k
    match ((upTo 4).map (b + ·)).find? fun i => !(tagAt sp i).valid with
    | some i => (tagTouch i (fun t => { t with valid := true, key := BitVec.ofNat 48 k }) sp, BitVec.ofNat 32 i)
    | none => (sp, BitVec.ofNat 32 (0x80000000 + tagVictim sp b))

/-- TAGE on a key. -/
def tagEvict : TagOp := fun k sp =>
  match tagFind sp k with
  | some i => ({ sp with tags := listSet (fun t => { t with valid := false }) i sp.tags }, BitVec.ofNat 32 i)
  | none => (sp, 0xFFFFFFFF)

/-- The lanes' keys applied in ascending order (R212) (log 78, DEDUCED). -/
def tagLanes (rd : Loc) (op : TagOp) : List (Nat × Nat) → Span → List OpWrite → Span × List OpWrite
  | [], sp, ws => (sp, ws)
  | (lane, k) :: rest, sp, ws =>
    let (sp, v) := op k sp
    tagLanes rd op rest sp (ws ++ [regWrite rd lane 0 v])

/-- A tag instruction: applied at issue, its results written at completion (R212). -/
def tagBody (e : Enc) (op : TagOp) : State → State := guardedOp e fun s =>
  let g := curGroup s
  let lanes := actLanes e s
  match curSpan s with
  | none => s
  | some sp =>
    if counter g .ld = 63 then s
    else if sp.tags.isEmpty then faultWith 2 5 lanes s
    else
      let keys := (accessLanes e.u lanes).map fun l => (l, readLocs g l 2 (raLoc e) % 2 ^ 48)
      let (sp', ws) := tagLanes (rdLoc e) op keys sp []
      let s := modSpan s (curSid s) fun sp => { sp with tags := sp'.tags, tagClock := sp'.tagClock }
      let s := modCur s (issueOp .ld .lsu lanes)
      advance (wordLen e) (addToOp g.opCount { Acc.start s g.opCount none none with writes := ws } [] false true)

/-- The form of the tag instructions. -/
def formTag : Form := { rd := .reg 1 1, ra := .reg 2 2, rb := .unused, mem := some ⟨[0], false, false⟩ }

/-- TAGL (R212). -/
def execTagl (e : Enc) (s : State) : Host.Outcome State Fault Refusal := runForm formTag true e (tagBody e tagLookup) s

/-- TAGI (R212). -/
def execTagi (e : Enc) (s : State) : Host.Outcome State Fault Refusal := runForm formTag true e (tagBody e tagInstall) s

/-- TAGE (R212). -/
def execTage (e : Enc) (s : State) : Host.Outcome State Fault Refusal := runForm formTag true e (tagBody e tagEvict) s

/-! ### CCTL (R213) -/

/-- The 64-byte block at a spot leaves every pier's fetched copies. -/
def dropCode (sp : Spot) (s : State) : State :=
  match sp with
  | .glob ({ at_ := .mem key, .. } :: _) => { s with icache := s.icache.filter fun b => b.2.1 != key / 64 * 64 }
  | _ => s

/-- One lane of CCTL codes 0 to 2: `.icinv` discards fetched copies; `.wb` and `.wbinv` move lines whose values memory already holds in
this model (log 1, DESIGN CHOICE), `.wbinv` removing the line with its release record (R96). -/
def cctlLane (code : Nat) : Perform := fun a _ sp =>
  match code, sp with
  | 0, _ => { a with s := dropCode sp a.s }
  | 2, .glob ps =>
    let die := curPier a.s / 64
    { a with s := { a.s with releases := a.s.releases.filter fun r => !(r.1 == die && (partLines ps).contains r.2.1) } }
  | _, _ => a

/-- A counted operation with no access that can fault: the effect is done at issue. -/
def plainOp (cls : OpClass) (e : Enc) (effect : State → State) : State → State := guardedOp e fun s =>
  let g := curGroup s
  if counter g cls = 63 then s
  else advance (wordLen e) (modCur (effect s) (issueOp cls .lsu (actLanes e s)))

/-- CCTL (R213): on a peer window codes 0 to 2 send a flit and complete with the owner's answer (log 84, DESIGN CHOICE); codes 0 to 2 translate as a load of the byte addressed, `.pref` never faults and changes no value, `.icinv.all` discards
every fetched copy where a lane is active. -/
def execCctl (e : Enc) (s : State) : Host.Outcome State Fault Refusal :=
  let code := e.rd.toNat
  runForm { rd := .index 5, ra := .reg 2 2, rb := .imm, mem := some ⟨[0], false, false⟩ } true e (fun s =>
    if code = 3 then plainOp .st e id s
    else if code = 4 then plainOp .st e (fun s => if actLanes e s == 0 then s else { s with icache := [] }) s
    else plainIssue .st .lsu .load 1 false 64 e (cctlLane code) s) s

end Sys2Proof.Machine
end

