-- ==== Sys2Proof/Machine/Control.lean ====
section
/-!
DEFINITION. Control flow, barriers, waits and traps (R177 to R197), with the divergence rules of R121 to R127.
-/

namespace Sys2Proof.Machine

/-- The address of the instruction word itself, past its XP (R178) (log 60, DEDUCED). -/
def wordAddr (e : Enc) (s : State) : Va := curPc s + BitVec.ofNat 57 (wordLen e - 4)

/-- An address moved by a signed number of bytes. -/
def vaAdd (a : Va) (d : Int) : Va := a + BitVec.ofInt 57 d

/-- The issuing group runs the trap handler (R221). -/
def inHandler (s : State) : Bool :=
  match curSpan s with
  | none => false
  | some sp => sp.handler == some (curNum s)

/-- A live slice of the issuing group. -/
def curSlice (s : State) (k : Nat) : Slice := ((curGroup s).slices[k]?).getD (Slice.start 0)

/-! ### The reconvergence stack (R125) -/

/-- The 16 bytes of a stack entry in memory (R125). -/
def stackEntryBytes (en : StackEntry) : List Byte :=
  natToBytes 8 (en.rpc.toNat + 2 ^ 57 * en.dmask.toNat) ++ natToBytes 8 en.dpc.toNat

/-- A stack entry read from its 16 bytes. -/
def stackEntryOf (bs : List Byte) : StackEntry :=
  let lo := bytesToNat (bs.take 8)
  ⟨BitVec.ofNat 57 lo, BitVec.ofNat 4 (lo / 2 ^ 57), BitVec.ofNat 57 (bytesToNat (bs.drop 8))⟩

/-- Whether the memory system refuses a context-area access: a byte beyond the tiers, or an uncorrectable granule (R125). -/
def areaRefused (s : State) (a : Nat) : Bool :=
  decide (0x24000000000 ≤ a + 511) || (upTo 64).any fun i => cellGet 0 s.poison (areaKey (a + 8 * i) / 8) != 0

/-- Bytes of a context area, from address `a` on. -/
def areaRead (s : State) (a n : Nat) : List Byte := (upTo n).map fun i => cellGet emptyByte s.mem (areaKey (a + i))

/-- Bytes written to a context area. -/
def areaWrite (a : Nat) (bs : List Byte) (s : State) : State :=
  { s with mem := cellSetAll emptyByte s.mem ((upTo bs.length).map fun i => (areaKey (a + i), (bs[i]?).getD 0)) }

/-- A push: a full on-chip stack first spills its 32 entries, the oldest first in the block. -/
def pushEntry (sp : Span) (g k : Nat) (en : StackEntry) (s : State) (sl : Slice) : State × Slice :=
  if sl.stack.length < 32 then (s, { sl with stack := en :: sl.stack })
  else
    let a := spillBlock sp g k sl.spilled
    (areaWrite a ((sl.stack.reverse.map stackEntryBytes).flatten) s, { sl with stack := [en], spilled := sl.spilled + 1 })

/-- Whether a push onto a slice's stack faults 0:13: beyond 288 entries, or a refused spill. -/
def pushFaults (s : State) (sp : Span) (g k : Nat) (sl : Slice) : Bool :=
  decide (288 ≤ stackDepth sl) || (sl.stack.length == 32 && areaRefused s (spillBlock sp g k sl.spilled))

/-- The 32 entries of a spilled block, top first. -/
def reloadBlock (s : State) (a : Nat) : List StackEntry :=
  ((upTo 32).map fun i => stackEntryOf (areaRead s (a + 16 * i) 16)).reverse

/-- A slice whose on-chip stack is empty while blocks are spilled, with the most recent one reloaded (log 59, DEDUCED). -/
def reloaded (s : State) (sp : Span) (g k : Nat) (sl : Slice) : Slice :=
  if sl.stack.isEmpty && sl.spilled != 0 then
    { sl with stack := reloadBlock s (spillBlock sp g k (sl.spilled - 1)), spilled := sl.spilled - 1 }
  else sl

/-- Whether that reload is refused (log 59, DEDUCED). -/
def reloadFaults (s : State) (sp : Span) (g k : Nat) (sl : Slice) : Bool :=
  sl.stack.isEmpty && sl.spilled != 0 && areaRefused s (spillBlock sp g k (sl.spilled - 1))

/-- A slice of the issuing group rewritten. -/
def setSlice (k : Nat) (sl : Slice) (s : State) : State := modCur s fun g => { g with slices := listSet (fun _ => sl) k g.slices }

/-! ### Branches, jumps and calls (R178, R179) -/

/-- A branch that a q guard may stop: a false guard leaves only the advance (R65) (log 69, DEDUCED). -/
def guardedJump (e : Enc) (jump : State → State) (s : State) : State :=
  if e.u && !qGuard e s then advance (wordLen e) s else jump s

/-- The B form of the branches. -/
def formB : Form := { rd := .imm, ra := .imm, rb := .imm, xp := .layoutB, guard := .zeroLane, prologue := true }

/-- BRA (R178). -/
def execBra (e : Enc) (s : State) : Host.Outcome State Fault Refusal :=
  runForm formB true e (guardedJump e fun s => setPc s (vaAdd (wordAddr e s) (2 * offsetB e))) s

/-- The 57-bit target in a register pair {h[24:0], l} (R178). -/
def pairTarget (x : Nat) : Va := BitVec.ofNat 57 x

/-- The target of JMPR or CALLR: every active lane holds the same one under U = 0. `none`: no active lane; `some none`: they differ. -/
def jumpTarget (e : Enc) (s : State) : Option (Option Va) :=
  let g := curGroup s
  if e.u then some (some (pairTarget (readLocs g 0 2 (raLoc e))))
  else
    match laneList (gangLanes s) with
    | [] => none
    | l :: rest =>
      let t := pairTarget (readLocs g l 2 (raLoc e))
      if rest.all fun i => pairTarget (readLocs g i 2 (raLoc e)) == t then some (some t) else some none

/-- A jump to an address; an odd one faults 0:4 with no change (R178). -/
def jumpTo (t : Va) (s : State) : State :=
  if t.getLsbD 0 then faultWith 0 4 (gangLanes s) s else setPc s t

/-- The CALL link: g62 and g63 take the address after the word (R178). -/
def writeLink (e : Enc) (s : State) : State :=
  let a := (wordAddr e s + 4).toNat
  modCur s fun g => writeG 63 (BitVec.ofNat 32 (a / 2 ^ 32)) (writeG 62 (BitVec.ofNat 32 a) g)

/-- A jump through a register pair, `link` writing what the instruction leaves behind. -/
def jumpPair (e : Enc) (link : State → State) (s : State) : State :=
  match jumpTarget e s with
  | none => advance (wordLen e) s
  | some none => faultWith 0 11 (gangLanes s) s
  | some (some t) => if t.getLsbD 0 then faultWith 0 4 (gangLanes s) s else setPc (link s) t

/-- The RR form of JMPR and CALLR. -/
def formJump : Form :=
  { rd := .unused, ra := .reg 2 2, rb := .unused, guard := .zeroLane, prologue := true }

/-- JMPR (R178). Under a control chapter XP its payload is 0 (R177). -/
def execJmpr (e : Enc) (s : State) : Host.Outcome State Fault Refusal :=
  runForm { formJump with xp := .zero } true e (guardedJump e (jumpPair e id)) s

/-- An instruction that only a gang holding every live slice may issue faults 0:11 otherwise, with the lanes active after its guard (R127,
R177, R220) (log 57, DEDUCED). -/
def needWholeFor (lanes : State → LaneMask) (body : State → State) (s : State) : State :=
  if wholeGang s then body s else faultWith 0 11 (lanes s) s

/-- The same of an instruction without a lane guard (log 57, DEDUCED). -/
def needWhole (body : State → State) (s : State) : State := needWholeFor gangLanes body s

/-- CALL (R178). -/
def execCall (e : Enc) (s : State) : Host.Outcome State Fault Refusal :=
  runForm formB true e
    (guardedJump e (needWhole fun s => setPc (writeLink e s) (vaAdd (wordAddr e s) (2 * offsetB e)))) s

/-- CALLR (R178): the target is read first, then the link is written. -/
def execCallr (e : Enc) (s : State) : Host.Outcome State Fault Refusal :=
  runForm { formJump with xp := .zero } true e (guardedJump e (needWhole (jumpPair e (writeLink e)))) s

/-- RET (R178). -/
def execRet (e : Enc) (s : State) : Host.Outcome State Fault Refusal :=
  runForm { rd := .unused, ra := .unused, rb := .unused, xp := .zero, guard := .zeroLane, prologue := true } true e
    (guardedJump e (needWhole fun s => jumpTo (pairTarget (readWords (readG (curGroup s)) 62 2)) s)) s

/-- How a slice takes a BRD: its taken and its remaining lanes (R122). -/
def brdSplit (taken : LaneMask) (s : State) (k : Nat) : BitVec 4 × BitVec 4 :=
  let act := (curSlice s k).act
  let tk := act &&& maskOfSlice k taken
  (tk, act &&& ~~~tk)

/-- Lane divergence in BRD: every slice of the gang pushes and takes the branch (R122). -/
def brdPush (sp : Span) (taken : LaneMask) (rpc fall target : Va) (s : State) : State :=
  (curSlices s).foldl (fun acc k =>
    let (tk, nt) := brdSplit taken s k
    let (acc', sl) := pushEntry sp (curNum s) k ⟨rpc, nt, fall⟩ acc (curSlice acc k)
    setSlice k { sl with act := tk, pc := target } acc') s

/-- BRD (R122, R179). Guard 0 makes it a BRA, also where no lane is active; under another guard a gang without an active lane goes on at the
address after the word, R122 giving both cases of its agreement there (log 79, DESIGN CHOICE). -/
def brdBody (e : Enc) (s : State) : State :=
  let taken := guardedLanes (guardNum e) s
  let a := wordAddr e s
  let target := vaAdd a (2 * simmRj e)
  if guardNum e = 0 then setPc s target else
  let fall := a + 4
  let rpc := a + 4 + BitVec.ofNat 57 (8 * e.rd.toNat)
  let ks := curSlices s
  let splits := ks.map (brdSplit taken s)
  if splits.any fun p => p.1 != 0 && p.2 != 0 then
    match curSpan s with
    | none => s
    | some sp =>
      if ks.any fun k => pushFaults s sp (curNum s) k (curSlice s k) then faultWith 0 13 taken s
      else brdPush sp taken rpc fall target s
  else if splits.all fun p => p.2 == 0 then
    setPc s (if splits.any fun p => p.1 != 0 then target else fall)
  else if splits.all fun p => p.1 == 0 then setPc s fall
  else
    ks.foldl (fun acc k =>
      let sl := curSlice s k
      let tk := (brdSplit taken s k).1
      setSlice k { sl with pc := if tk != 0 then target else fall, part := some (stackDepth sl) } acc) s

/-- BRD (R122, R179). -/
def execBrd (e : Enc) (s : State) : Host.Outcome State Fault Refusal :=
  runForm { rd := .imm, ra := .imm, rb := .imm, xp := .layoutB, u := .zero } true e (brdBody e) s

/-! ### RECONV, REGANG, PART, EXIT (R123 to R126) -/

/-- The form of RECONV, REGANG, PART and RTE: no operand, U = 0, no guard. -/
def formBare : Form := { rd := .unused, ra := .unused, rb := .unused, xp := .zero, u := .zero, guard := .zero }

/-- RECONV on one slice at address `a` (R123): its new state (log 59, DEDUCED). -/
def reconvSlice (a : Va) (len : Nat) (sl : Slice) : Slice :=
  match sl.stack with
  | [] => { sl with pc := sl.pc + BitVec.ofNat 57 len }
  | en :: rest =>
    if en.rpc ≠ a then { sl with pc := sl.pc + BitVec.ofNat 57 len }
    else if !en.dpc.getLsbD 0 then
      { sl with
        act := en.dmask &&& sl.live
        pc := en.dpc
        stack := { en with dmask := sl.act, dpc := en.dpc ||| 1 } :: rest }
    else { sl with act := (sl.act ||| en.dmask) &&& sl.live, stack := rest, pc := sl.pc + BitVec.ofNat 57 len }

/-- RECONV would merge below the depth at which its slice parted (R123). -/
def reconvFaults (a : Va) (sl : Slice) : Bool :=
  match sl.stack, sl.part with
  | en :: _, some d => en.rpc == a && decide (stackDepth sl ≤ d)
  | _, _ => false

/-- RECONV (R123). -/
def execReconv (e : Enc) (s : State) : Host.Outcome State Fault Refusal :=
  runForm formBare true e (fun s =>
    match curSpan s with
    | none => s
    | some sp =>
      let a := wordAddr e s
      let ks := curSlices s
      let g := curNum s
      if ks.any fun k => reloadFaults s sp g k (curSlice s k) then faultWith 0 13 (gangLanes s) s
      else if ks.any fun k => reconvFaults a (reloaded s sp g k (curSlice s k)) then faultWith 0 11 (gangLanes s) s
      else ks.foldl (fun acc k => setSlice k (reconvSlice a (wordLen e) (reloaded s sp g k (curSlice s k))) acc) s) s

/-- The address of the REGANG word that a slice waits at, past its XP. -/
def regangAddr (sl : Slice) : Va := sl.pc + BitVec.ofNat 57 (sl.regangLen - 4)

/-- The slices waiting at REGANG re-form the gang past it, or fault 0:12 where the addresses of their words differ (R126) (log 60, DEDUCED). -/
def reexamine (sid gn : Nat) (s : State) : State :=
  match findGroup s sid gn with
  | none => s
  | some g =>
    let live := (upTo 8).filter fun k => ((g.slices[k]?).map sliceLive).getD false
    let pcs := live.map fun k => ((g.slices[k]?).map regangAddr).getD (0 : Va)
    match pcs with
    | [] => s
    | p :: rest =>
      if live.all fun k => ((g.slices[k]?).map Slice.atRegang).getD false then
        if rest.all (· == p) then
          modGroup s sid gn fun g => modSlices g live fun sl => { sl with part := none, atRegang := false, pc := p + 4 }
        else
          takeTrap sid gn (causeOf 0 12) (lanesOfSlices g live (·.act))
            (modGroup s sid gn fun g => modSlices g live fun sl => { sl with atRegang := false })
      else s

/-- REGANG (R126): a ganged group goes on; a parted slice above its part depth faults 0:11, else waits at the instruction, its XP included
(R75) (log 60, DEDUCED). -/
def execRegang (e : Enc) (s : State) : Host.Outcome State Fault Refusal :=
  runForm formBare true e (fun s =>
    match issuerSlice s with
    | none => advance (wordLen e) s
    | some k =>
      let sl := curSlice s k
      if decide ((sl.part.getD 0) < stackDepth sl) then faultWith 0 11 (gangLanes s) s
      else reexamine (curSid s) (curNum s) (setSlice k { sl with atRegang := true, regangLen := wordLen e } s)) s

/-- PART (R126): every live slice becomes parted at its depth; without effect from a parted slice. -/
def execPart (e : Enc) (s : State) : Host.Outcome State Fault Refusal :=
  runForm formBare true e (fun s =>
    match issuerSlice s with
    | some _ => advance (wordLen e) s
    | none => advance (wordLen e) (modCur s fun g =>
        modSlices g (gangSlices g none) fun sl => { sl with part := some (stackDepth sl) })) s

/-- Lanes leave the issuing gang (R124): where every slice of it is left without active lanes but with a stack, it goes to the top entry's
reconvergence point (log 59, DEDUCED). -/
def exitBody (e : Enc) (lanes : LaneMask) (s : State) : State :=
  let ks := curSlices s
  let s := modCur s fun g => ks.foldl (fun acc k => modSlices acc [k] fun sl =>
    { sl with act := sl.act &&& ~~~(maskOfSlice k lanes), live := sl.live &&& ~~~(maskOfSlice k lanes) }) g
  let sid := curSid s
  let gn := curNum s
  match curSpan s with
  | none => s
  | some sp =>
    let empty := ks.all fun k => (curSlice s k).act == 0
    let after := ks.foldl (fun acc k =>
      let sl := curSlice s k
      if sl.live == 0 then acc
      else
        let sl := if empty then reloaded s sp gn k sl else sl
        let pc := match sl.stack with
          | en :: _ => if empty then en.rpc else sl.pc + BitVec.ofNat 57 (wordLen e)
          | [] => sl.pc + BitVec.ofNat 57 (wordLen e)
        setSlice k { sl with pc := pc } acc) s
    let stopped := ks.any fun k => (curSlice after k).live == 0
    if groupExited (curGroup after) then groupExit sid gn after
    else if stopped then reexamine sid gn after
    else after

/-- Some slice of the gang stays live without an active lane in any slice, and its top entry must be reloaded from a block that the memory
system refuses (R124, R125). -/
def exitReloadFaults (lanes : LaneMask) (s : State) : Bool :=
  let ks := curSlices s
  match curSpan s with
  | none => false
  | some sp =>
    (ks.all fun k => (curSlice s k).act &&& ~~~(maskOfSlice k lanes) == 0) &&
    ks.any fun k => (curSlice s k).live &&& ~~~(maskOfSlice k lanes) != 0 && reloadFaults s sp (curNum s) k (curSlice s k)

/-- EXIT 0 (R124): a refused reload of the top entry faults 0:13 with no change (R125) (log 59, DEDUCED). -/
def exitLanes (e : Enc) (lanes : LaneMask) (s : State) : State :=
  if exitReloadFaults lanes s then faultWith 0 13 lanes s else exitBody e lanes s

/-- EXIT (R181): 0 removes the lanes active after the guard, 1 kills the span with %tcause; other values fault 0:0. -/
def execExit (e : Enc) (s : State) : Host.Outcome State Fault Refusal :=
  runForm { rd := .unused, ra := .imm, rb := .imm, xp := .zero, u := .zero } (immRj e < 2) e (fun s =>
    let lanes := guardedLanes (guardNum e) s
    if lanes == 0 then advance (wordLen e) s
    else if immRj e = 0 then exitLanes e lanes s
    else killSpan (curSid s) (curGroup s).tcause s) s

/-! ### Named barriers (R183 to R189) -/

/-- The form of the barrier instructions: an RJ word without a register. -/
def formBar : Form := { rd := .unused, ra := .imm, rb := .imm, xp := .zero, u := .zero, guard := .zero }

/-- An instruction barred in a trap handler faults 0:2 there (R221) (log 57, DEDUCED). -/
def notInHandler (body : State → State) (s : State) : State :=
  if inHandler s then faultWith 0 2 (gangLanes s) s else body s

/-- The issuing span rewritten. -/
def modCurSpan (s : State) (f : Span → Span) : State := modSpan s (curSid s) f

/-- Barrier `k` of the issuing span. -/
def curBarrier (s : State) (k : Nat) : Barrier := ((curSpan s).map fun sp => spanBarrier sp k).getD Barrier.reset

/-- BAR.INIT's fields (R184). -/
def barIndex (e : Enc) : Nat := immRj e % 16
def barAuto (e : Enc) : Bool := (immRj e).testBit 4
def barCount (e : Enc) : Nat := immRj e / 32

/-- BAR.INIT (R184). -/
def execBarInit (e : Enc) (s : State) : Host.Outcome State Fault Refusal :=
  runForm { formBar with xp := .layoutB } (decide (1 ≤ barCount e) && decide (barCount e ≤ 65535)) e
    (notInHandler (needWhole fun s =>
      let k := barIndex e
      let c := barCount e
      let b := curBarrier s k
      if b.init && b.n == c && b.nNext == c && b.auto == barAuto e then advance (wordLen e) s
      else if b.init && (b.a != 0 || b.pend != 0) then faultWith 0 15 (gangLanes s) s
      else advance (wordLen e) (modCurSpan s fun sp =>
        let sp := modBarrier k (fun b => { b with init := true, auto := barAuto e, n := c, nNext := c, a := 0 }) sp
        { sp with groups := sp.groups.map fun g =>
            { g with arr := setBarBit g.arr k false, tok := setBarBit g.tok k false, tv := setBarBit g.tv k false } }))) s

/-- A barrier instruction traps 1:20 while an armed flag is set, before any other check of its own (R49, R185). -/
def armedCheck (body : State → State) (s : State) : State :=
  let g := curGroup s
  if g.fsr &&& g.fen != 0 then faultWith 1 20 (gangLanes s) s else body s

/-- arrive(g) of R185, once its checks have passed. -/
def arrive (k : Nat) (s : State) : State :=
  let ph := (curBarrier s k).ph
  let s := modCur s fun g =>
    { g with arr := setBarBit g.arr k true, tok := setBarBit g.tok k ph, tv := setBarBit g.tv k true }
  modCurSpan s (countArrival k)

/-- Whether arrive(g) faults 0:15. -/
def arriveFaults (k : Nat) (s : State) : Bool := !(curBarrier s k).init || (curGroup s).arr.getLsbD k

/-- The wait of the issuing gang or slice. -/
def curWait (s : State) : Option GroupWait := waitOf (curGroup s) (issuerSlice s)

/-- The issuing gang or slice no longer waits. -/
def dropWait (s : State) : State :=
  let me := issuerSlice s
  modCur s fun g => { g with waits := g.waits.filter fun w => w.slice != me }

/-- The issuing gang or slice blocks at the instruction it has issued (log 72, DEDUCED). -/
def blockOn (w : Wait) (s : State) : State :=
  let me := issuerSlice s
  let kept := ((curWait s).map (·.parked)).getD false
  let marked := ((curSpan s).map (·.marked)).getD false
  modCur (dropWait s) fun g =>
    let x : GroupWait := ⟨me, w, false, kept⟩
    { g with waits := g.waits ++ [if marked then markWait g x else x] }

/-- The wait ends and the issuing gang or slice goes on (log 72, DEDUCED). -/
def endWait (len : Nat) (s : State) : State := advance len (dropWait s)

/-- wait(g) of R185 (log 53, DEDUCED). -/
def waitBarrier (len k : Nat) (sync : Bool) (s : State) : State :=
  let g := curGroup s
  let b := curBarrier s k
  if !b.init then faultWith 0 15 (gangLanes s) s
  else
    let token := g.tv.getLsbD k
    let p := if token then g.tok.getLsbD k else b.ph
    let s := modCur s fun g => { g with tv := setBarBit g.tv k false }
    if p ≠ b.ph then advance len s
    else underrunTest (curSid s) k (blockOn (.barrier k p sync token) s)

/-- The barrier index of BAR.ARV, BAR.WAIT, BAR.SYNC and BAR.QRY; imm[11:4] must be 0. -/
def barPlain (e : Enc) : Bool := immRj e < 16

/-- BAR.ARV (R185). -/
def execBarArv (e : Enc) (s : State) : Host.Outcome State Fault Refusal :=
  runForm formBar (barPlain e) e (armedCheck (notInHandler (needWhole fun s =>
    if arriveFaults (immRj e) s then faultWith 0 15 (gangLanes s) s
    else advance (wordLen e) (arrive (immRj e) s)))) s

/-- A barrier instruction issued again after its phase has completed goes on. -/
def barResume (e : Enc) (body : State → State) (s : State) : State :=
  match curWait s with
  | none => body s
  | some w =>
    if waitsOn (immRj e) w.wait then
      (if w.woken then endWait (wordLen e) (modCur s fun g => { g with tv := setBarBit g.tv (immRj e) false }) else s)
    else body s

/-- BAR.WAIT (R185). -/
def execBarWait (e : Enc) (s : State) : Host.Outcome State Fault Refusal :=
  runForm formBar (barPlain e) e
    (barResume e (armedCheck (notInHandler (needWhole (waitBarrier (wordLen e) (immRj e) false))))) s

/-- BAR.SYNC (R185): arrive, then wait (log 53, DEDUCED). -/
def execBarSync (e : Enc) (s : State) : Host.Outcome State Fault Refusal :=
  runForm formBar (barPlain e) e (barResume e (armedCheck (notInHandler (needWhole fun s =>
    if arriveFaults (immRj e) s then faultWith 0 15 (gangLanes s) s
    else waitBarrier (wordLen e) (immRj e) true (arrive (immRj e) s))))) s

/-- The word BAR.QRY writes (R189). -/
def barWord (b : Barrier) (arrived : Bool) : Nat :=
  (if b.init then b.n - b.a else 0) % 2 ^ 16 * 2 ^ 16 + min b.pend 255 * 2 ^ 8 + (if arrived then 8 else 0) + (if b.ph then 4 else 0)
    + (if b.auto then 2 else 0) + (if b.init then 1 else 0)

/-- BAR.QRY (R189). -/
def execBarQry (e : Enc) (s : State) : Host.Outcome State Fault Refusal :=
  runForm { rd := .reg 1 1, ra := .imm, rb := .imm, xp := .zero } (barPlain e) e (fun s =>
    let v := barWord (curBarrier s (immRj e)) ((curGroup s).arr.getLsbD (immRj e))
    aluBody e [] (rdLocB e) 1 (fun _ => (v, noFlags)) s) s

/-! ### Waits and fences (R190 to R195) -/

/-- Every class is at most its threshold. -/
def countersMet (g : Group) (ts : List (OpClass × Nat)) : Bool := ts.all fun t => decide (counter g t.1 ≤ t.2)

/-- The thresholds waited for already, or those of the instruction. -/
def waitThresholds (w : Option GroupWait) (fresh : List (OpClass × Nat)) : List (OpClass × Nat) :=
  match w.map GroupWait.wait with
  | some (.counters ts) => ts
  | _ => fresh

/-- A wait on counters: on, or blocked with the thresholds read at issue (log 72, DEDUCED). -/
def waitCounters (len : Nat) (fresh : List (OpClass × Nat)) (s : State) : State :=
  let ts := waitThresholds (curWait s) fresh
  if countersMet (curGroup s) ts then endWait len s else blockOn (.counters ts) s

/-- The classes in the order of WAITC's fields and WAITR's codes. -/
def classList : List OpClass := [.ld, .st, .cp, .mx, .dc, .im]

/-- WAITC's thresholds of 0 to 6 (R190). -/
def waitcThresholds (e : Enc) : List (OpClass × Nat) :=
  let n := 4096 * e.rb.toNat + 64 * e.ra.toNat + e.rd.toNat
  ((upTo 6).filterMap fun i => (classList[i]?).map fun c => (c, n / 8 ^ i % 8)).filter fun t => t.2 ≠ 7

/-- WAITC (R190). -/
def execWaitc (e : Enc) (s : State) : Host.Outcome State Fault Refusal :=
  runForm { rd := .imm, ra := .imm, rb := .imm, xp := .zero, u := .zero, guard := .zero } true e
    (waitCounters (wordLen e) (waitcThresholds e)) s

/-- WAITR (R191). -/
def execWaitr (e : Enc) (s : State) : Host.Outcome State Fault Refusal :=
  runForm { rd := .unused, ra := .groupReg 1 1, rb := .imm, xp := .layoutB, u := .one } (immRri e < 6) e (fun s =>
    if (curWait s).isNone && !qGuard e s then advance (wordLen e) s
    else
      match classList[immRri e]? with
      | none => s
      | some c => waitCounters (wordLen e) [(c, (readG (curGroup s) e.ra.toNat).toNat)] s) s

/-- YIELD (R192): parks under a pending request, a parted slice alone. -/
def execYield (e : Enc) (s : State) : Host.Outcome State Fault Refusal :=
  runForm { formBare with u := .both } true e (notInHandler fun s =>
    if ((curSpan s).map (·.marked)).getD false then blockOn .yield s
    else endWait (wordLen e) s) s

/-- FENCE's immediate is legal (R193): kind 1 to 3, scope 0 to 4, rp only with acq or ar at dev. -/
def fenceLegal (e : Enc) : Bool :=
  let i := immRj e
  let kind := i % 4
  let scope := i / 4 % 8
  i < 64 && kind != 0 && scope ≤ 4 && (i < 32 || (kind != 2 && scope == 3))

/-- FENCE (R193, R194): accesses are performed in one order in this model (log 1, DESIGN CHOICE), so the fence only goes on. -/
def execFence (e : Enc) (s : State) : Host.Outcome State Fault Refusal :=
  runForm { formBar with u := .both } (fenceLegal e) e (advance (wordLen e)) s

/-- The entries of a span in a pier's queue or its own, by queue bit, group and number (R18). -/
def queueOps (s : State) (sid : Nat) (sp : Span) (bit : Nat) : List (Nat × Nat × Nat) :=
  let pier := spanPier sp
  match bit with
  | 0 => (((keyFind pier s.matrix).getD []).filter (·.sid = sid)).map fun x => (0, x.g, x.op)
  | 1 => (((keyFind pier s.image).getD []).filter (·.sid = sid)).map fun x => (1, x.g, x.op)
  | 2 => (((keyFind pier s.raster).getD []).filter (·.sid = sid)).map fun x => (2, x.g, x.op)
  | 7 => []
  | b => ((sp.queues[b - 3]?).getD []).map fun x => (b, x.g, x.op)

/-- The condition of a QFENCE (R18, R291): none of its operations is in a queue; its PMARKs are applied and no entry due at the marker they
produced is in the window. -/
def queuesMet (s : State) (sid : Nat) (ops : List (Nat × Nat × Nat)) (pmarks : List Nat) (marker : Option Nat) : Bool :=
  match findSpan s sid with
  | none => true
  | some sp =>
    let now := ((upTo 7).map (queueOps s sid sp)).flatten
    (ops.all fun o => !now.contains o) &&
    (match findLaunch s sp.launch, marker with
      | some la, some m =>
        (la.trestle.posted.all fun p => !pmarks.contains p.1) &&
        (la.trestle.window.all fun w => decide (m < w.key)) &&
        (la.trestle.table.isNone || decide (la.trestle.entries ≤ la.trestle.next) || la.trestle.window.any fun w => decide (m < w.key))
      | _, _ => true)

/-- QFENCE (R18, R195). -/
def execQfence (e : Enc) (s : State) : Host.Outcome State Fault Refusal :=
  runForm { formBar with u := .both } (immRj e < 256) e (fun s =>
    let sid := curSid s
    match curSpan s, curLaunch s with
    | some sp, some la =>
      match (curWait s).map GroupWait.wait with
      | some (.queues ops pmarks marker) =>
        if queuesMet s sid ops pmarks marker then endWait (wordLen e) s else s
      | _ =>
        let bits := (upTo 8).filter fun b => (immRj e).testBit b
        let ops := (bits.map (queueOps s sid sp)).flatten
        let tr := la.trestle
        let pmarks := if bits.contains 7 then tr.posted.map (·.1) else []
        let marker := if bits.contains 7 then some (tr.marker + (tr.posted.map fun p => p.2.2.2).sum) else none
        if queuesMet s sid ops pmarks marker then advance (wordLen e) s else blockOn (.queues ops pmarks marker) s
    | _, _ => s) s

/-! ### Traps (R196, R197) -/

/-- A trap of the span is being taken: the issuing group skids (R218). -/
def inSkid (s : State) : Bool :=
  match curSpan s with
  | none => false
  | some sp => sp.trap.isSome

/-- TRAP and BKPT: taken after the instruction's effect, so the recorded pc is the next (R196); in a skid the group stops at the
instruction, which then has no effect (R218). Under U = 1 a true q guard traps, also with no active lane, of which R196 says both
(log 79, DESIGN CHOICE). -/
def softTrap (e : Enc) (reason : Nat) (s : State) : State :=
  let lanes := actLanes e s
  let taken := if e.u then qGuard e s else lanes != 0
  if !taken then advance (wordLen e) s
  else if inSkid s then faultWith 0 reason lanes s
  else faultWith 0 reason lanes (advance (wordLen e) s)

/-- The form of TRAP and BKPT. -/
def formTrap : Form := { rd := .unused, ra := .imm, rb := .imm, xp := .zero }

/-- TRAP (R196): cause 0:28. -/
def execTrap (e : Enc) (s : State) : Host.Outcome State Fault Refusal := runForm formTrap true e (softTrap e 28) s

/-- BKPT (R196): cause 0:27. -/
def execBkpt (e : Enc) (s : State) : Host.Outcome State Fault Refusal := runForm formTrap true e (softTrap e 27) s

/-- The handler has left a slice's %tpc, or that of the gang, where it was (log 52, DEDUCED). -/
def stays (g : Group) (slice : Option Nat) : Bool :=
  match gangSlices g slice with
  | k :: _ => ((g.slices[k]?).map fun sl => sl.tpc == sl.savedPc).getD false
  | [] => false

/-- The operations of some parked accesses that are dropped go on without the lanes not performed (R204) (log 81, DESIGN CHOICE). -/
def readyWithout (ps : List Parked) (ops : List OpRec) : List OpRec :=
  ops.map fun o => if ps.any fun p => p.op == some o.id then { o with ready := true } else o

/-- The handling group resumes what it stood at (R197, R223): its slices' recorded pcs, active masks and gang state, and its waits and
parked accesses where the handler has not moved it; slices of one gang stay one gang though the handler has made their pcs differ
(log 52, DEDUCED). -/
def resumeGroup (g : Group) : Group :=
  { modSlices g (upTo 8) (fun sl =>
      if sl.live == 0 then sl
      else
        { sl with
          pc := sl.tpc
          act := sl.savedAct &&& sl.live
          part := sl.savedPart
          atRegang := sl.savedRegang && sl.tpc == sl.savedPc }) with
    waits := g.savedWaits.filter fun w => stays g w.slice
    savedWaits := []
    parked := g.savedParked.filter fun p => stays g p.slice
    savedParked := []
    ops := readyWithout (g.savedParked.filter fun p => !stays g p.slice) g.ops }

/-- Every other group goes on from where it stopped. -/
def unhalt (g : Group) : Group := { g with halted := false, skid := none }

/-- A span's entries that waited with the cause now handled go on; those of held causes wait on (R360, R393, R419). -/
def unblockSpan (sp : Span) : Span := { sp with blocked := [] }

/-- While no trap is pending in the span, each group's REGANG waits are examined again: lanes may have left in the handler (R124, R126). -/
def reexamineAll (sid : Nat) (s : State) : State :=
  (upTo 32).foldl (fun acc n =>
    match findSpan acc sid with
    | none => acc
    | some sp => if sp.trap.isSome || sp.handler.isSome || sp.killed.isSome then acc else reexamine sid n acc) s

/-- RTE (R197, R223): after it held causes are taken first, in the order they were detected (R222) (log 52, DEDUCED). -/
def execRte (e : Enc) (s : State) : Host.Outcome State Fault Refusal :=
  runForm formBare true e (fun s =>
    if !inHandler s then faultWith 0 2 (gangLanes s) s
    else
      let g := curGroup s
      let live := g.slices.filter sliceLive
      if live.any fun sl => stackDepth sl != sl.entryDepth then faultWith 0 11 (gangLanes s) s
      else if live.any fun sl => sl.tpc.getLsbD 0 then faultWith 0 4 (gangLanes s) s
      else
        let sid := curSid s
        let n := curNum s
        let s := modSpan s sid fun sp =>
          unblockSpan { sp with
            groups := mapFrom (fun k x =>
              let x := if k = n then resumeGroup (unhalt x) else unhalt x
              if sp.marked then markWaits x else x) 0 sp.groups
            handler := none }
        (upTo 16).foldl (fun acc k => underrunTest sid k acc) (reexamineAll sid (takeHeld sid s))) s

end Sys2Proof.Machine
end

