-- ==== Sys2Proof/Machine/Buffers.lean ====
section
/-!
DEFINITION. Buffer records (R294 to R300): fields, the launch check, addresses, border modes; element conversion on loads and stores (R301,
R302); line-framed streams and decoder tables (R303 to R309).
-/

namespace Sys2Proof.Machine

/-! ### Fields (R294, R295) and element formats (R46) -/

/-- A buffer record's fields. -/
def bufBase (r : BitVec 320) : Nat := bitsOf r.toNat 56 0
def bufFormat (r : BitVec 320) : Nat := bitsOf r.toNat 63 57
def bufEnc (r : BitVec 320) : Nat := bitsOf r.toNat 67 64
def bufPattern (r : BitVec 320) : Nat := bitsOf r.toNat 71 68
def bufChannels (r : BitVec 320) : Nat := bitsOf r.toNat 75 72 + 1
def bufBorder (r : BitVec 320) : Nat := bitsOf r.toNat 79 76
def bufScale (r : BitVec 320) : Nat := bitsOf r.toNat 111 80
def bufDimX (r : BitVec 320) : Nat := bitsOf r.toNat 147 128
def bufDimY (r : BitVec 320) : Nat := bitsOf r.toNat 167 148
def bufDimZ (r : BitVec 320) : Nat := bitsOf r.toNat 179 168
def bufPitchY (r : BitVec 320) : Nat := bitsOf r.toNat 223 192
def bufPitchZ (r : BitVec 320) : Nat := bitsOf r.toNat 255 224
def bufAux (r : BitVec 320) : Nat := bitsOf r.toNat 287 256
def bufSaturate (r : BitVec 320) : Bool := r.getLsbD 288
def bufReadOnly (r : BitVec 320) : Bool := r.getLsbD 289
def bufOwned (r : BitVec 320) : Bool := r.getLsbD 290

/-- The element format codes of R46. -/
def fmtZ8 : Nat := 0x01
def fmtS8 : Nat := 0x02
def fmtN8 : Nat := 0x03
def fmtZ16 : Nat := 0x04
def fmtS16 : Nat := 0x05
def fmtF16 : Nat := 0x06
def fmtBF16 : Nat := 0x07
def fmtZ32 : Nat := 0x08
def fmtS32 : Nat := 0x09
def fmtF32 : Nat := 0x0A
def fmtF64 : Nat := 0x0B
def fmtT8 : Nat := 0x0C
def fmtT6 : Nat := 0x0D
def fmtE8 : Nat := 0x0E

/-- Bits of an element; 0 for a reserved code (R46). -/
def formatBits (f : Nat) : Nat :=
  if f = 0 then 0
  else if f ≤ 3 then 8
  else if f ≤ 7 then 16
  else if f ≤ 10 then 32
  else if f = fmtF64 then 64
  else if f = fmtT6 then 6
  else if f = fmtT8 || f = fmtE8 then 8
  else 0

/-- The integer formats. -/
def formatInt (f : Nat) : Bool := [fmtZ8, fmtS8, fmtZ16, fmtS16, fmtZ32, fmtS32].contains f

/-- The signed ones. -/
def formatSigned (f : Nat) : Bool := [fmtS8, fmtS16, fmtS32].contains f

/-- Bytes of one channel's element, .t6 apart. -/
def elemSize (f : Nat) : Nat := formatBits f / 8

/-- Bytes of an element with its channels: the `e` of R298. -/
def elemStride (r : BitVec 320) : Nat := elemSize (bufFormat r) * bufChannels r

/-- A format and a channel count are admitted by an encoding (R297). -/
def encodingAdmits (enc f ch : Nat) : Bool :=
  match enc with
  | 0 => ch ≤ 4 && (ch = 1 || !(f = fmtT6 || f = fmtF64))
  | 1 => f ≠ fmtT6 && ch ≤ 4 && (ch = 1 || f ≠ fmtF64)
  | 2 => (f = fmtT8 || f = fmtT6) && ch = 1
  | 3 => [fmtZ8, fmtS8, fmtN8, fmtT8, fmtE8].contains f && ch = 1
  | 4 => [fmtZ8, fmtN8, fmtF16, fmtF32].contains f && ch = 3
  | 5 => f ≠ fmtT6 && f ≠ fmtF64 && ch ≤ 4
  | _ => false

/-- A record passes the launch check (R294 to R298). -/
def bufLegal (r : BitVec 320) : Bool :=
  let f := bufFormat r
  let enc := bufEnc r
  let sc := bufScale r
  decide (formatBits f ≠ 0) && bitsOf r.toNat 319 291 == 0 && bitsOf r.toNat 191 180 == 0 && bitsOf r.toNat 127 112 == 0 &&
  decide (1 ≤ bufDimX r) && decide (1 ≤ bufDimY r) && decide (1 ≤ bufDimZ r) &&
  decide (bufBorder r ≤ 4) && decide (bufChannels r ≤ 4) && decide (enc ≤ 5) &&
  (bufPattern r == 0 || enc == 4) &&
  decide (sc < 2 ^ 31) && decide (1 ≤ sc / 2 ^ 23) && decide (sc / 2 ^ 23 ≤ 254) &&
  (!(formatInt f || f == fmtF64) || sc == 0x3F800000) &&
  encodingAdmits enc f (bufChannels r) &&
  (if enc = 3 then bufBase r % 64 == 0 else f == fmtT6 || bufBase r % elemSize f == 0) &&
  (!(enc == 3 || enc == 5) || bufPitchZ r == 0) &&
  (enc != 1 || bufPitchY r % (4096 * elemStride r) == 0)

/-! ### Border modes (R299) -/

/-- Where a coordinate lands on its axis. -/
inductive Axis where
  | at (i : Nat)
  /-- a load reads 0, a store is dropped -/
  | gone
  | fault
  deriving DecidableEq, Repr

/-- A coordinate brought onto an axis of extent `n` (R299). -/
def borderAxis (mode : Nat) (store : Bool) (n : Nat) (i : Int) : Axis :=
  if 0 ≤ i && i < n then .at i.toNat
  else
    match mode with
    | 0 => if store then .gone else .at (if i < 0 then 0 else n - 1)
    | 1 => .at (i % n).toNat
    | 2 =>
      let j := (i % (2 * n : Nat)).toNat
      .at (if j < n then j else 2 * n - 1 - j)
    | 3 => .gone
    | _ => .fault

/-- A texel or element after the border mode. -/
inductive Texel where
  | at (x y z : Nat)
  | gone
  | fault
  deriving DecidableEq, Repr

/-- Three coordinates brought into range; encoding 3 ignores y (R299). -/
def borderAll (r : BitVec 320) (store : Bool) (x y z : Int) : Texel :=
  let m := bufBorder r
  let bx := borderAxis m store (bufDimX r) x
  let by_ := if bufEnc r = 3 then .at 0 else borderAxis m store (bufDimY r) y
  let bz := borderAxis m store (bufDimZ r) z
  match bx, by_, bz with
  | .at i, .at j, .at k => .at i j k
  | .fault, _, _ => .fault
  | _, .fault, _ => .fault
  | _, _, .fault => .fault
  | _, _, _ => .gone

/-! ### Addresses (R298, R300) -/

/-- The bytes of a channel of an element: first byte, length, first bit. -/
structure ElemRun where
  va : Nat
  len : Nat
  bit : Nat
  deriving DecidableEq, Repr

/-- The offset of an element from the base, for the encodings that address bytes. -/
def elemOffset (r : BitVec 320) (x y z : Nat) : Nat :=
  let e := elemStride r
  match bufEnc r with
  | 1 => z * bufPitchZ r + y / 64 * bufPitchY r + x / 64 * (4096 * e) + fIlv2 (x % 64) (y % 64) * e
  | 5 => y * bufPitchY r + x * bufDimZ r * e + z * e
  | _ => z * bufPitchZ r + y * bufPitchY r + x * e

/-- The bytes of channel `c` of an element. -/
def elemRun (r : BitVec 320) (x y z c : Nat) : ElemRun :=
  let f := bufFormat r
  if f = fmtT6 then
    let row := bufBase r + z * bufPitchZ r + y * bufPitchY r + 3 * (x / 4)
    let lo := 6 * (x % 4) / 8
    let hi := (6 * (x % 4) + 5) / 8
    ⟨row + lo, hi + 1 - lo, 6 * (x % 4) - 8 * lo⟩
  else ⟨bufBase r + elemOffset r x y z + c * elemSize f, elemSize f, 0⟩

/-- The byte of an element's block scale (R298). -/
def scaleVa (r : BitVec 320) (x y z : Nat) : Nat :=
  bufBase r + bufAux r + (z * bufDimY r + y) * ((bufDimX r + 31) / 32) + x / 32

/-- The tile index entry of a tile (R298). -/
def tileVa (r : BitVec 320) (z : Nat) : Nat := bufBase r + bufAux r + 16 * z

/-- An interleave pattern is valid (R300). -/
def patternLegal (p : BitVec 2048) : Bool :=
  let n := p.toNat
  let pp := bitsOf n 7 0
  let q := bitsOf n 15 8
  bitsOf n 31 16 == 0 && pp != 0 && q != 0 && decide (pp * q ≤ 252) &&
  (upTo 252).all fun i => bitsOf n (8 * (4 + i) + 7) (8 * (4 + i) + 6) == 0

/-- The view a pattern gives a subpixel column and row (R300). -/
def patternView (p : BitVec 2048) (sc y : Nat) : Nat :=
  let n := p.toNat
  let pp := bitsOf n 7 0
  let q := bitsOf n 15 8
  let i := 4 + y % q * pp + sc % pp
  bitsOf n (8 * i + 5) (8 * i)

/-- The channels a store writes: through encoding 4 those whose subpixel has the lane's view (R300). -/
def storedChannels (r : BitVec 320) (pattern : BitVec 2048) (x y z : Nat) : List Nat :=
  (upTo (bufChannels r)).filter fun c => bufEnc r != 4 || patternView pattern (3 * x + c) y == z

/-! ### Conversion (R301, R302) -/

/-- The record's scale as an exact value. -/
def scaleNum (r : BitVec 320) : Num := floatValue fp32 (bufScale r)

/-- A rounded value, with INV where an operand is a signalling NaN (log 77, DEDUCED). -/
def roundFlags (f : FloatFormat) (x : Num × Flags) : Nat × Flags :=
  let y := roundNum f .rne x.1
  (y.1, y.2 ||| x.2)

/-- q/255 times the scale (R45, R301). -/
def n8Scaled (q : Nat) (scale : Num) : Num :=
  match scale with
  | .fin _ m e => if q = 0 then .fin false 0 0 else quotient false (q * m) e false 255 0
  | x => x

/-- A tapered element under a block scale as an exact value; none is NaR. -/
def taperedNum (n bscale code : Nat) : Option Num :=
  match taperedValue n code with
  | none => none
  | some v => if bscale = 0xFF then none else some (numScale ((bscale : Int) - 127) v)

/-- A stored element as registers hold it, with its flags (R301); `bscale` is its block scale, 127 without one. -/
def elemLoad (r : BitVec 320) (bscale code : Nat) : Nat × Flags :=
  let f := bufFormat r
  let sc := scaleNum r
  if formatInt f then (if formatSigned f then wr32 (signedOf (formatBits f) code) else code, noFlags)
  else if f = fmtF64 then (code, noFlags)
  else if f = fmtF16 then roundFlags fp32 (numMul (floatValue fp16 code) sc)
  else if f = fmtBF16 then roundFlags fp32 (numMul (floatValue bf16 code) sc)
  else if f = fmtF32 then roundFlags fp32 (numMul (floatValue fp32 code) sc)
  else if f = fmtN8 then roundNum fp32 .rne (n8Scaled code sc)
  else if f = fmtE8 then
    if code = 0xFF then (fmtNaN fp32, noFlags) else roundFlags fp32 (numMul (.fin false 1 ((code : Int) - 127)) sc)
  else
    match taperedNum (formatBits f) bscale code with
    | none => (fmtNaN fp32, flagNAR)
    | some v => roundFlags fp32 (numMul v sc)

/-- A value divided by the scale, with a sticky bit where inexact. -/
def numOverScale (x scale : Num) : Num :=
  match x, scale with
  | .fin n m e, .fin _ sm se => if m = 0 then .fin n 0 0 else quotient n m e false sm se
  | v, _ => v

/-- sat_n8 of x over the scale (R45, R302). -/
def n8Over (x scale : Num) : Nat × Flags :=
  match x, scale with
  | .fin false m e, .fin _ sm se =>
    if m = 0 then (0, noFlags)
    else
      let e0 := min e se
      if scaledInt false sm se e0 < scaledInt false m e e0 then (255, flagSAT)
      else
        match quotient false (255 * m) e false sm se with
        | .fin _ qm qe =>
          let (q, inexact) := roundToInt .rne false qm qe
          (q, flagIf inexact flagINX)
        | _ => (0, noFlags)
  | v, _ => n8Of v

/-- The E8M0 code of a value (R302). -/
def e8Of (y : Num) : Nat × Flags :=
  match y with
  | .fin false m e =>
    if m = 0 then (0xFF, flagINV)
    else
      let l : Int := e + Nat.log2 m + 127
      if l < 0 then (0, flagUNF)
      else if 254 < l then (254, flagSAT)
      else (l.toNat, flagIf (m != 2 ^ Nat.log2 m) flagINX)
  | _ => (0xFF, flagINV)

/-- An IEEE element of x over the scale; with saturate an overflow or an infinity stores the greatest finite value and sets SAT (R302). -/
def floatOver (ff : FloatFormat) (saturate : Bool) (x scale : Num) : Nat × Flags :=
  let big (neg : Bool) : Nat := fmtSign ff neg + fmtInf ff - 1
  match x with
  | .nan s => (fmtNaN ff, flagIf s flagINV)
  | .inf n => if saturate then (big n, flagSAT) else (fmtSign ff n + fmtInf ff, noFlags)
  | .fin n _ _ =>
    let (v, fl) := roundNum ff .rne (numOverScale x scale)
    if saturate && (fl &&& flagOVF != 0) then (big n, (fl &&& ~~~flagOVF) ||| flagSAT) else (v, fl)

/-- An integer element of n bits (R302). -/
def intOver (n : Nat) (isSigned saturate : Bool) (x : Nat) : Nat × Flags :=
  let v : Int := if isSigned then signedOf 32 x else x
  let lo : Int := if isSigned then -(2 ^ (n - 1) : Nat) else 0
  let hi : Int := if isSigned then (2 ^ (n - 1) : Nat) - 1 else (2 ^ n : Nat) - 1
  if saturate && v < lo then ((lo % (2 ^ n : Nat)).toNat, flagSAT)
  else if saturate && hi < v then ((hi % (2 ^ n : Nat)).toNat, flagSAT)
  else ((v % (2 ^ n : Nat)).toNat, noFlags)

/-- A register's value as a stored element, with its flags (R302) (log 77, DEDUCED). -/
def elemStore (r : BitVec 320) (bscale x : Nat) : Nat × Flags :=
  let f := bufFormat r
  let sc := scaleNum r
  let sat := bufSaturate r
  if f = fmtZ32 || f = fmtS32 then (x % 2 ^ 32, noFlags)
  else if formatInt f then intOver (formatBits f) (formatSigned f) sat x
  else if f = fmtF64 then (x, noFlags)
  else
    let v := floatValue fp32 x
    if f = fmtF16 then floatOver fp16 sat v sc
    else if f = fmtBF16 then floatOver bf16 sat v sc
    else if f = fmtF32 then floatOver fp32 sat v sc
    else if f = fmtN8 then n8Over v sc
    else if f = fmtE8 then e8Of (numOverScale v sc)
    else taperedEncode (formatBits f) bscale (numOverScale v sc)

/-! ### Decoder tables (R307) -/

/-- The code length of a symbol in a table image. -/
def codeLength (img : BitVec 1024) (k : Nat) : Nat := bitsOf img.toNat (4 * k + 3) (4 * k)

/-- A table image is valid (R307). -/
def tableLegal (img : BitVec 1024) : Bool :=
  ((upTo 256).all fun k => decide (codeLength img k ≤ 12)) &&
  decide (((upTo 256).map fun k => if codeLength img k = 0 then 0 else 2 ^ (12 - codeLength img k)).sum ≤ 4096)

/-- For each length from `len` on: its first code and its symbols in order (R307). -/
def codeBookFrom (lens : List Nat) : Nat → Nat → Nat → List (Nat × List Nat)
  | 0, _, _ => []
  | n + 1, len, code =>
    let syms := (upTo 256).filter fun k => (lens[k]?).getD 0 == len
    (code, syms) :: codeBookFrom lens n (len + 1) (2 * (code + syms.length))

/-- The canonical codes of a table. -/
def codeBook (img : BitVec 1024) : List (Nat × List Nat) := codeBookFrom ((upTo 256).map (codeLength img)) 12 1 0

/-- One code read from bit `pos` of a line, its first bit the most significant: the symbol and the next bit, or the reason of source 5
(R303, R309). -/
def readCode (line : Nat) : List (Nat × List Nat) → Nat → Nat → Except Nat (Nat × Nat)
  | [], _, _ => .error 17
  | (first, syms) :: rest, pos, code =>
    if 512 ≤ pos then .error 18
    else
      let code := 2 * code + (if line.testBit pos then 1 else 0)
      match (if first ≤ code then syms[code - first]? else none) with
      | some k => .ok (k, pos + 1)
      | none => readCode line rest (pos + 1) code

/-- `n` codes read from bit `pos`. -/
def readCodes (line : Nat) (book : List (Nat × List Nat)) : Nat → Nat → Except Nat (List Nat)
  | 0, _ => .ok []
  | n + 1, pos =>
    match readCode line book pos 0 with
    | .error r => .error r
    | .ok (k, pos) =>
      match readCodes line book n pos with
      | .error r => .error r
      | .ok ks => .ok (k :: ks)

/-! ### Lines and tiles (R303 to R306) -/

/-- The header fields of a 64-byte line, as a number. -/
def lineCount (l : Nat) : Nat := bitsOf l 7 0
def lineTable (l : Nat) : Nat := bitsOf l 10 8
def lineRestart (l : Nat) : Bool := l.testBit 11
def lineLast (l : Nat) : Bool := l.testBit 12
def lineReserved (l : Nat) : Nat := bitsOf l 15 13
def lineIndex (l : Nat) : Nat := bitsOf l 39 16
def linePayload (l : Nat) : Nat := if lineRestart l then 40 else 16

/-- The decoder tables of a span. -/
abbrev Tables := List (Option (BitVec 1024))

/-- The first `n` symbols of a line (R303, R309). -/
def lineSymbols (tables : Tables) (l n : Nat) : Except Nat (List Nat) :=
  if n = 0 then .ok []
  else
    match (tables[lineTable l]?).bind fun t => t with
    | none => .error 19
    | some img => readCodes l (codeBook img) n (linePayload l)

/-- The fields of a tile index entry (R306). -/
def tileElems (e : Nat) : Nat := bitsOf e 95 64
def tileStride (e : Nat) : Nat := bitsOf e 63 60
def tileLines (e : Nat) : Nat := bitsOf e 59 40
def tileOffset (e : Nat) : Nat := bitsOf e 39 0

/-- What is wrong with an entry for element `x`: the reason of source 5. -/
def tileFault (e x : Nat) : Option Nat :=
  if bitsOf e 127 96 ≠ 0 then some 0
  else if tileLines e = 0 then some 18
  else if tileElems e ≤ x then some 18
  else none

/-- What is wrong with line `j`, `before` elements standing in the lines before it (R304, R305, R309). -/
def lineFault (e j before l : Nat) : Option Nat :=
  if lineCount l ≠ 0 && lineReserved l ≠ 0 then some 0
  else if j % 2 ^ tileStride e = 0 && !lineRestart l then some 18
  else if lineRestart l && lineIndex l ≠ before then some 18
  else if lineLast l != (j + 1 == tileLines e) then some 18
  else if j + 1 = tileLines e && before + lineCount l ≠ tileElems e then some 18
  else none

/-- The table a line with elements names is loaded (R308). -/
def lineLoaded (tables : Tables) (l : Nat) : Bool := lineCount l == 0 || ((tables[lineTable l]?).bind fun t => t).isSome

/-- What is wrong with line `j` as a decoder reaches it: its header, its table, and the codes of all its elements (R305, R309, R326). -/
def lineCheck (tables : Tables) (e j before l : Nat) : Option Nat :=
  match lineFault e j before l with
  | some r => some r
  | none =>
    match lineSymbols tables l (lineCount l) with
    | .error r => some r
    | .ok _ => none

/-- A tile's line as a decoder reads it: none where the line cannot be reached. -/
abbrev LineRead := Nat → Option Nat

/-- The line a decode of element `x` begins with, of the first `n`: the last restart line whose index is at or below `x` (R304, R312)
(log 61, DEDUCED). -/
def seekStart (seen : LineRead) (x n : Nat) : Nat :=
  ((upTo n).reverse.find? fun j => ((seen j).map fun l => lineRestart l && decide (lineIndex l ≤ x)).getD false).getD 0

/-- The sum of the counts of the first lines, where each is seen (R304) (log 61, DEDUCED). -/
def countBefore (seen : LineRead) : Nat → Option Nat
  | 0 => some 0
  | j + 1 => (countBefore seen j).bind fun b => (seen j).map fun l => b + lineCount l

/-- Element `x` sought from line `j` on, `before` elements standing in the lines before it: headers are passed until the line that holds it,
which is decoded (R304, R305, R312) (log 61, DEDUCED). -/
def seekLine (tables : Tables) (e x : Nat) (line : LineRead) : Nat → Nat → Nat → List Nat × Option (Except Nat Nat)
  | 0, _, _ => ([], some (.error 18))
  | n + 1, j, before =>
    match line j with
    | none => ([j], none)
    | some l =>
      match lineFault e j before l with
      | some r => ([j], some (.error r))
      | none =>
        if !lineLoaded tables l then ([j], some (.error 19))
        else if x < before + lineCount l then
          match lineSymbols tables l (lineCount l) with
          | .error r => ([j], some (.error r))
          | .ok ks => ([j], some (.ok ((ks[x - before]?).getD 0)))
        else
          let (js, r) := seekLine tables e x line n (j + 1) (before + lineCount l)
          (j :: js, r)

/-- Element `x` of a tile: the lines read and the symbol, or the reason of a fault. The index of the line it begins with agrees with the lines
before, as far as they are `seen` (R304, R305, R312) (log 61, DEDUCED). -/
def seekElement (tables : Tables) (e x : Nat) (seen line : LineRead) : List Nat × Option (Except Nat Nat) :=
  let j := seekStart seen x (tileLines e)
  let before := (countBefore seen j).getD (((seen j).map lineIndex).getD 0)
  seekLine tables e x line (tileLines e - j) j before

end Sys2Proof.Machine
end

