-- ==== Sys2Proof/Machine/Conversion.lean ====
section
/-!
DEFINITION. Conversion instructions: BLD, BST, SMP, VDEC, VDECQ, LDT (R310 to R318), with the filter arithmetic of R59 and R60.
-/

namespace Sys2Proof.Machine

/-! ### The record an instruction names (R310) -/

/-- Record `k` of the issuer's launch. -/
def curRecord (s : State) (k : Nat) : Option (BitVec 320) := (curLaunch s).bind fun la => la.buffers[k]?

/-- How many records the launch has. -/
def curRecords (s : State) : Nat := ((curLaunch s).map fun la => la.buffers.length).getD 0

/-- The data registers of an element: a pair for .f64, else one a channel. -/
def elemRegs (r : BitVec 320) : Nat := if bufFormat r = fmtF64 then 2 else bufChannels r

/-- Their alignment. -/
def elemAlign (r : BitVec 320) : Nat := if bufFormat r = fmtF64 then 2 else 1

/-- The form of BLD, BST and SMP for the record its rb field names; an index at or above the record count is illegal. SMP names one
register a channel, whatever the format. -/
def formRecord (sample : Bool) (orders : List Nat) (e : Enc) (s : State) : Form :=
  let (n, a) := match curRecord s e.rb.toNat with
    | some r => if sample then (bufChannels r, 1) else (elemRegs r, elemAlign r)
    | none => (1, 1)
  { rd := .reg n a, ra := .reg 3 1, rb := .index (curRecords s), u := .zero, mem := some ⟨orders, false, true⟩ }

/-- The three coordinates of a lane (R312). -/
def coordAt (g : Group) (e : Enc) (lane k : Nat) : Nat := (readLoc g lane (locAdd k (raLoc e))).toNat

/-- A lane's element after the border mode. -/
def laneTexel (r : BitVec 320) (store : Bool) (g : Group) (e : Enc) (lane : Nat) : Texel :=
  borderAll r store (s32 (coordAt g e lane 0)) (s32 (coordAt g e lane 1)) (s32 (coordAt g e lane 2))

/-! ### Element accesses (R298, R311) -/

/-- The parts of some runs of an element. -/
def runParts (s : State) (need : Need) (rs : List ElemRun) : List Part := (rs.map fun r => curRun s need r.va r.len).flatten

/-- The runs a load of an element reads: its channels, and its block scale. -/
def loadRuns (r : BitVec 320) (x y z : Nat) : List ElemRun :=
  (upTo (bufChannels r)).map (elemRun r x y z) ++ (if bufEnc r = 2 then [⟨scaleVa r x y z, 1, 0⟩] else [])

/-- Bytes cut into runs. -/
def cutBytes : List ElemRun → List Byte → List (List Byte)
  | [], _ => []
  | r :: rest, bs => bs.take r.len :: cutBytes rest (bs.drop r.len)

/-- The code of a channel in the bytes of its run. -/
def runCode (f : Nat) (r : ElemRun) (bs : List Byte) : Nat := bytesToNat bs / 2 ^ r.bit % 2 ^ formatBits f

/-- The channels of an element from the bytes its load read (R301). -/
def loadedChannels (r : BitVec 320) (x y z : Nat) (bs : List Byte) : List (Nat × Flags) :=
  let rs := loadRuns r x y z
  let cut := cutBytes rs bs
  let bscale := if bufEnc r = 2 then bytesToNat ((cut.getLast?).getD []) else 127
  ((rs.zip cut).take (bufChannels r)).map fun p => elemLoad r bscale (runCode (bufFormat r) p.1 p.2)

/-- The registers of converted channels. -/
def channelWords (r : BitVec 320) (cs : List (Nat × Flags)) : List Word :=
  if bufFormat r = fmtF64 then wordsOf 2 ((cs.head?.map (·.1)).getD 0) else cs.map fun c => BitVec.ofNat 32 c.1

/-- A lane whose data are uncorrectable: its `k` registers are unspecified (R204) (log 68, DESIGN CHOICE). -/
def poisonLane (rd : Loc) (k lane : Nat) (a : Acc) : Acc :=
  let (w, s) := freeWrites rd lane k a.s
  { noteCause (causeOf 3 25) a with s := s, writes := a.writes ++ w }

/-- Results of a lane added. -/
def laneResult (rd : Loc) (lane : Nat) (ws : List Word) (fl : Flags) (a : Acc) : Acc :=
  { a with writes := a.writes ++ regWrites rd lane 0 ws, flags := a.flags ||| fl }

/-! ### BLD (R312) -/

/-- Every part of an access reaches memory. -/
def allReach (ps : List Part) : Bool :=
  ps.all fun p =>
    match p.at_ with
    | .mem _ | .peer _ _ => true
    | _ => false

/-- The decoder tables of the issuing span. -/
def curTables (s : State) : Tables := ((curSpan s).map (·.tables)).getD []

/-- The parts of line `j` of the stream an entry names. -/
def linePart (s : State) (r : BitVec 320) (e j : Nat) : List Part := curRun s .load (bufBase r + 64 * (tileOffset e + j)) 64

/-- A line of that stream as memory holds it. -/
def streamLine (s : State) (r : BitVec 320) (e : Nat) : LineRead := fun j =>
  let p := linePart s r e j
  if allReach p then some (bytesToNat (readParts s p)) else none

/-- A line that can be told from memory alone: it can be reached and is not uncorrectable. -/
def seenLine (s : State) (r : BitVec 320) (e : Nat) : LineRead := fun j =>
  if partsPoisoned s (linePart s r e j) then none else streamLine s r e j

/-- The decode of element `x` of tile `z`: the parts it reads, which end with one that cannot be reached where there is no answer, and the
symbol or the reason of a fault (R306, R312) (log 61, DEDUCED). -/
def streamSeek (s : State) (r : BitVec 320) (x z : Nat) : List Part × Option (Except Nat Nat) :=
  let ep := curRun s .load (tileVa r z) 16
  if !allReach ep then (ep, none)
  else
    let e := bytesToNat (readParts s ep)
    match tileFault e x with
    | some reason => (ep, some (.error reason))
    | none =>
      let (js, a) := seekElement (curTables s) e x (seenLine s r e) (streamLine s r e)
      (ep ++ (js.map (linePart s r e)).flatten, a)

/-- The parts a lane of BLD reads. -/
def bldPlan (s : State) (r : BitVec 320) (e : Enc) (g : Group) (lane : Nat) : List Part :=
  match laneTexel r false g e lane with
  | .at x y z => if bufEnc r = 3 then (streamSeek s r x z).1 else runParts s .load (loadRuns r x y z)
  | _ => []

/-- What BLD and SMP refuse before any translation: a record that only stores, an index outside under border mode fault (R297, R299)
(log 61, DEDUCED). -/
def loadPre (r : BitVec 320) (texels : Group → Nat → List Texel) : PreCheck := fun g ls =>
  if bufEnc r = 4 then some (3, 9)
  else if ls.any fun l => (texels g l).contains .fault then some (3, 5)
  else none

/-- One lane of BLD. -/
def bldLane (r : BitVec 320) (e : Enc) (g : Group) : Perform := fun a lane sp =>
  let k := elemRegs r
  match laneTexel r false g e lane with
  | .at x y z =>
    if spotPoisoned a.s sp then poisonLane (rdLoc e) k lane a
    else
      let bs := readSpot a.s 0 sp
      if bufEnc r = 3 then
        match ((streamSeek a.s r x z).2).getD (.error 18) with
        | .error reason =>
          let (w, s) := freeWrites (rdLoc e) lane k a.s
          { noteCause (causeOf 5 reason) a with s := s, writes := a.writes ++ w }
        | .ok sym =>
          let c := elemLoad r 127 sym
          laneResult (rdLoc e) lane (channelWords r [c]) c.2 a
      else
        let cs := loadedChannels r x y z bs
        laneResult (rdLoc e) lane (channelWords r cs) (orFlags (cs.map (·.2))) a
  | _ => laneResult (rdLoc e) lane (List.replicate k 0) 0 a

/-- A conversion instruction over the record it names; `.rp` must be 0 (R310). -/
def runRecord (sample : Bool) (orders : List Nat) (e : Enc) (body : BitVec 320 → State → State) (s : State) : Host.Outcome State Fault Refusal :=
  runForm (formRecord sample orders e s) (!memRp e) e (fun s =>
    match curRecord s e.rb.toNat with
    | none => s
    | some r => body r s) s

/-- BLD (R312). -/
def execBld (e : Enc) (s : State) : Host.Outcome State Fault Refusal :=
  runRecord false [0, 1] e (fun r s =>
    globalIssue .ld .conversion (loadPre r fun g l => [laneTexel r false g e l]) (bldPlan s r e) e (bldLane r e (issueGroup s)) s) s

/-! ### BST (R313) -/

/-- The issuing launch's pattern for a record. -/
def curPattern (s : State) (r : BitVec 320) : BitVec 2048 := ((curLaunch s).bind fun la => keyFind (bufPattern r) la.patterns).getD 0

/-- The runs a store of an element writes. -/
def storeRuns (pattern : BitVec 2048) (r : BitVec 320) (x y z : Nat) : List (Nat × ElemRun) :=
  (storedChannels r pattern x y z).map fun c => (c, elemRun r x y z c)

/-- The parts a lane of BST accesses: its block scale, then what it writes. -/
def bstPlan (s : State) (r : BitVec 320) (e : Enc) (g : Group) (lane : Nat) : List Part :=
  match laneTexel r true g e lane with
  | .at x y z =>
    (if bufEnc r = 2 then curRun s .load (scaleVa r x y z) 1 else []) ++
      runParts s .store ((storeRuns (curPattern s r) r x y z).map (·.2))
  | _ => []

/-- Bytes of a run with the element's bits replaced. -/
def mergeRun (f : Nat) (r : ElemRun) (code : Nat) (old : List Byte) : List Byte :=
  let w := formatBits f
  let o := bytesToNat old
  natToBytes r.len (o - o / 2 ^ r.bit % 2 ^ w * 2 ^ r.bit + code % 2 ^ w * 2 ^ r.bit)

/-- Elements of a format fill whole bytes, and their granules are written without being read. -/
def wholeBytes (f : Nat) : Bool := formatBits f % 8 == 0

/-- The channels of an element written by a lane through the parts of their runs, one run after another; what is merged into a byte is
written at once (R313). -/
def putRuns (lane f : Nat) : List (ElemRun × Nat) → List Part → Acc → Acc
  | [], _, a => a
  | (r, code) :: rest, ps, a =>
    let a := if wholeBytes f then a else { a with split := none }
    let n := (partsOf r.va r.len).length
    let mine := ps.take n
    putRuns lane f rest (ps.drop n) (putParts lane mine (mergeRun f r code (readParts (seenBy a (.glob mine)) mine)) a)

/-- The value of channel `c` in a lane's registers. -/
def channelValue (r : BitVec 320) (g : Group) (e : Enc) (lane c : Nat) : Nat :=
  if bufFormat r = fmtF64 then readLocs g lane 2 (rdLoc e) else (readLoc g lane (locAdd c (rdLoc e))).toNat

/-- The element of a lane as its runs and codes, with the flags of every channel (R302). -/
def storeCodes (pattern : BitVec 2048) (r : BitVec 320) (bscale : Nat) (x y z : Nat) (value : Nat → Nat) : List (ElemRun × Nat) × Flags :=
  let cs := (upTo (bufChannels r)).map fun c => elemStore r bscale (value c)
  ((storeRuns pattern r x y z).map fun p => (p.2, ((cs[p.1]?).map (·.1)).getD 0), orFlags (cs.map (·.2)))

/-- One lane of BST. -/
def bstLane (r : BitVec 320) (e : Enc) (g : Group) : Perform := fun a lane sp =>
  match laneTexel r true g e lane, sp with
  | .at x y z, .glob ps =>
    let a := { a with s := settleSpot 0 sp a.s }
    let n := if bufEnc r = 2 then (partsOf (scaleVa r x y z) 1).length else 0
    let head := ps.take n
    if partsPoisoned a.s head then noteCause (causeOf 3 25) a
    else
      let bscale := if bufEnc r = 2 then bytesToNat (readParts a.s head) else 127
      let (codes, fl) := storeCodes (curPattern a.s r) r bscale x y z (channelValue r g e lane)
      let a := putRuns lane (bufFormat r) codes (ps.drop n) a
      recordParts e (ps.drop n) { a with flags := a.flags ||| fl }
  | _, _ => a

/-- What BST refuses before any translation (R295, R297, R299). -/
def storePre (r : BitVec 320) (e : Enc) : PreCheck := fun g ls =>
  if bufReadOnly r || bufEnc r = 3 then some (3, 7)
  else if ls.any fun l => laneTexel r true g e l == .fault then some (3, 5)
  else none

/-- BST (R313). -/
def execBst (e : Enc) (s : State) : Host.Outcome State Fault Refusal :=
  runRecord false [0, 2] e (fun r s =>
    globalIssue .st .conversion (storePre r e) (bstPlan s r e) e (bstLane r e (issueGroup s)) s) s

/-! ### SMP (R59, R60, R314, R315) -/

/-- A texture coordinate as a fixed-point number with 16 fraction bits (R59). -/
def texFix (half : Bool) (c : Nat) : Int × Flags :=
  let clamp (v : Int) : Int := max (-(2 ^ 39 : Nat)) (min ((2 ^ 39 : Nat) - 1) v)
  match floatValue fp32 c with
  | .nan _ => (0, flagINV)
  | .inf n => (if n then -(2 ^ 39 : Nat) else (2 ^ 39 : Nat) - 1, noFlags)
  | .fin n m e =>
    match (if half then (numAdd .rne (.fin n m (e + 16)) (.fin true 1 15)).1 else .fin n m (e + 16)) with
    | .fin n m e => (clamp (rneInt n m e), noFlags)
    | _ => (0, noFlags)

/-- The four weights of R60: (0,0), (1,0), (0,1), (1,1). -/
def texWeights (fx fy : Nat) : List Nat :=
  let prod (a b : Nat) : Nat := (rneInt false (a * b) (-16)).toNat
  let w00 := prod (65536 - fx) (65536 - fy)
  let w10 := prod fx (65536 - fy)
  let w01 := prod (65536 - fx) fy
  [w00, w10, w01, 65536 - w00 - w10 - w01]

/-- A weighted texel sum (R60, R315): pattern, flags and weight of each; texels of weight 0 take no part (log 77, DEDUCED). -/
def texFilter (ts : List ((Nat × Flags) × Nat)) : Nat × Flags :=
  let ts := ts.filter fun t => t.2 != 0
  let vs := ts.map fun t => floatValue fp32 t.1.1
  let fl := orFlags (ts.map (·.1.2))
  let pos := vs.contains (.inf false)
  let neg := vs.contains (.inf true)
  if vs.any numIsNaN then (fmtNaN fp32, fl)
  else if pos && neg then (fmtNaN fp32, fl ||| flagINV)
  else if pos then (fmtInf fp32, fl)
  else if neg then (fmtSign fp32 true + fmtInf fp32, fl)
  else
    let terms := (vs.zip ts).map fun p => (numMul p.1 (.fin false p.2.2 (-16))).1
    let r := roundNum fp32 .rne (exactSum terms)
    (r.1, r.2 ||| fl)

/-- The sampling instructions. -/
inductive Sampler where
  | near | bil | epb
  deriving DecidableEq, Repr

/-- The texels a lane samples, with their weights, and the flags of its coordinates (R314). -/
def samplePoints (k : Sampler) (c : Nat → Nat) : List ((Int × Int × Int) × Nat) × Flags :=
  let half := k != .near
  let (ux, f1) := texFix half (c 0)
  let (uy, f2) := texFix half (c (if k == .epb then 2 else 1))
  let i := ux / 65536
  let j := uy / 65536
  let pts : List (Int × Int × Int) :=
    match k with
    | .near => [(i, j, s32 (c 2))]
    | .bil => [(i, j, s32 (c 2)), (i + 1, j, s32 (c 2)), (i, j + 1, s32 (c 2)), (i + 1, j + 1, s32 (c 2))]
    | .epb => [(i, s32 (c 1), j), (i + 1, s32 (c 1), j), (i, s32 (c 1), j + 1), (i + 1, s32 (c 1), j + 1)]
  let ws := if half then texWeights (ux % 65536).toNat (uy % 65536).toNat else [65536]
  (pts.zip ws, f1 ||| f2)

/-- A lane's texels after the border mode, with their weights. -/
def sampleTexels (k : Sampler) (r : BitVec 320) (e : Enc) (g : Group) (lane : Nat) : List (Texel × Nat) :=
  (samplePoints k (coordAt g e lane)).1.map fun p => (borderAll r false p.1.1 p.1.2.1 p.1.2.2, p.2)

/-- The parts a texel reads. -/
def texelParts (s : State) (r : BitVec 320) : Texel → List Part
  | .at x y z => runParts s .load (loadRuns r x y z)
  | _ => []

/-- A stored element as a texel: an integer converted exactly, else its load (R314); sampling never sets OVF (R315). -/
def texelValue (r : BitVec 320) (v : Nat × Flags) : Nat × Flags :=
  let x := if formatInt (bufFormat r) then floatOfInt fp32 .rne (s32 v.1) else v
  (x.1, x.2 &&& ~~~flagOVF)

/-- The channels of a texel from the bytes of its parts; one outside under border mode zero reads 0. -/
def texelChannels (r : BitVec 320) (t : Texel) (bs : List Byte) : List (Nat × Flags) :=
  match t with
  | .at x y z => (loadedChannels r x y z bs).map (texelValue r)
  | _ => List.replicate (bufChannels r) (0, noFlags)

/-- The texels of a lane with their channels, read from the lane's bytes in order. -/
def texelData (r : BitVec 320) : List (Texel × Nat) → List Byte → List (List (Nat × Flags) × Nat)
  | [], _ => []
  | (t, w) :: rest, bs =>
    let n := match t with
      | .at x y z => ((loadRuns r x y z).map (·.len)).sum
      | _ => 0
    (texelChannels r t (bs.take n), w) :: texelData r rest (bs.drop n)

/-- One lane of SMP. -/
def smpLane (k : Sampler) (r : BitVec 320) (e : Enc) (g : Group) : Perform := fun a lane sp =>
  if spotPoisoned a.s sp then poisonLane (rdLoc e) (bufChannels r) lane a
  else
    let data := texelData r (sampleTexels k r e g lane) (readSpot a.s 0 sp)
    let channel (c : Nat) : Nat × Flags :=
      let ts := data.map fun d => ((d.1[c]?).getD (0, noFlags), d.2)
      match k, ts with
      | .near, t :: _ => t.1
      | _, _ => texFilter ts
    let cs := (upTo (bufChannels r)).map channel
    laneResult (rdLoc e) lane (cs.map fun c => BitVec.ofNat 32 c.1)
      (orFlags (cs.map (·.2)) ||| (samplePoints k (coordAt g e lane)).2) a

/-- A sampling instruction. -/
def runSample (k : Sampler) (e : Enc) (s : State) : Host.Outcome State Fault Refusal :=
  runRecord true [0, 1] e (fun r s =>
    let pre : PreCheck := fun g ls =>
      if [fmtZ32, fmtS32, fmtF64, fmtE8].contains (bufFormat r) || bufEnc r = 3 then some (0, 2)
      else loadPre r (fun g l => (sampleTexels k r e g l).map (·.1)) g ls
    globalIssue .ld .conversion pre (fun g l => ((sampleTexels k r e g l).map fun t => texelParts s r t.1).flatten) e
      (smpLane k r e (issueGroup s)) s) s

/-- SMP.near (R314). -/
def execSmpNear (e : Enc) (s : State) : Host.Outcome State Fault Refusal := runSample .near e s

/-- SMP.bil (R314, R315). -/
def execSmpBil (e : Enc) (s : State) : Host.Outcome State Fault Refusal := runSample .bil e s

/-- SMP.epb (R314, R315). -/
def execSmpEpb (e : Enc) (s : State) : Host.Outcome State Fault Refusal := runSample .epb e s

/-! ### VDEC and VDECQ (R316, R317) -/

/-- A gang of all eight slices with all 32 lanes active after the guard (R127). -/
def fullGang (e : Enc) (s : State) : Bool := actLanes e s == 0xFFFFFFFF

/-- Where a decode stands: the line's deck offset, elements taken from it, the tile index. -/
structure Cursor where
  off : Nat
  used : Nat
  idx : Nat
  deriving DecidableEq, Repr

/-- The walk of R317: `k` elements still wanted, `line` the 64 bytes at a deck offset. The error is a cause's source and reason. -/
def vdecWalk (tables : Tables) (size : Nat) (line : Nat → Except (Nat × Nat) Nat) :
    Nat → Cursor → Nat → Except (Nat × Nat) (List Nat × Cursor)
  | 0, _, _ => .error (2, 5)
  | fuel + 1, c, k =>
    if size < c.off + 64 then .error (2, 5)
    else
      match line c.off with
      | .error x => .error x
      | .ok l =>
        if c.used = 0 && lineRestart l && lineIndex l ≠ c.idx then .error (5, 18)
        else if lineCount l ≠ 0 && lineReserved l ≠ 0 then .error (5, 0)
        else if lineCount l ≠ 0 && ((tables[lineTable l]?).bind fun t => t).isNone then .error (5, 19)
        else if lineCount l < c.used then .error (5, 18)
        else
          let take := min (lineCount l - c.used) k
          match (if take = 0 then .ok [] else lineSymbols tables l (c.used + take)) with
          | .error r => .error (5, r)
          | .ok ks =>
            let es := ks.drop c.used
            let c' : Cursor := ⟨c.off, c.used + take, (c.idx + take) % 2 ^ 32⟩
            if take = k then .ok (es, c')
            else if lineLast l then .ok (es ++ List.replicate (k - take) 0, c')
            else
              match vdecWalk tables size line fuel ⟨c.off + 64, 0, c'.idx⟩ (k - take) with
              | .error x => .error x
              | .ok (more, c'') => .ok (es ++ more, c'')

/-- The bytes of a deck line as a number; an uncorrectable word is 11:25 (R199). -/
def deckLine (s : State) (sp : Span) (off : Nat) : Except (Nat × Nat) Nat :=
  if deckPoisoned s sp off 64 then .error (11, 25) else .ok (bytesToNat (readDeck s sp off 64))

/-- The word of lane `i` of VDEC: four elements (R317). -/
def packFour (es : List Nat) (i : Nat) : Word :=
  BitVec.ofNat 32 (((upTo 4).map fun j => (es[4 * i + j]?).getD 0 * 2 ^ (8 * j)).sum)

/-- VDEC and VDECQ of `n` elements; `pick` gives a lane's word (R317). -/
def vdecBody (e : Enc) (n : Nat) (pick : List Nat → Nat → Word) (s : State) : State :=
  let lanes := actLanes e s
  let g := curGroup s
  let r := locNum (raLoc e)
  match curSpan s with
  | none => s
  | some sp =>
    if !fullGang e s then faultWith 5 11 lanes s
    else if counter g .dc = 63 then s
    else
      let lo := (readG g r).toNat
      let c : Cursor := ⟨lo % 2 ^ 24, lo / 2 ^ 24, (readG g (r + 1)).toNat⟩
      if c.off % 64 ≠ 0 then faultWith 2 4 lanes s
      else
        match vdecWalk sp.tables (deckSize sp) (deckLine s sp) (deckSize sp / 64 + 1) c n with
        | .error (src, reason) => if src = 11 then killPoisoned (curSid s) s else faultWith src reason lanes s
        | .ok (es, c') =>
          let s := modCur s fun g =>
            writeG (r + 1) (BitVec.ofNat 32 c'.idx) (writeG r (BitVec.ofNat 32 (c'.off % 2 ^ 24 + 2 ^ 24 * (c'.used % 256))) g)
          let s := modCur s (issueOp .dc .decode lanes)
          let ws := (upTo 32).map fun i => regWrite (rdLoc e) i 0 (pick es i)
          advance (wordLen e) (addToOp g.opCount { Acc.start s g.opCount none none with writes := ws } [] false true)

/-- The form of VDEC and VDECQ; the cursor is named through the XP ra-g bit (R310). -/
def runVdec (e : Enc) (n : Nat) (pick : List Nat → Nat → Word) (s : State) : Host.Outcome State Fault Refusal :=
  runForm { rd := .reg 1 1, ra := .reg 2 2, rb := .unused, u := .zero, mem := some ⟨[0], false, false⟩ } (xpBit e 13) e
    (vdecBody e n pick) s

/-- VDEC (R317). -/
def execVdec (e : Enc) (s : State) : Host.Outcome State Fault Refusal := runVdec e 128 packFour s

/-- VDECQ (R317). -/
def execVdecq (e : Enc) (s : State) : Host.Outcome State Fault Refusal :=
  runVdec e 32 (fun es i => BitVec.ofNat 32 ((es[i]?).getD 0)) s

/-! ### LDT (R318) -/

/-- LDT's read: a valid image is installed at completion, an invalid one raises 5:17. -/
def ldtLane (k : Nat) : Perform := fun a _ sp =>
  if spotPoisoned a.s sp then noteCause (causeOf 3 25) a
  else
    let img := BitVec.ofNat 1024 (bytesToNat (readSpot a.s 128 sp))
    if tableLegal img then { a with writes := a.writes ++ [.table k img] } else noteCause (causeOf 5 17) a

/-- LDT (R318): the image address is 128-byte aligned. -/
def execLdt (e : Enc) (s : State) : Host.Outcome State Fault Refusal :=
  runForm { rd := .unused, ra := .reg 2 2, rb := .index 8, u := .one, mem := some ⟨[0, 1], false, false⟩ } (!memRp e) e (fun s =>
    let addr (g : Group) : Nat := readLocs g 0 2 (raLoc e)
    globalIssue .dc .decode (fun g ls => if !ls.isEmpty && addr g % 128 != 0 then some (3, 4) else none)
      (fun g _ => curRun s .load (addr g) 128) e (ldtLane e.rb.toNat) s) s

end Sys2Proof.Machine
end

