-- ==== Sys2Proof/Machine/Reserve.lean ====
section
/-!
DEFINITION. The operand buffer: granules, reservation records, rows and scales (R319 to R325).
-/

namespace Sys2Proof.Machine

/-! ### Reservation records (R320) -/

/-- Reservation `k` of a span. -/
def spanRes (sp : Span) (k : Nat) : Reservation := (sp.reservations[k]?).getD ⟨0, 0⟩

/-- A span's reservation rewritten. -/
def modRes (k : Nat) (f : Reservation → Reservation) (sp : Span) : Span := { sp with reservations := listSet f k sp.reservations }

/-- Bits [hi:lo] of a record replaced. -/
def setField {w : Nat} (x : BitVec w) (hi lo v : Nat) : BitVec w :=
  BitVec.ofNat w (x.toNat - bitsOf x.toNat hi lo * 2 ^ lo + v % 2 ^ (hi + 1 - lo) * 2 ^ lo)

/-- Fields of a reservation. -/
def resValid (r : Reservation) : Bool := r.record.getLsbD 0
def resMode (r : Reservation) : Nat := bitsOf r.record.toNat 2 1
def resBase (r : Reservation) : Nat := bitsOf r.record.toNat 27 20
def resSize (r : Reservation) : Nat := bitsOf r.record.toNat 36 28
def resFormat (r : Reservation) : Nat := bitsOf r.record.toNat 43 37
def resBlock (r : Reservation) : Nat := bitsOf r.record.toNat 46 44
def resScaleOff (r : Reservation) : Nat := bitsOf r.record.toNat 64 47
def resTable (r : Reservation) : Nat := bitsOf r.record.toNat 67 65
def resPos (r : Reservation) : Nat := bitsOf r.record.toNat 99 68
def resConsumed (r : Reservation) : Nat := bitsOf r.record.toNat 107 100
def resLine (r : Reservation) : Nat := bitsOf r.record.toNat 127 108
def resEntry (r : Reservation) : Nat := bitsOf r.record.toNat 255 128

/-- A reservation's mode set, with the stream fields at 0 (R320). -/
def resSetMode (m : Nat) (r : Reservation) : Reservation :=
  let x := setField r.record 2 1 m
  let x := setField x 67 65 0
  { r with record := setField x 127 68 0 }

/-- Bytes of a row of 32 elements (R322). -/
def rowBytes (f : Nat) : Nat := 4 * formatBits f

/-- Rows of a reservation (R323). -/
def resRows (r : Reservation) : Nat :=
  if resBlock r = 5 then resScaleOff r / rowBytes (resFormat r) else 1024 * resSize r / rowBytes (resFormat r)

/-- The number of byte `o` of a reservation of a span (R319). -/
def resKey (sp : Span) (r : Reservation) (o : Nat) : Nat :=
  bufKey (spanPier sp) (1024 * ((sp.granules[resBase r + o / 1024]?).getD 0) + o % 1024)

/-- `n` bytes of a reservation. -/
def readRes (s : State) (sp : Span) (r : Reservation) (o n : Nat) : List Byte :=
  (upTo n).map fun i => readByte s.opbuf (resKey sp r (o + i))

/-- Bytes of a reservation written. -/
def writeResMem (sp : Span) (r : Reservation) : Nat → List Byte → Memory → Memory
  | _, [], m => m
  | o, b :: rest, m => writeResMem sp r (o + 1) rest (writeByte m (resKey sp r o) b)

/-- Bytes of a reservation written, a word wholly written being correctable again (log 64, DEDUCED). -/
def writeRes (sp : Span) (r : Reservation) (o : Nat) (bs : List Byte) (s : State) : State :=
  let g0 := (o + 7) / 8
  let g1 := (o + bs.length) / 8
  { s with
    opbuf := writeResMem sp r o bs s.opbuf
    bufPoison := (upTo (g1 - g0)).foldl (fun acc i => cellSet 0 acc (resKey sp r (8 * (g0 + i)) / 8) 0) s.bufPoison }

/-- Whether some word of a range of a reservation is uncorrectable (R335). -/
def resPoisoned (s : State) (sp : Span) (r : Reservation) (o n : Nat) : Bool :=
  (upTo n).any fun i => cellGet 0 s.bufPoison (resKey sp r (o + i) / 8) != 0

/-! ### OBRES (R319, R321) -/

/-- Granules of the span's holding that its reservations use. -/
def usedGranules (sp : Span) : List Nat :=
  ((sp.reservations.filter resValid).map fun r => (upTo (resSize r)).map (resBase r + ·)).flatten

/-- The first granule of the lowest free run of `n` granules. -/
def freeRun (sp : Span) (n : Nat) : Option Nat :=
  let used := usedGranules sp
  (upTo (sp.granules.length + 1 - n)).find? fun b => (upTo n).all fun i => !used.contains (b + i)

/-- The record a descriptor asks for, at a base (R338). -/
def resOf (d base : Nat) : BitVec 256 :=
  BitVec.ofNat 256 (1 + 2 ^ 20 * base + 2 ^ 28 * bitsOf d 8 0 + 2 ^ 37 * bitsOf d 15 9 + 2 ^ 44 * bitsOf d 18 16 +
    2 ^ 47 * (32 * bitsOf d 31 19))

/-- The record OBRES grants, or none where R321 or R338 refuses. -/
def grantRes (sp : Span) (k d : Nat) : Option (BitVec 256) :=
  let size := bitsOf d 8 0
  let f := bitsOf d 15 9
  let block := bitsOf d 18 16
  if resValid (spanRes sp k) || size = 0 || 256 < size || sp.granules.length < size then none
  else if !([fmtT8, fmtT6, fmtS8, fmtBF16, fmtF16].contains f) then none
  else if !(block = 0 || (block = 5 && (f = fmtT8 || f = fmtT6))) then none
  else
    match freeRun sp size with
    | none => none
    | some base =>
      let r : Reservation := ⟨resOf d base, 0⟩
      if block = 5 && (resRows r % 32 ≠ 0 || 1024 * size < resScaleOff r + resRows r) then none else some r.record

end Sys2Proof.Machine
end

