-- ==== Sys2Proof/Machine/Transfer.lean ====
section
/-!
DEFINITION. The transfer engine: the instructions that post to tq0 to tq3 (R363 to R370), and the steps of the engine (R350 to R362, R433).
-/

namespace Sys2Proof.Machine

/-! ### Descriptors (R354) -/

/-- The eight descriptor words in g registers. -/
def descWords (g : Group) (r : Nat) : List Nat := (upTo 8).map fun i => (readG g (r + i)).toNat

/-- A word of a descriptor. -/
def dw (ws : List Nat) (i : Nat) : Nat := (ws[i]?).getD 0

/-- Fields of a descriptor. -/
def descVa (ws : List Nat) : Nat := dw ws 0 + 2 ^ 32 * dw ws 1
def descRows (ws : List Nat) : Nat := dw ws 4 / 2 ^ 16
def descRowBytes (ws : List Nat) : Nat := dw ws 4 % 2 ^ 16
def descFlag (ws : List Nat) (k : Nat) : Bool := (dw ws 7).testBit k
def descBarrier (ws : List Nat) : Option Nat := if descFlag ws 3 then some (bitsOf (dw ws 7) 7 4) else none
def descMembers (ws : List Nat) : Nat := bitsOf (dw ws 7) 15 8

/-- The barrier on which the members of an MCAST arrive. -/
def mcastArrive (words : List Word) : Option Nat := descBarrier (words.map (·.toNat))

/-! ### Posting (R363 to R365) -/

/-- Every group of a span has exited. -/
def spanExited (sp : Span) : Bool := sp.groups.all groupExited

/-- The members of a span's set: number and identity (R114, R357). -/
def setMembers (s : State) (sp : Span) : List (Nat × Nat) :=
  (s.spans.filter fun p => p.2.launch == sp.launch && p.2.bay == sp.bay && p.2.set == sp.set).map fun p => (p.2.member, p.1)

/-- The queue a transfer word names. -/
def queueOf (e : Enc) : Nat := e.rb.toNat % 4

/-- The barrier the rc field names (R364). -/
def rcBarrier (e : Enc) : Option Nat := if rcField e / 16 % 2 = 1 then some (rcField e % 16) else none

/-- The rc field is legal as a barrier control (R364). -/
def rcBarrierLegal (e : Enc) : Bool := decide (rcField e < 32) && (decide (16 ≤ rcField e) || rcField e == 0)

/-- The queue is full (R350). -/
def queueFull (s : State) (q : Nat) : Bool :=
  match curSpan s with
  | none => false
  | some sp => decide (16 ≤ ((sp.queues[q]?).getD []).length)

/-- A queue of a span rewritten. -/
def modQueue (sid q : Nat) (f : List TransferEntry → List TransferEntry) (s : State) : State :=
  modSpan s sid fun sp => { sp with queues := listSet f q sp.queues }

/-- The members' pends raised, and the cause 6:15 taken by the spans of members without the barrier (R357). -/
def markMembers (k : Option Nat) (ms : List Member) (s : State) : State :=
  ms.foldl (fun acc m =>
    match k with
    | none => acc
    | some k =>
      if m.pends then raisePend m.sid k acc
      else if m.failed == some (causeOf 6 15) then completionCause m.sid none (causeOf 6 15) 0 none acc
      else acc) s

/-- What posting an MCAST does to its members, once its group has gone past it. -/
def markKind (kind : TransferKind) (s : State) : State :=
  match kind with
  | .mcast words ms => markMembers (mcastArrive words) ms s
  | _ => s

/-- An entry posted: the counter rises, pend rises where a barrier is named, the group goes on, and the members of an MCAST are marked. -/
def postTransfer (e : Enc) (lanes : LaneMask) (kind : TransferKind) (barrier : Option Nat) (peer : Bool) (s : State) : State :=
  let g := curGroup s
  let t : TransferEntry := ⟨curNum s, g.opCount, kind, barrier, peer, false, [], none, [], [], none⟩
  let s := modCur s (issueOp .cp .engine lanes)
  let s := match barrier with
    | none => s
    | some k => raisePend (curSid s) k s
  markKind kind (advance (wordLen e) (modQueue (curSid s) (queueOf e) (· ++ [t]) s))

/-- The barrier check, the stalls, then the posting (R365) (log 54, DEDUCED). -/
def postOrStall (e : Enc) (lanes : LaneMask) (kind : State → TransferKind) (barrier : Option Nat) (peer : Bool) (s : State) : State :=
  let bad := match barrier with
    | none => false
    | some k => !(((curSpan s).map fun sp => (spanBarrier sp k).init).getD false)
  if bad then faultWith 0 15 lanes s
  else if queueFull s (queueOf e) || counter (curGroup s) .cp = 63 then s
  else postTransfer e lanes (kind s) barrier peer s

/-- The order of the address checks of R203 step 2: the first failing cause. A deck number of length 0 is a pitch: its alignment alone
is checked (R354) (log 54, DEDUCED). -/
def addressFault (sp : Span) (decks : List (Nat × Nat × Nat)) (globals : List (Nat × Nat)) : Option (Nat × Nat) :=
  if decks.any fun d => d.2.1 != 0 && decide (deckSize sp < d.1 + d.2.1) then some (2, 5)
  else if decks.any fun d => d.1 % d.2.2 != 0 then some (2, 4)
  else if globals.any fun g => g.1 % g.2 != 0 then some (3, 4)
  else if globals.any fun g => decide (2 ^ 56 ≤ g.1) then some (3, 6)
  else none

/-! ### CPY (R352, R366) -/

/-- The form of CPY: rb [2] makes the source a deck offset, [3] the destination. -/
def formCpy (e : Enc) : Form :=
  { rd := if e.rb.getLsbD 3 then .reg 1 1 else .reg 2 2
    ra := if e.rb.getLsbD 2 then .reg 1 1 else .reg 2 2
    rb := .imm, rc := .bits, u := .zero, mem := some ⟨[0, 1, 2, 3], false, true⟩ }

/-- An operand of a lane as a place's number: a deck offset or an address. -/
def cpyOperand (g : Group) (lane : Nat) (deck : Bool) (l : Loc) : Nat :=
  if deck then (readLoc g lane l).toNat else readLocs g lane 2 l

/-- A side of a copy. -/
def placeOf (sid : Nat) (deck : Bool) (a : Nat) : Place := if deck then .deck sid a else .mem a

/-- CPY of `n` bytes a lane. -/
def cpyBody (e : Enc) (n : Nat) (s : State) : State :=
  let g := curGroup s
  let lanes := actLanes e s
  let sdeck := e.rb.getLsbD 2
  let ddeck := e.rb.getLsbD 3
  match curSpan s with
  | none => s
  | some sp =>
    let ops := (laneList lanes).map fun l => (cpyOperand g l sdeck (raLoc e), cpyOperand g l ddeck (rdLoc e))
    let side (deck : Bool) (as : List Nat) : List (Nat × Nat × Nat) := if deck then as.map fun a => (a, n, n) else []
    let glob (deck : Bool) (as : List Nat) : List (Nat × Nat) := if deck then [] else as.map fun a => (a, n)
    let srcs := ops.map (·.1)
    let dsts := ops.map (·.2)
    match addressFault sp (side sdeck srcs ++ side ddeck dsts) (glob sdeck srcs ++ glob ddeck dsts) with
    | some (src, r) => faultWith src r lanes s
    | none =>
      let sid := curSid s
      postOrStall e lanes (fun _ => .copy (ops.map fun p => ⟨placeOf sid sdeck p.1, placeOf sid ddeck p.2, n⟩)) (rcBarrier e) false s

/-- A per-lane copy. -/
def runCpy (e : Enc) (n : Nat) (s : State) : Host.Outcome State Fault Refusal :=
  runForm (formCpy e) (decide (e.rb.toNat < 16) && rcBarrierLegal e) e (cpyBody e n) s

/-- CPY.4 (R366). -/
def execCpy4 (e : Enc) (s : State) : Host.Outcome State Fault Refusal := runCpy e 4 s

/-- CPY.8 (R366). -/
def execCpy8 (e : Enc) (s : State) : Host.Outcome State Fault Refusal := runCpy e 8 s

/-- CPY.16 (R366). -/
def execCpy16 (e : Enc) (s : State) : Host.Outcome State Fault Refusal := runCpy e 16 s

/-! ### Descriptor instructions (R354) -/

/-- Bytes from the first row's start to the last row's end. -/
def descExtent (ws : List Nat) (pitch : Nat) : Nat := (descRows ws - 1) * pitch + descRowBytes ws

/-- The fields every descriptor has in range. -/
def descLegal (ws : List Nat) : Bool :=
  bitsOf (dw ws 7) 31 16 == 0 && (descFlag ws 3 || bitsOf (dw ws 7) 7 4 == 0) &&
  decide (8 ≤ descRowBytes ws) && decide (descRowBytes ws ≤ 65528) && decide (1 ≤ descRows ws)

/-- The form of CPYB, MCAST and CPYP. -/
def formDesc (nt : Bool) : Form :=
  { rd := .reg 8 8, ra := .unused, rb := .imm, u := .one, mem := some ⟨[0, 1, 2, 3], false, nt⟩ }

/-- A descriptor instruction: `check` and `legal` are the entry's own. The address checks of R203 step 2 come first, then the descriptor's
fields, whatever the guard (R365) (log 54, DEDUCED). -/
def runDesc (e : Enc) (nt peer : Bool) (legal : List Nat → State → Span → Bool) (check : List Nat → Span → Option (Nat × Nat))
    (kind : List Nat → State → TransferKind) (barrier : List Nat → Option Nat) (s : State) : Host.Outcome State Fault Refusal :=
  runForm (formDesc nt) (decide (e.rb.toNat < 4)) e (fun s =>
    let ws := descWords (curGroup s) (locNum (rdLoc e))
    let lanes := actLanes e s
    match curSpan s with
    | none => s
    | some sp =>
      match check ws sp with
      | some (src, r) => faultWith src r lanes s
      | none =>
        if !(descLegal ws && legal ws s sp) then faultWith 0 0 lanes s
        else if !qGuard e s then advance (wordLen e) s
        else postOrStall e lanes (kind ws) (barrier ws) peer s) s

/-- A deck offset or pitch of a descriptor: its 20 bits. -/
def descDeck (ws : List Nat) (i : Nat) : Nat := dw ws i % 2 ^ 20

/-- The rows of a copy: row r of a side starts at its base + r·pitch (R354). -/
def rowPieces (ws : List Nat) (src : Nat → Place) (dst : Nat → Place) : List Piece :=
  (upTo (descRows ws)).map fun r => ⟨src r, dst r, descRowBytes ws⟩

/-- CPYB (R367). -/
def execCpyb (e : Enc) (s : State) : Host.Outcome State Fault Refusal :=
  let sid := curSid s
  runDesc e true false
    (fun ws _ _ => !descFlag ws 2 && !descFlag ws 1 && descMembers ws == 0 && dw ws 3 == 0 && decide (dw ws 2 < 2 ^ 20) &&
      decide (dw ws 6 < 2 ^ 20))
    (fun ws sp => addressFault sp [(descDeck ws 2, descExtent ws (descDeck ws 6), 8), (descDeck ws 6, 0, 8)]
      [(descVa ws, 8), (dw ws 5, 8)])
    (fun ws _ =>
      let glob (r : Nat) : Place := .mem (descVa ws + r * dw ws 5)
      let deck (r : Nat) : Place := .deck sid (dw ws 2 + r * dw ws 6)
      .copy (if descFlag ws 0 then rowPieces ws deck glob else rowPieces ws glob deck))
    descBarrier s

/-! ### BINS (R368) -/

/-- A record's words: 1, 2 or 4. -/
def binWords (e : Enc) : Nat := 2 ^ (e.rb.toNat / 4 % 4)

/-- BINS (R368): the table is a g pair named through the XP ra-g bit. -/
def execBins (e : Enc) (s : State) : Host.Outcome State Fault Refusal :=
  runForm { rd := .reg (1 + binWords e) 1, ra := .reg 2 2, rb := .imm, rc := .bits, u := .zero,
            mem := some ⟨[0, 1, 2, 3], false, false⟩ }
    (decide (e.rb.toNat < 16) && decide (e.rb.toNat / 4 < 3) && xpBit e 13 && rcBarrierLegal e) e (fun s =>
      let g := curGroup s
      let lanes := actLanes e s
      let t := readLocs g 0 2 (raLoc e)
      if t % 16 ≠ 0 then faultWith 3 4 lanes s
      else if 2 ^ 56 ≤ t then faultWith 3 6 lanes s
      else
        let items := (laneList lanes).map fun l =>
          (l, (readLoc g l (rdLoc e)).toNat, wordsOf (binWords e) (readLocs g l (binWords e) (locAdd 1 (rdLoc e))))
        postOrStall e lanes (fun _ => .bins t (e.rb.toNat / 4) items (locNum (rdLoc e))) (rcBarrier e) false s) s

/-! ### MCAST (R357, R369) -/

/-- The named members of an MCAST as they stand at issue (R357). -/
def classifyMembers (ws : List Nat) (s : State) (sp : Span) : List Member :=
  ((setMembers s sp).filter fun m => (descMembers ws).testBit m.1).map fun m =>
    match findSpan s m.2 with
    | none => ⟨m.1, m.2, some (causeOf 6 5), false, false, true⟩
    | some x =>
      if spanExited x then ⟨m.1, m.2, some (causeOf 6 5), false, false, true⟩
      else
        match descBarrier ws with
        | none => ⟨m.1, m.2, none, false, false, false⟩
        | some k =>
          if (spanBarrier x k).init then ⟨m.1, m.2, none, true, false, false⟩
          else ⟨m.1, m.2, some (causeOf 6 15), false, false, true⟩

/-- MCAST (R369). -/
def execMcast (e : Enc) (s : State) : Host.Outcome State Fault Refusal :=
  let classify (ws : List Nat) (s : State) : List Member := ((curSpan s).map (classifyMembers ws s)).getD []
  runDesc e false false
    (fun ws s sp => !descFlag ws 0 && descMembers ws != 0 &&
      decide (descMembers ws < 2 ^ (setMembers s sp).length) &&
      (if descFlag ws 2 then decide (dw ws 2 < 2 ^ 24) else decide (dw ws 2 < 2 ^ 20)) && decide (dw ws 6 < 2 ^ 20))
    (fun ws sp =>
      let src := if descFlag ws 1 then [(dw ws 0, descExtent ws (dw ws 5), 8), (dw ws 5, 0, 8)] else []
      let dst := (if descFlag ws 2 then [] else [(descDeck ws 2, 0, 8)]) ++ [(descDeck ws 6, 0, 8)]
      let bounds := addressFault sp (src.take 1 ++ [(dw ws 3, 8, 8)]) []
      let align := (src ++ dst ++ [(dw ws 3, 8, 8)]).any fun d => d.1 % 8 != 0
      let glob := if descFlag ws 1 then [] else [(descVa ws, 8), (dw ws 5, 8)]
      if bounds == some (2, 5) then some (2, 5)
      else if align then some (2, 4)
      else addressFault sp [] glob)
    (fun ws s => .mcast (ws.map (BitVec.ofNat 32)) (classify ws s)) (fun _ => none) s

/-! ### CPYP (R370) -/

/-- The local VA and pitch of a CPYP whose local side is global (R354). -/
def cpypLocal (ws : List Nat) : Nat := dw ws 3 + 2 ^ 32 * (dw ws 6 / 2 ^ 7)
def cpypPitch (ws : List Nat) : Nat := if descFlag ws 1 then dw ws 6 else dw ws 6 % 2 ^ 7 * 8

/-- CPYP (R370). -/
def execCpyp (e : Enc) (s : State) : Host.Outcome State Fault Refusal :=
  let sid := curSid s
  runDesc e true true
    (fun ws _ _ => !descFlag ws 2 && descMembers ws == 0 &&
      (!descFlag ws 1 || (dw ws 3 == 0 && decide (dw ws 6 < 2 ^ 20))))
    (fun ws sp =>
      let peer := descVa ws
      let loc := cpypLocal ws
      let decks := if descFlag ws 1 then [(dw ws 2, descExtent ws (descDeck ws 6), 8), (descDeck ws 6, 0, 8)] else []
      let globs := if descFlag ws 1 then [] else [(loc, 8)]
      match addressFault sp decks [] with
      | some x => some x
      | none =>
        if (globs ++ [(peer, 8), (dw ws 5, 8)]).any fun g => g.1 % g.2 != 0 then some (3, 4)
        else if peer / 2 ^ 56 ≠ 1 || globs.any (fun g => decide (2 ^ 56 ≤ g.1)) then some (3, 6)
        else none)
    (fun ws _ =>
      let peer (r : Nat) : Place := .mem (descVa ws + r * dw ws 5)
      let here (r : Nat) : Place :=
        if descFlag ws 1 then .deck sid (dw ws 2 + r * cpypPitch ws) else .mem (cpypLocal ws + r * cpypPitch ws)
      .copy (if descFlag ws 0 then rowPieces ws here peer else rowPieces ws peer here))
    descBarrier s

/-! ### The engine: reaching a place -/

/-- What reading or writing a run of a place meets. -/
inductive Touch where
  | ok (ps : List Part)
  /-- a local line that must wait: for a fault's service or a move lock -/
  | wait (p : Part)
  | fail (c : Cause)
  | kill
  deriving DecidableEq, Repr

/-- The context and replay flag of a span's launch. -/
def spanCtx (s : State) (sp : Span) : Nat := ((findLaunch s sp.launch).map (·.ctx)).getD 0
def spanReplay (s : State) (sp : Span) : Bool := ((findLaunch s sp.launch).map replayable).getD false

/-- An engine's run of global memory: the causes of a source `src` (R360). Where a write to the same granule of a peer window is not
answered yet, it waits as at a lock, without a fault record (R87) (log 18, DESIGN CHOICE). -/
def touchMem (s : State) (sp : Span) (src : Nat) (need : Need) (va n : Nat) : Touch :=
  let ps := reachRun s (some (spanPier sp)) (spanCtx s sp) need va n
  match firstFault (spanReplay s sp) ps with
  | some r => .fail (causeOf src r)
  | none =>
    match firstPark ps with
    | some p => .wait p
    | none =>
      match ps.find? (peerBusy s) with
      | some p => .wait { p with at_ := .locked 3 0 }
      | none => if needReads need && partsPoisoned s ps then .fail (causeOf src 25) else .ok ps

/-- A run of a place. A store of part of a deck word reads it (R199). -/
def touchPlace (s : State) (sp : Span) (need : Need) (n : Nat) : Place → Touch
  | .mem va => touchMem s sp 6 need va n
  | .deck sid off =>
    match findSpan s sid with
    | none => .ok []
    | some x => if (if needReads need then deckPoisoned s x off n else mergePoisoned s x off n) then .kill else .ok []
  | .buffer _ _ _ => .ok []

/-- The bytes of a place. -/
def readPlace (s : State) (n : Nat) (ps : List Part) : Place → List Byte
  | .mem _ => readParts s ps
  | .deck sid off =>
    match findSpan s sid with
    | none => []
    | some x => readDeck s x off n
  | .buffer sid k off =>
    match findSpan s sid with
    | none => []
    | some x => readRes s x (spanRes x k) off n

/-- Bytes written to a place. -/
def writePlace (ps : List Part) (bs : List Byte) (p : Place) (s : State) : State :=
  match p with
  | .mem _ => writeParts ps bs s
  | .deck sid off =>
    match findSpan s sid with
    | none => s
    | some x => storeDeck x off bs s
  | .buffer sid k off =>
    match findSpan s sid with
    | none => s
    | some x => writeRes x (spanRes x k) off bs s

/-- A first touch that is not ok, in order. -/
def firstStop : List Touch → Option Touch
  | [] => none
  | .ok _ :: rest => firstStop rest
  | t :: _ => some t

/-- The parts of a touch. -/
def touchParts : Touch → List Part
  | .ok ps => ps
  | _ => []

/-! ### The engine: ends of an operation -/

/-- The head of a queue of a span. -/
def queueHead (s : State) (sid q : Nat) : Option TransferEntry := (findSpan s sid).bind fun sp => ((sp.queues[q]?).getD []).head?

/-- The head rewritten. -/
def modHead (sid q : Nat) (f : TransferEntry → TransferEntry) (s : State) : State := modQueue sid q (listSet f 0) s

/-- The barriers whose pend an entry has raised and not lowered: span and number (R16, R357). -/
def openPends (sid : Nat) (t : TransferEntry) : List (Nat × Nat) :=
  (t.barrier.toList.map fun k => (sid, k)) ++
  match t.kind with
  | .mcast words ms => (mcastArrive words).toList.flatMap fun k => (ms.filter fun m => m.pends && !m.done).map fun m => (m.sid, k)
  | _ => []

/-- Their pends lowered without an arrival. -/
def lowerPends (sid : Nat) (t : TransferEntry) (s : State) : State :=
  (openPends sid t).foldl (fun acc b => dropPend b.1 b.2 acc) s

/-- The underrun tests that follow (R188). -/
def testPends (sid : Nat) (t : TransferEntry) (s : State) : State :=
  (openPends sid t).foldl (fun acc b => underrunTest b.1 b.2 acc) s

/-- The operation completes: its barrier arrival, then its counter (R351). -/
def finishTransfer (sid q : Nat) (t : TransferEntry) (s : State) : State :=
  let s := modQueue sid q (List.drop 1) s
  let s := match t.barrier with
    | none => s
    | some k => engineArrive sid k s
  completeOp sid t.g t.op s

/-- The results that BINS leaves unspecified in its lanes (R368) (log 68, DESIGN CHOICE). -/
def binsFree (t : TransferEntry) (s : State) : List OpWrite × State :=
  match t.kind with
  | .bins _ _ items rd => items.foldl (fun (acc : List OpWrite × State) i =>
      let (w, s) := freeWrites (.lane rd) i.1 1 acc.2
      (acc.1 ++ w, s)) ([], s)
  | _ => ([], s)

/-- The operation ends with a completion cause: it makes no arrival, pend and its counter fall, its group takes the cause, and then the
underrun test is made; later entries of its queue wait for RTE (R16, R188, R360). -/
def failTransfer (sid q : Nat) (t : TransferEntry) (c : Cause) (s : State) : State :=
  let (ws, s) := binsFree t (modQueue sid q (List.drop 1) s)
  let s := lowerPends sid t s
  let s := modGroup s sid t.g (modOp t.op fun o => { o with cause := some c, block := some q, writes := ws })
  testPends sid t (completeOp sid t.g t.op s)

/-- An entry of a killed span completes with no access and no arrival (R16, R182, R360). -/
def dropTransfer (sid q : Nat) (t : TransferEntry) (s : State) : State :=
  testPends sid t (completeOp sid t.g t.op (lowerPends sid t (modQueue sid q (List.drop 1) s)))

/-- An engine waits at a part: its fault is posted, once for a context and page; a move lock posts none (R279, R360). -/
def waitAt (id : EngineId) (s : State) (sp : Span) (p : Part) : State :=
  let ctx := spanCtx s sp
  let place := faultPlace s ctx p.va
  let w : EngineWait := ⟨id, place.1, place.2 / 4096, false⟩
  if (parkLock p).isSome then s
  else
    let s := postPart ctx (spanPier sp) p s
    if s.vm.engineWaits.contains w then s else { s with vm := { s.vm with engineWaits := s.vm.engineWaits ++ [w] } }

/-- A wait that a REPLAY has cancelled ends as it would in a launch that is not replayable (R277) (log 50, DEDUCED). -/
def turnTouchOf (s : State) (id : EngineId) (src : Nat) (t : Touch) : Touch :=
  match t with
  | .wait p =>
    if (parkLock p).isNone && s.vm.engineWaits.any fun w =>
        w.engine == id && (w.ctx, w.page) == ((faultPlace s w.ctx p.va).1, (faultPlace s w.ctx p.va).2 / 4096) && w.cancelled then
      .fail (causeOf src ((parkCause p).toNat % 32))
    else t
  | t => t

/-- An engine no longer waits. -/
def endWaits (id : EngineId) (s : State) : State :=
  { s with vm := { s.vm with engineWaits := s.vm.engineWaits.filter fun w => w.engine != id } }

/-- What stops an operation: it waits, ends with a cause, or its span is killed by an uncorrectable deck word (R199). -/
def stopTransfer (sid q : Nat) (sp : Span) (t : TransferEntry) (x : Touch) (s : State) : State :=
  match turnTouchOf s (.transfer sid q) 6 x with
  | .ok _ => s
  | .wait p => waitAt (.transfer sid q) s sp p
  | .fail c => failTransfer sid q t c (endWaits (.transfer sid q) s)
  | .kill => dropTransfer sid q t (killPoisoned sid s)

/-! ### The engine: granule by granule (R90, R353) -/

/-- The number that names a place's first byte when its granules are picked. -/
def placeAddr : Place → Nat
  | .mem va => va
  | .deck _ off => 2 ^ 59 + off
  | .buffer _ r off => 2 ^ 60 + 2 ^ 20 * r + off

/-- The granules of a run that a condition on their address picks, written. -/
def putPicked (pick : Nat → Bool) (addr : Nat) (bs : List Byte) (put : Nat → List Byte → State → State) (s : State) : State :=
  (granulesOf addr bs.length).foldl (fun acc g =>
    if pick g.1 then put (g.1 - addr) ((bs.drop (g.1 - addr)).take g.2) acc else acc) s

/-- The picked granules of a run of parts of this device's memory. -/
def writePicked (pick : Nat → Bool) : List Part → List Byte → State → State
  | [], _, s => s
  | p :: rest, bs, s =>
    let s := match p.at_ with
      | .mem key => putPicked pick p.va (bs.take p.len) (fun i part acc => writeMem (key + i) part acc) s
      | _ => s
    writePicked pick rest (bs.drop p.len) s

/-- The picked granules of a place's bytes; an operand buffer is written whole. -/
def placePicked (pick : Nat → Bool) (t : Touch) (bs : List Byte) (p : Place) (s : State) : State :=
  match t, p with
  | .ok ps, .mem _ => writePicked pick ps bs s
  | .ok _, .deck sid off =>
    match findSpan s sid with
    | none => s
    | some x => putPicked pick (placeAddr p) bs (fun i part acc => writeDeckKey (deckByteKey x (off + i)) part acc) s
  | .ok ps, .buffer _ _ _ => writePlace ps bs p s
  | _, _ => s

/-- A copy's destinations with what they meet and their bytes, in writing order. -/
abbrev CopyRun := (Place × Touch) × List Byte

/-- The picked granules of a copy's writes, in order (R354). -/
def copyPicked (pick : Nat → Bool) (runs : List CopyRun) (s : State) : State :=
  runs.foldl (fun acc r => placePicked pick r.1.2 r.2 r.1.1 acc) s

/-- The granules of a copy's writes that were performed early. -/
def wroteEarly (t : TransferEntry) (addr : Nat) : Bool :=
  match t.early with
  | some (d, true) => isLate (some d) addr
  | _ => false

/-- The reads of a begun copy are not over. -/
def readsOpen (t : TransferEntry) : Bool :=
  match t.early with
  | some (_, false) => true
  | _ => false

/-- The unspecified subset of its writes that a copy which ends with a cause has performed, once its reads are over; and of the granules of
its writes to peer windows not acknowledged (R359, R360) (log 9, DESIGN CHOICE). -/
def partialWrites (t : TransferEntry) (runs : List CopyRun) (s : State) : State :=
  let (d, s) := draw s
  let s := if readsOpen t then s else copyPicked (fun a => !wroteEarly t a && isLate (some d) a) runs s
  { s with peer := t.pending.foldl (fun m w => putKept (fun a => isLate (some d) (2 ^ 61 + a)) w.2.1 w.2.2 m) s.peer }

/-- A run read again: its late granules now, the others as they were (R353). -/
def readAgain (d addr : Nat) (old new : List Byte) : List Byte :=
  ((granulesOf addr old.length).map fun g => (((if isLate (some d) g.1 then new else old).drop (g.1 - addr)).take g.2)).flatten

/-! ### BINS at its turn (R355, R356) -/

/-- Counts of a bin table while lanes are served. -/
structure BinState where
  counts : List (Nat × Nat)
  dropped : Nat
  /-- record writes in order: bin, slot, record -/
  stores : List (Nat × Nat × List Word)
  results : List (Nat × Word)

/-- A saturating add of one. -/
def satInc (x : Nat) : Nat := min (x + 1) 0xFFFFFFFF

/-- A count of a bin: the table's, as the lanes so far have left it. -/
def binCount (entry : Nat → Nat) (st : BinState) (b : Nat) : Nat := (keyFind b st.counts).getD (bitsOf (entry b) 127 96)

/-- A bin's capacity. -/
def binCap (entry : Nat → Nat) (b : Nat) : Nat := bitsOf (entry b) 95 64

/-- A lane whose record is dropped. -/
def binDrop (lane : Nat) (st : BinState) : BinState :=
  { st with dropped := satInc st.dropped, results := st.results ++ [(lane, 0xFFFFFFFF)] }

/-- One lane of BINS (R356). -/
def binLane (entry : Nat → Nat) (mode ov : Nat) (st : BinState) (it : Nat × Nat × List Word) : BinState :=
  let (lane, b, rec) := it
  let c := binCount entry st b
  let st := { st with counts := keySet b (satInc c) st.counts }
  if c < binCap entry b then
    { st with stores := st.stores ++ [(b, c, rec)], results := st.results ++ [(lane, BitVec.ofNat 32 c)] }
  else if mode = 0 && b ≠ ov then
    let t := binCount entry st ov
    let st := { st with counts := keySet ov (satInc t) st.counts }
    if t < binCap entry ov then
      { st with stores := st.stores ++ [(ov, t, rec)], results := st.results ++ [(lane, BitVec.ofNat 32 (0x80000000 + t))] }
    else binDrop lane st
  else binDrop lane st

/-- An entry has a reserved field set or a capacity out of range (R355). -/
def binBad (e : Nat) : Bool := bitsOf e 63 57 != 0 || decide (0x7FFFFFFF < bitsOf e 95 64)

/-- The header is malformed for a record-size code (R355, R368). -/
def headerBad (h code : Nat) : Bool := bitsOf h 95 64 != 0 || bitsOf h 31 4 != 0 || h.testBit 1 || bitsOf h 3 2 != code

/-- What a BINS does at its turn: the writes it makes, address and bytes, in order, and its results; or what stops it. -/
def binsPlan (s : State) (sp : Span) (table code : Nat) (items : List (Nat × Nat × List Word)) :
    Except Touch (List (Nat × List Byte) × List (Nat × Word)) :=
  let read (va : Nat) : Touch := touchMem s sp 6 .engineRead va 16
  let value (va : Nat) : Nat := bytesToNat (readParts s (touchParts (read va)))
  let entryVa (b : Nat) : Nat := table + 16 + 16 * b
  let entry (b : Nat) : Nat := value (entryVa b)
  let bad : Touch := .fail (causeOf 6 0)
  match firstStop [read table] with
  | some t => .error t
  | none =>
    let h := value table
    let n := bitsOf h 47 32
    let ov := bitsOf h 63 48
    let mode := h % 2
    let bins := (items.map fun i => i.2.1).filter fun b => decide (b < n)
    match firstStop (bins.map fun b => read (entryVa b)) with
    | some t => .error t
    | none =>
      if headerBad h code || bins.any fun b => binBad (entry b) then .error bad
      else if items.any (fun i => decide (n ≤ i.2.1)) || (mode = 0 && n ≤ ov) then .error (.fail (causeOf 6 5))
      else
        let st0 : BinState := ⟨[], bitsOf h 127 96, [], []⟩
        let drops := items.foldl (binLane entry 1 ov) st0
        let needOv := mode = 0 && drops.results.any fun r => r.2 == 0xFFFFFFFF
        match (if needOv then firstStop [read (entryVa ov)] else none) with
        | some t => .error t
        | none =>
          if needOv && binBad (entry ov) then .error bad
          else
            let st := items.foldl (binLane entry mode ov) st0
            let counts := st.counts.map fun c => (entryVa c.1 + 12, natToBytes 4 c.2)
            let dropped := if st.dropped = st0.dropped then [] else [(table + 12, natToBytes 4 st.dropped)]
            let recs := st.stores.map fun x =>
              let size := 4 * x.2.2.length
              (bitsOf (entry x.1) 56 0 + size * x.2.1, (x.2.2.map fun w => natToBytes 4 w.toNat).flatten)
            .ok (counts ++ dropped ++ recs, st.results)

/-- Writes to peer windows among some parts, each with its port; and whether one has no live port. -/
def peerWrites (s : State) : List Part → List Byte → List (Nat × Nat × List Byte) × Bool
  | [], _ => ([], false)
  | p :: rest, bs =>
    let (ws, dead) := peerWrites s rest (bs.drop p.len)
    match p.at_ with
    | .peer dev off =>
      match portOf s dev p.va with
      | none => (ws, true)
      | some port => ((port, peerKey dev off, bs.take p.len) :: ws, dead)
    | _ => (ws, dead)

/-- BINS at its turn: every write is checked, then all are made, records granule by granule (R90); the results wait for the completion.
With no lane active it makes no access (R65, R365). -/
def startBins (sid q : Nat) (sp : Span) (t : TransferEntry) (table code : Nat) (items : List (Nat × Nat × List Word)) (rd : Nat)
    (s : State) : State :=
  if items.isEmpty then modHead sid q (fun x => { x with started := true }) s
  else
  match binsPlan s sp table code items with
  | .error x => stopTransfer sid q sp t x s
  | .ok (writes, results) =>
    let touches := writes.map fun w => touchMem s sp 6 .engineWrite w.1 w.2.length
    match firstStop touches with
    | some x => stopTransfer sid q sp t x s
    | none =>
      let (d, s) := draw s
      let far := (touches.zip writes).map fun p => peerWrites s (touchParts p.1) p.2.2
      let s := (touches.zip writes).foldl (fun acc p =>
        (touchParts p.1).foldl (fun (st : State × List Byte) x =>
          (match x.at_ with
            | .mem key => putGranules (some (sid, t.g, t.op)) (if p.2.2.length ≤ 8 then none else some d) none .mem key (st.2.take x.len) st.1
            | _ => sendPart x st.1, st.2.drop x.len)) (acc, p.2.2) |>.1) s
      let s := modGroup s sid t.g (modOp t.op fun o => { o with writes := results.map fun r => .lane rd r.1 r.2 })
      modHead sid q (fun x => { x with
        started := true
        pending := (far.map (·.1)).flatten
        cause := if far.any (·.2) then some (causeOf 6 30) else none }) s

/-! ### The engine's steps (R350, R351, R357, R358) -/

/-- The source pieces of an MCAST: its rows. -/
def mcastSource (sid : Nat) (ws : List Nat) : List (Place × Nat) :=
  (upTo (descRows ws)).map fun r =>
    (if descFlag ws 1 then Place.deck sid (dw ws 0 + r * dw ws 5) else .mem (descVa ws + r * dw ws 5), descRowBytes ws)

/-- The runs an operation reads, in order. -/
def sourcesOf (sid : Nat) (t : TransferEntry) : List (Place × Nat) :=
  match t.kind with
  | .copy pieces => pieces.map fun p => (p.src, p.len)
  | .mcast ws _ => mcastSource sid (ws.map (·.toNat))
  | .bins _ _ _ _ => []

/-- The writes a copy makes to peer windows, with the parts they go to, each write in order. -/
def copyFar (s : State) (sp : Span) (t : TransferEntry) (data : List (List Byte)) : List Part × List (Nat × Nat × List Byte) × Bool :=
  match t.kind with
  | .copy pieces =>
    let runs := (pieces.zip data).map fun p =>
      match p.1.dst with
      | .mem va => ((reachRun s (some (spanPier sp)) (spanCtx s sp) .engineWrite va p.1.len).filter fun (x : Part) => (partPort s x).isSome, p.2)
      | _ => ([], p.2)
    let ws := runs.map fun r => peerWrites s r.1 r.2
    ((runs.map (·.1)).flatten, (ws.map (·.1)).flatten, ws.any (·.2))
  | _ => ([], [], false)

/-- The TLB notes of an engine's parts, its flits having been sent. -/
def noteParts (sp : Span) (ctx : Nat) (ts : List Touch) (s : State) : State :=
  ts.foldl (fun acc t => (touchParts t).foldl (fun acc p => noteAccess (some (spanPier sp)) ctx p.va acc) acc) s

/-- The TLB notes of an engine's parts and the flits of those that go to a peer. -/
def noteTouch (sp : Span) (ctx : Nat) (ts : List Touch) (s : State) : State :=
  noteParts sp ctx ts (ts.foldl (fun acc t => (touchParts t).foldl (fun acc p => sendPart p acc) acc) s)

/-- A span's transfer queues are served: it runs, or it was killed while it waited on its pier (R182, R350). -/
def transferServed (sp : Span) : Bool :=
  match sp.place with
  | .running _ => true
  | .waiting _ => sp.killed.isSome
  | _ => false

/-- The queue a pier's engine started last (R350). -/
def noteServed (pier sid q : Nat) (s : State) : State := { s with served := keySet pier (sid, q) s.served }

/-- A head's reads: what each of its sources meets, and the bytes. -/
def readSources (s : State) (sp : Span) (srcs : List (Place × Nat)) : List Touch × List (List Byte) :=
  let touches := srcs.map fun p => touchPlace s sp .engineRead p.2 p.1
  (touches, (srcs.zip touches).map fun p => readPlace s p.1.2 (touchParts p.2) p.1.1)

/-- TRANSFER_OP_START: the head of a queue is read, or its BINS is performed, where the span is resident (R350). -/
def startTransfer (sid q : Nat) (s : State) : State :=
  match findSpan s sid, queueHead s sid q with
  | some sp, some t =>
    if t.started || !transferServed sp then s
    else if isBlocked sp q then (if sp.killed.isSome then dropTransfer sid q t s else s)
    else
      match t.kind with
      | .bins table code items rd => startBins sid q sp t table code items rd (noteServed (spanPier sp) sid q s)
      | _ =>
        let srcs := sourcesOf sid t
        let (touches, data) := readSources s sp srcs
        match firstStop touches with
        | some x => stopTransfer sid q sp t x s
        | none =>
          let (parts, far, dead) := copyFar s sp t data
          if parts.any (peerBusy s) then s
          else
          let reads := ((touches.map touchParts).flatten).filterMap (partPort s)
          let s := noteTouch sp (spanCtx s sp) touches (noteServed (spanPier sp) sid q s)
          let s := parts.foldl (fun acc p => sendPart p acc) s
          let (d, s) := draw s
          modHead sid q (fun x => { x with
            started := true
            data := data
            early := some (d, false)
            pending := far
            readPorts := reads.filterMap (fun p => p)
            cause := if dead || reads.contains none then some (causeOf 6 30) else none }) s
  | _, _ => s

/-- Bytes written by an engine to a span's deck from an offset on, granule by granule (R90). -/
def putDeck (owner : Nat × Nat × Nat) (d : Nat) (x : Span) (off : Nat) (bs : List Byte) (s : State) : State :=
  (granulesOf off bs.length).foldl (fun acc g =>
    putGranules (some owner) (some d) none .deck (deckByteKey x g.1) ((bs.drop (g.1 - off)).take g.2) acc) s

/-- One member of an MCAST written, or failed, its deck rows granule by granule (R90, R357). A row that ends inside a deck word reads that
word, whose error kills the member's span (R199). -/
def mcastMember (owner : Nat × Nat × Nat) (ws : List Nat) (data : List (List Byte)) (m : Member) (s : State) : State × Option Cause :=
  match findSpan s m.sid with
  | none => (s, some (causeOf 6 5))
  | some x =>
    if spanExited x then (s, some (causeOf 6 5))
    else if descFlag ws 2 then
      let k := dw ws 2 % 16
      let n := dw ws 2 / 16
      let r := spanRes x k
      let w := rowBytes (resFormat r)
      if !resValid r || resMode r = 2 || descRowBytes ws ≠ w || resRows r < n + descRows ws then (s, some (causeOf 6 21))
      else
        let s := if resMode r = 0 then modSpan s m.sid (modRes k (resSetMode 1)) else s
        (((upTo data.length).zip data).foldl (fun acc p => writeRes x r (w * (n + p.1)) p.2 acc) s, none)
    else if deckSize x < dw ws 2 + descExtent ws (dw ws 6) then (s, some (causeOf 6 5))
    else
      let rows := ((upTo data.length).zip data).map fun p => (dw ws 2 + p.1 * dw ws 6, p.2)
      if rows.any fun r => mergePoisoned s x r.1 r.2.length then (killPoisoned m.sid s, some (causeOf 6 5))
      else
        let (d, s) := draw s
        (rows.foldl (fun acc r => putDeck owner d x r.1 r.2 acc) s, none)

/-- The member's arrival, or its pend lowered, its span's cause taken and the underrun test made (R357). -/
def endMember (k : Option Nat) (exited : Bool) (m : Member) (failed : Option Cause) (s : State) : State :=
  match failed with
  | none =>
    match k with
    | none => s
    | some k => if m.pends then engineArrive m.sid k s else s
  | some c =>
    let deliver (s : State) : State := if exited then s else completionCause m.sid none c 0 none (noteError c s)
    match k with
    | some k => if m.pends then engineFail m.sid k deliver s else deliver s
    | none => deliver s

/-- A member rewritten in the head of a queue. -/
def modMember (sid q : Nat) (words : List Word) (ms : List Member) (num : Nat) (f : Member → Member) (s : State) : State :=
  modHead sid q (fun t => { t with kind := .mcast words (ms.map fun x => if x.num = num then f x else x) }) s

/-- The next member of an MCAST, once it is on a pier: its rows are written, and once every granule is performed it arrives, or it fails
(R86, R90, R357). -/
def stepMcast (sid q : Nat) (t : TransferEntry) (words : List Word) (ms : List Member) (s : State) : State :=
  match ms.find? fun m => !m.done with
  | none => s
  | some m =>
    let ws := words.map (·.toNat)
    let owner := (sid, t.g, t.op)
    let exited := ((findSpan s m.sid).map spanExited).getD true
    let away := ((findSpan s m.sid).map fun x => (placePier x.place).isNone).getD false
    if m.written then
      modMember sid q words ms m.num (fun x => { x with done := true })
        (endMember (descBarrier ws) exited m none (settleWrites (lateOfOp owner) s))
    else if away && !exited then s
    else
      match mcastMember owner ws t.data m s with
      | (s, none) => modMember sid q words ms m.num (fun x => { x with written := true }) s
      | (s, some c) =>
        modMember sid q words ms m.num (fun x => { x with failed := some c, done := true }) (endMember (descBarrier ws) exited m (some c) s)

/-- The reads of a begun copy end, those of a peer copy having ended as its requests were sent, and its early writes are performed; none where
some destination cannot be reached now (R353, R360) (log 9, DESIGN CHOICE). -/
def endReads (sid q : Nat) (sp : Span) (t : TransferEntry) (d : Nat) (pieces : List Piece) (s : State) : State :=
  let srcs := sourcesOf sid t
  let (touches, now) := readSources s sp srcs
  match firstStop touches with
  | some x => stopTransfer sid q sp t x s
  | none =>
    let again (r : ((Place × Nat) × Touch) × (List Byte × List Byte)) : List Byte :=
      if t.peer then r.2.1 else readAgain d (placeAddr r.1.1.1) r.2.1 r.2.2
    let data := ((srcs.zip touches).zip (t.data.zip now)).map again
    let runs := (pieces.map fun p => (p.dst, touchPlace s sp .engineWrite p.len p.dst)).zip data
    let ended (early : Option (Nat × Bool)) (s : State) : State :=
      modHead sid q (fun x => { x with data := data, early := early, readPorts := [] }) s
    if (firstStop (runs.map (·.1.2))).isSome then ended none s
    else
      let (k, s) := draw s
      ended (some (k, true)) (copyPicked (isLate (some k)) runs s)

/-- The rest of a copy's writes are performed, and it completes: a copy to a peer only when every write is acknowledged (R353, R359). -/
def endWrites (sid q : Nat) (sp : Span) (t : TransferEntry) (runs : List CopyRun) (s : State) : State :=
  match (firstStop (runs.map (·.1.2))).map (turnTouchOf s (.transfer sid q) 6) with
  | some (.fail c) => failTransfer sid q t c (partialWrites t runs (endWaits (.transfer sid q) s))
  | some x => stopTransfer sid q sp t x s
  | none =>
    let s := noteParts sp (spanCtx s sp) (runs.map (·.1.2)) s
    finishTransfer sid q t (copyPicked (fun a => !wroteEarly t a) runs s)

/-- TRANSFER_OP_COMPLETE: a begun copy goes on, its reads ending before its writes begin, and completes; a performed BINS completes; the next
member of an MCAST is served. What a peer has not answered is waited for; a cause ends the operation (R351, R353, R359, R360). -/
def completeTransfer (sid q : Nat) (s : State) : State :=
  match findSpan s sid, queueHead s sid q with
  | some sp, some t =>
    if !t.started || !transferServed sp then s
    else
      let runs : List CopyRun := match t.kind with
        | .copy pieces => (pieces.map fun p => (p.dst, touchPlace s sp .engineWrite p.len p.dst)).zip t.data
        | _ => []
      match t.cause with
      | some c => failTransfer sid q t c (partialWrites t runs s)
      | none =>
        match t.kind, t.early with
        | .mcast words ms, _ => stepMcast sid q t words ms s
        | .copy pieces, some (d, false) => endReads sid q sp t d pieces s
        | _, _ => if !t.pending.isEmpty then s else endWrites sid q sp t runs s
  | _, _ => s

/-- The completion word (R358). -/
def mcastWord (mask : Nat) (ms : List Member) : Nat :=
  let failed := ms.filter fun m => m.failed.isSome
  let bits (l : List Member) : Nat := l.foldl (fun acc m => acc ||| 2 ^ m.num) 0
  let first := failed.foldl (fun (acc : Option Member) m =>
    match acc with
    | none => some m
    | some b => if m.num < b.num then some m else some b) none
  2 ^ 32 * ((first.bind (·.failed)).map (·.toNat)).getD 0 + 2 ^ 16 * mask + 2 ^ 8 * bits failed +
    bits (ms.filter fun m => m.failed.isNone)

/-- MCAST_COMPLETE: every member has completed or failed; the completion word is written and the operation completes (R358). -/
def completeMcast (sid q : Nat) (s : State) : State :=
  match findSpan s sid, queueHead s sid q with
  | some sp, some t =>
    match t.kind with
    | .mcast words ms =>
      if t.started && ms.all (·.done) then
        let ws := words.map (·.toNat)
        finishTransfer sid q t (storeDeck sp (dw ws 3) (natToBytes 8 (mcastWord (descMembers ws) ms)) s)
      else s
    | _ => s
  | _, _ => s

/-- TRANSFER_OP_START (R350). -/
def execTransferOpStart (sid q : Nat) (s : State) : Host.Outcome State Fault Refusal := .next (startTransfer sid q s)

/-- TRANSFER_OP_COMPLETE (R351). -/
def execTransferOpComplete (sid q : Nat) (s : State) : Host.Outcome State Fault Refusal := .next (completeTransfer sid q s)

/-- MCAST_COMPLETE (R358). -/
def execMcastComplete (sid q : Nat) (s : State) : Host.Outcome State Fault Refusal := .next (completeMcast sid q s)

end Sys2Proof.Machine
end

