-- ==== Sys2Proof/Machine/Moves.lean ====
section
/-!
DEFINITION. Faults, replay and page moves: TLBINV, REPLAY, FAULTQ, hardware fault service, the move lock and layer map-out (R275 to R281).
-/

namespace Sys2Proof.Machine

/-! ### TLBs (R275, R278) -/

/-- TLB entries of every pier and die removed where a condition holds. -/
def dropTlb (f : TlbEntry → Bool) (s : State) : State :=
  let keep (l : List (Nat × List TlbEntry)) : List (Nat × List TlbEntry) := l.map fun x => (x.1, x.2.filter fun t => !f t)
  { s with vm := { s.vm with pierTlb := keep s.vm.pierTlb, dieTlb := keep s.vm.dieTlb } }

/-- Window translations removed where a condition holds (log 49, DEDUCED). -/
def dropWindows (f : Window → Bool) (s : State) : State :=
  { s with vm := { s.vm with windows := s.vm.windows.filter fun w => !f w } }

/-- A context's translations removed, its window with them. -/
def dropContext (ctx : Nat) (s : State) : State := dropWindows (fun w => w.ctx == ctx) (dropTlb (fun t => t.ctx == ctx) s)

/-- Two runs of addresses meet (log 49, DEDUCED). -/
def runsMeet (a n b m : Nat) : Bool := decide (a < b + m) && decide (b < a + n)

/-- TLBINV_START: the translations of the range are removed; the register reads go until TLBINV_COMPLETE (R275) (log 49, DEDUCED). -/
def tlbinvStart (v : BitVec 128) (s : State) : State :=
  let n := v.toNat
  if bitsOf n 126 105 ≠ 0 || bitsOf n 63 57 ≠ 0 || bitsOf n 11 0 ≠ 0 then s
  else
    let s := { s with vm := { s.vm with tlbinv := v } }
    if !v.getLsbD 127 then s
    else
      let ctxOk (c : Nat) : Bool := v.getLsbD 104 || c == bitsOf n 103 96
      let va := bitsOf n 63 0
      let len := 4096 * bitsOf n 95 64
      let all := len == 0
      let s := dropTlb (fun t => ctxOk t.ctx && (all || runsMeet va len (t.page * 2 ^ t.leaf.size) (2 ^ t.leaf.size))) s
      dropWindows (fun w => ctxOk w.ctx && (all || runsMeet va len w.base (w.limit - w.base))) s

/-- TLBINV_START (R275, R278). -/
def execTlbinvStart (v : BitVec 128) (s : State) : Host.Outcome State Fault Refusal := .next (tlbinvStart v s)

/-- TLBINV_COMPLETE: while go reads 1, every access translated so far is performed, and go reads 0 (R275). -/
def tlbinvComplete (s : State) : State :=
  if s.vm.tlbinv.getLsbD 127 then
    let s := settleAll s
    { s with vm := { s.vm with tlbinv := s.vm.tlbinv &&& ~~~((1 : BitVec 128) <<< 127) } }
  else s

/-- TLBINV_COMPLETE (R275) (log 1, DESIGN CHOICE). -/
def execTlbinvComplete (s : State) : Host.Outcome State Fault Refusal := .next (tlbinvComplete s)

/-! ### REPLAY (R277) -/

/-- Parked entries of a page of a context, or of any page of it, marked (log 50, DEDUCED). -/
def markParked (ctx : Nat) (page : Option Nat) (cancel : Bool) (l : List Parked) : List Parked :=
  l.map fun p =>
    if p.lock.isNone && p.ctx == ctx && (page.isNone || page == some p.page) then
      (if cancel then { p with cancel := true } else { p with retry := true })
    else p

/-- A group's parked entries marked. -/
def markGroup (ctx : Nat) (page : Option Nat) (cancel : Bool) (g : Group) : Group :=
  { g with parked := markParked ctx page cancel g.parked, savedParked := markParked ctx page cancel g.savedParked }

/-- The context of a launch. -/
def launchCtx (s : State) (l : Nat) : Option Nat := (findLaunch s l).map (·.ctx)

/-- A page of a context, or every page, is replayed or cancelled: parked groups, engines that wait, and the faults' records (R276, R277)
(log 50, DEDUCED). -/
def replayPage (ctx : Nat) (page : Option Nat) (cancel : Bool) (s : State) : State :=
  let hit (p : Nat) : Bool := page.isNone || page == some p
  let spans := s.spans.map fun p => (p.1, { p.2 with groups := p.2.groups.map (markGroup ctx page cancel) })
  let engines := s.fe.engines.map fun en => { en with grp := markGroup ctx page cancel en.grp }
  let waits := s.vm.engineWaits.filterMap fun w =>
    if w.ctx == ctx && hit w.page then (if cancel then some { w with cancelled := true } else none) else some w
  { s with
    spans := spans
    fe := { s.fe with engines := engines }
    vm := { s.vm with
      engineWaits := waits
      faultOpen := s.vm.faultOpen.filter fun f => !(f.ctx == ctx && hit f.page) } }

/-- A REPLAY write with its cancel bit as `cancel`; one with a reserved field set is ignored whole (R278). The host's earlier writes are
performed before it (R97). -/
def replayWrite (cancel : Bool) (v : BitVec 128) (s : State) : State :=
  let n := v.toNat
  if bitsOf n 127 74 ≠ 0 || bitsOf n 63 57 ≠ 0 || bitsOf n 11 0 ≠ 0 || v.getLsbD 73 ≠ cancel then s
  else
    let s := settleHost { s with vm := { s.vm with replay := v } }
    replayPage (bitsOf n 71 64) (if v.getLsbD 72 then none else some (bitsOf n 56 12)) cancel s

/-- REPLAY_RETRY (R277). -/
def execReplayRetry (v : BitVec 128) (s : State) : Host.Outcome State Fault Refusal := .next (replayWrite false v s)

/-- REPLAY_CANCEL (R277). -/
def execReplayCancel (v : BitVec 128) (s : State) : Host.Outcome State Fault Refusal := .next (replayWrite true v s)

/-! ### The fault queue (R276, R278) -/

/-- FAULTQ_WRITE: a change of ring or size restarts the sequence; records that waited for room are written. -/
def faultqWrite (v : BitVec 128) (s : State) : State :=
  let n := v.toNat
  if bitsOf n 95 68 ≠ 0 || bitsOf n 11 0 ≠ 0 || 12 ≤ bitsOf n 67 64 then s
  else
    let same := bitsOf n 67 12 == bitsOf s.vm.faultq.toNat 67 12
    let waiting := s.vm.faultWaiting
    let s := { s with vm := { s.vm with faultq := v, faultSeq := if same then s.vm.faultSeq else 0, faultWaiting := [] } }
    if ringBase v = 0 then s else flushFaults waiting s

/-- FAULTQ_WRITE (R276). -/
def execFaultqWrite (v : BitVec 128) (s : State) : Host.Outcome State Fault Refusal := .next (faultqWrite v s)

/-! ### Table entries in memory (R272, R275) -/

/-- An entry of a page table: its level, the number of its first byte, its value. -/
structure TableSlot where
  level : Nat
  key : Nat
  value : Nat
  deriving DecidableEq, Repr

/-- Indices of the entries of a table of `n` entries that are not 0: the memory lists no other (log 4, DESIGN CHOICE). -/
def tableIndices (s : State) (key n : Nat) : List Nat :=
  ((s.mem.filter fun c => decide (key ≤ c.1) && decide (c.1 < key + 8 * n)).map fun c => (c.1 - key) / 8).eraseDups

/-- The eight bytes at a number. -/
def readKey (s : State) (key : Nat) : Nat := bytesToNat (cellRange emptyByte s.mem key 8)

/-- The tier and frame of a byte number. -/
def keyFrame (key : Nat) : Nat × Nat := (key / 2 ^ 52, key % 2 ^ 52 / frameBytes)

/-- A byte number moved with its frame. -/
def keyMoved (m : Move) (key : Nat) : Nat :=
  if keyFrame key = (m.srcTier, m.srcFrame) then memKey m.dstTier (m.dstFrame * frameBytes + key % frameBytes) else key

/-- An entry of a table rewritten by the part. Where the table's own frame is under a lock and copied, its copy is rewritten too, so that
the entry is not lost when the frame is exchanged (R99, R279) (log 46, DEDUCED). -/
def writeEntry (key : Nat) (bs : List Byte) (s : State) : State :=
  let s := writeMem key bs s
  match s.vm.moves.find? fun m => m.started && keyFrame key == (m.srcTier, m.srcFrame) with
  | none => s
  | some m => writeMem (keyMoved m key) bs s

/-- The entries of a table and of every table below it, `below` levels under this one. -/
def tableTree (s : State) : Nat → Nat → Nat → List TableSlot
  | 0, tier, pa =>
    (tableIndices s (memKey tier pa) 512).map fun i => ⟨3, memKey tier pa + 8 * i, readKey s (memKey tier pa + 8 * i)⟩
  | n + 1, tier, pa =>
    ((tableIndices s (memKey tier pa) (if n = 2 then 131072 else 512)).map fun i =>
      let e := readKey s (memKey tier pa + 8 * i)
      let here : TableSlot := ⟨2 - n, memKey tier pa + 8 * i, e⟩
      if e % 2 = 1 && !e.testBit 1 && bitsOf e 55 54 < 3 then here :: tableTree s n (bitsOf e 55 54) (4096 * bitsOf e 51 12)
      else [here]).flatten

/-- The entries of a context's tables. -/
def contextSlots (s : State) (ctx : Nat) : List TableSlot :=
  let e := ctxEntry s ctx
  if e % 2 = 1 && bitsOf e 55 54 < 3 then tableTree s 3 (bitsOf e 55 54) (2 ^ 20 * bitsOf e 51 20) else []

/-- The entries of every context's tables. -/
def allSlots (s : State) : List TableSlot := (((upTo 256).map (contextSlots s)).flatten).eraseDups

/-- A valid leaf. -/
def slotLeaf (t : TableSlot) : Bool := t.value % 2 == 1 && t.value.testBit 1 && decide (2 ≤ t.level)

/-- A valid entry that names a table. -/
def slotPointer (t : TableSlot) : Bool := t.value % 2 == 1 && !t.value.testBit 1 && decide (t.level ≤ 2)

/-- The tier and frame an entry names. -/
def slotFrame (value : Nat) : Nat × Nat := (bitsOf value 55 54, 4096 * bitsOf value 51 12 / frameBytes)

/-- An entry made to name another frame of a tier, at the same place in it (log 46, DEDUCED). -/
def retarget (value tier frame : Nat) : Nat :=
  let place := bitsOf value 51 12 % 512
  value - bitsOf value 55 54 * 2 ^ 54 - bitsOf value 51 12 * 2 ^ 12 + tier * 2 ^ 54 + (frame * 512 + place) * 2 ^ 12

/-- The root words of the context table that name a table in a frame, with the numbers of their first bytes. -/
def rootSlots (s : State) : List TableSlot :=
  ((upTo 256).map fun c =>
    let (t, pa) := ctxEntryPa s c
    (⟨0, memKey t pa, readKey s (memKey t pa)⟩ : TableSlot)).filter fun r => r.value % 2 == 1

/-- The entries that name a frame: its leaves, and for a map-out the entries and roots that name a table in it too. -/
def frameEntries (s : State) (tables : Bool) (tier frame : Nat) : List (Nat × Nat) :=
  let named (t : TableSlot) : Bool := slotFrame t.value == (tier, frame)
  ((allSlots s).filter fun t => named t && (slotLeaf t || (tables && slotPointer t))).map (fun t => (t.key, t.value)) ++
    (if tables then ((rootSlots s).filter named).map fun t => (t.key, t.value) else [])

/-! ### Moves under a lock (R279) -/

/-- A move. -/
def findMove (s : State) (id : Nat) : Option Move := s.vm.moves.find? fun m => m.id == id

/-- A move entered, with the entries it expects to exchange (R275, R279) (log 46, DEDUCED). -/
def addMove (owner : MoveOwner) (ctx page srcTier srcFrame dstTier dstFrame : Nat) (s : State) : State :=
  let es := frameEntries s (owner == .mapout) srcTier srcFrame
  let m : Move := ⟨s.vm.nextMove, owner, ctx, page, srcTier, srcFrame, dstTier, dstFrame, false, es⟩
  { s with vm := { s.vm with moves := s.vm.moves ++ [m], nextMove := s.vm.nextMove + 1 } }

/-- `n` items from number `src` copied over those from `dst`. -/
def cellsCopy {w : Nat} (d : BitVec w) (c : Cells w) (src dst n : Nat) : Cells w :=
  cellSetAll d (c.filter fun kv => !(decide (dst ≤ kv.1) && decide (kv.1 < dst + n)))
    ((c.filter fun kv => decide (src ≤ kv.1) && decide (kv.1 < src + n)).map fun kv => (kv.1 - src + dst, kv.2))

/-- A frame copied; an uncorrectable granule is copied as uncorrectable, and what a pier has fetched of the frame's old contents is dropped
(R99, R279) (log 55, DESIGN CHOICE). -/
def copyFrame (srcTier srcFrame dstTier dstFrame : Nat) (s : State) : State :=
  let a := memKey srcTier (frameBytes * srcFrame)
  let b := memKey dstTier (frameBytes * dstFrame)
  { s with
    mem := cellsCopy emptyByte s.mem a b frameBytes
    poison := cellsCopy 0 s.poison (a / 8) (b / 8) (frameBytes / 8)
    icache := s.icache.filter fun x => !(decide (b ≤ x.2.1) && decide (x.2.1 < b + frameBytes)) }

/-- A fault of the page is not serviced (R293). -/
def pageFaulted (s : State) (ctx page : Nat) : Bool :=
  s.vm.faultOpen.any fun f => f.ctx == ctx && f.page / 512 == page

/-- A trestle's move waits while a fault of its page is not serviced (R293). -/
def moveWaits (s : State) (m : Move) : Bool := m.owner != .mapout && pageFaulted s m.ctx m.page

/-- PAGE_MOVE_START: the frame is locked, earlier writes drain, and the frame is copied (R279 steps 1 to 3). -/
def moveStart (id : Nat) (s : State) : State :=
  match findMove s id with
  | none => s
  | some m =>
    if m.started || 64 ≤ (s.vm.moves.filter (·.started)).length || frameLocked s m.srcTier m.srcFrame || moveWaits s m then s
    else
      let s := settleAll s
      let s := { s with vm := { s.vm with
        moves := s.vm.moves.map fun x => if x.id = id then { x with started := true } else x } }
      copyFrame m.srcTier m.srcFrame m.dstTier m.dstFrame s

/-- PAGE_MOVE_START (R279). -/
def execPageMoveStart (id : Nat) (s : State) : Host.Outcome State Fault Refusal := .next (moveStart id s)

/-- The compare-and-swaps of a move succeed: every entry found as the move was decided still has its value (R275, R293). -/
def moveHolds (s : State) (m : Move) : Bool := m.leaves.all fun x => readKey s x.1 == x.2

/-- Every entry that now names the frame exchanged, one installed during the move with the others, the context table's own place with it,
and the TLB entries removed; the entries that other moves expect in the frame move with it (R279 step 4) (log 46, DEDUCED). -/
def switchFrame (m : Move) (s : State) : State :=
  let es := frameEntries s (m.owner == .mapout) m.srcTier m.srcFrame
  let s := es.foldl (fun acc x => writeEntry x.1 (natToBytes 8 (retarget x.2 m.dstTier m.dstFrame)) acc) s
  let s := { s with vm := { s.vm with
    moves := s.vm.moves.map fun x => { x with leaves := x.leaves.map fun y => (keyMoved m y.1, y.2) } } }
  let tab := s.vm.ctxtab.toNat
  let at_ := 4096 * bitsOf tab 63 12
  let s :=
    if m.owner == .mapout && tab % 4 == m.srcTier && at_ / frameBytes == m.srcFrame then
      { s with vm := { s.vm with
        ctxtab := BitVec.ofNat 64 (m.dstTier + frameBytes * m.dstFrame + at_ % frameBytes) } }
    else s
  dropTlb (fun t => t.leaf.tier == m.srcTier && t.leaf.base / frameBytes == m.srcFrame) s

/-- Parked accesses and fetches of a lock retranslate (R279 step 5). -/
def unparkLock (tier frame : Nat) (s : State) : State :=
  let mark (l : List Parked) : List Parked := l.map fun p => if p.lock == some (tier, frame) then { p with retry := true } else p
  let grp (g : Group) : Group := { g with parked := mark g.parked, savedParked := mark g.savedParked }
  { s with
    spans := s.spans.map fun p => (p.1, { p.2 with groups := p.2.groups.map grp })
    fe := { s.fe with engines := s.fe.engines.map fun en => { en with grp := grp en.grp } } }

/-- A move ends: its entries are exchanged, or it is abandoned, and the lock is released. The flag says that the frame has moved. -/
def moveEnd (m : Move) (s : State) : State × Bool :=
  let ok := moveHolds s m
  let s := if ok then switchFrame m s else s
  let s := { s with vm := { s.vm with moves := s.vm.moves.filter fun x => x.id ≠ m.id } }
  (unparkLock m.srcTier m.srcFrame s, ok)

/-! ### Pages the host owns (R276) -/

/-- The number of the first byte of the leaf entry of an address, and how many entries form the leaf. -/
def leafSlotFrom (s : State) (va : Nat) : Nat → Nat → Nat → Option (Nat × Nat)
  | tier, table, fuel =>
    if tier = 3 then none
    else
      match fuel with
      | 0 =>
        let key := memKey tier (table + 8 * (va / 2 ^ 12 % 2 ^ 9))
        if (readKey s key).testBit 52 then some (memKey tier ((table + 8 * (va / 2 ^ 12 % 2 ^ 9)) / 128 * 128), 16) else some (key, 1)
      | n + 1 =>
        let (lo, w) := levelShift (3 - (n + 1))
        let key := memKey tier (table + 8 * (va / 2 ^ lo % 2 ^ w))
        let e := readKey s key
        if e % 2 = 0 then none
        else if e.testBit 1 then some (key, 1)
        else leafSlotFrom s va (bitsOf e 55 54) (4096 * bitsOf e 51 12) n

/-- A host-owned page of HBM or the far tier is transferred to the device: the host's writes are performed, owner := device, its TLB entries
are removed, and its accesses replay (R97, R276). -/
def takeBack (ctx page : Nat) (s : State) : State :=
  let s := settleHost s
  let va := 4096 * page
  let s := match walk s ctx va with
    | .ok x =>
      if x.hostOwned && x.tier < 2 then
        let e := ctxEntry s ctx
        match leafSlotFrom s va (bitsOf e 55 54) (2 ^ 20 * bitsOf e 51 20) 3 with
        | none => s
        | some (key, n) =>
          let s := (upTo n).foldl (fun acc i =>
            let v := readKey acc (key + 8 * i)
            writeEntry (key + 8 * i) (natToBytes 8 (v - bitsOf v 53 53 * 2 ^ 53)) acc) s
          dropTlb (fun t => t.ctx == ctx && t.page == va / 2 ^ t.leaf.size) s
      else s
    | _ => s
  replayPage ctx (some page) false s

/-- HW_FAULT_SERVICE (R276). -/
def execHwFaultService (ctx page : Nat) (s : State) : Host.Outcome State Fault Refusal :=
  .next (if s.vm.faultOpen.any fun f => f.ctx == ctx && f.page == page && f.hw then takeBack ctx page s else s)

/-! ### Layer map-out (R281) -/

/-- A frame lies in a layer of a stack. -/
def inLayer (stack layer f : Nat) : Bool := frameStack f == stack && frameLayer f == layer

/-- The frames of a layer, ascending. -/
def layerFrames (stack layer : Nat) : List Nat := (upTo 3072).map fun i => 8 * (3072 * layer + i) + stack

/-- The state field of MAPOUT, with the phase of the sequence. -/
def setMapPhase (phase : Nat) (s : State) : State :=
  { s with vm := { s.vm with
    mapOut := s.vm.mapOut.map fun m => { m with phase := phase }
    mapout := BitVec.ofNat 64 (s.vm.mapout.toNat - bitsOf s.vm.mapout.toNat 10 8 * 2 ^ 8 + phase * 2 ^ 8) } }

/-- State 3, with its interrupt (R281, R427). -/
def blockMap (s : State) : State :=
  if (s.vm.mapOut.map (·.phase)) == some 3 then s else fireVector 130 (setMapPhase 3 s)

/-- A window covers a frame of a layer. -/
def windowOver (stack layer : Nat) (w : Window) : Bool :=
  w.valid && (layerFrames stack layer).any fun f =>
    decide ((w.base + w.offset) % 2 ^ 52 ≤ frameBytes * f) && decide (frameBytes * f < (w.base + w.offset) % 2 ^ 52 + (w.limit - w.base))

/-- Every window over the layer is made invalid, and its context's translations are removed (R281 step 1). -/
def dropLayerWindows (stack layer : Nat) (s : State) : State :=
  (upTo 256).foldl (fun acc c =>
    let e := ctxEntry acc c
    if e % 2 = 1 && windowOver stack layer (windowOf c e) then
      let (t, pa) := ctxEntryPa acc c
      let key := memKey t pa + 32
      dropContext c (writeEntry key (natToBytes 8 (readKey acc key / 2 * 2)) acc)
    else if acc.vm.windows.any fun w => w.ctx == c && windowOver stack layer w then dropContext c acc
    else acc) s

/-- The frames of a layer that a leaf, a table entry, a root or CTXTAB names. -/
def reachedFrames (s : State) (stack layer : Nat) : List Nat :=
  let named := ((allSlots s).filter fun t => slotLeaf t || slotPointer t) ++ rootSlots s
  let frames := (named.filter fun t => (slotFrame t.value).1 == 0).map fun t => (slotFrame t.value).2
  let tab := s.vm.ctxtab.toNat
  let tabs := if tab % 4 = 0 then [4096 * bitsOf tab 63 12 / frameBytes] else []
  ((frames ++ tabs).filter (inLayer stack layer)).eraseDups

/-- A frame taken from the end of the SPARE list. -/
def takeSpare (s : State) : Option (Nat × State) :=
  let n := s.vm.spare.toNat
  let count := bitsOf n 95 64
  if count = 0 then none
  else
    let f := bytesToNat (cellRange emptyByte s.mem (memKey 0 (bitsOf n 63 0 + 4 * (count - 1))) 4)
    some (f, { s with vm := { s.vm with spare := BitVec.ofNat 128 (n - 2 ^ 64) } })

/-- Moves entered for frames of the layer, each to a spare frame; without one the sequence blocks (R281 step 2) (log 48, DEDUCED). -/
def planFrames : List Nat → State → State
  | [], s => s
  | f :: rest, s =>
    match takeSpare s with
    | none => blockMap s
    | some (d, s) => planFrames rest (addMove .mapout 0 0 0 f 0 d s)

/-- The frames that wait to be moved: reached, and under no move. -/
def unplanned (s : State) (stack layer : Nat) : List Nat :=
  (reachedFrames s stack layer).filter fun f => !(s.vm.moves.any fun m => m.srcTier == 0 && m.srcFrame == f)

/-- The map-out goes on: moves are entered for what still lies in the layer. One that waits for spare frames waits on while there are none
(R281) (log 48, DEDUCED). -/
def planMap (s : State) : State :=
  match s.vm.mapOut with
  | none => s
  | some m =>
    let fs := unplanned s m.stack m.layer
    if fs.isEmpty || (m.phase == 3 && (takeSpare s).isNone) then s else planFrames fs (setMapPhase 1 s)

/-- A map-out starts (R281 step 1) (log 48, DEDUCED). -/
def startMap (stack layer : Nat) (s : State) : State :=
  let s := { s with vm := { s.vm with mapOut := some ⟨stack, layer, 1⟩ } }
  planMap (dropLayerWindows stack layer (setMapPhase 1 s))

/-- CTXPOOL overlaps a layer. -/
def poolOver (s : State) (stack layer : Nat) : Bool :=
  let base := bitsOf s.fe.ctxpool.toNat 63 0
  let size := bitsOf s.fe.ctxpool.toNat 127 64
  (layerFrames stack layer).any fun f => runsMeet base size (frameBytes * f) frameBytes && decide (base < hbmBytes)

/-- The layer is removed (R281 steps 4 and 5): HBMCAP loses it, the trestles' lists lose its frames (R286), it stays out across resets
(R437), and the host is told. -/
def removeLayer (stack layer : Nat) (s : State) : State :=
  let cap (c : BitVec 64) : BitVec 64 :=
    let n := c.toNat
    if n.testBit layer then BitVec.ofNat 64 (n - 2 ^ layer - 2 ^ 16) else c
  let keep (l : List Nat) : List Nat := l.filter fun f => !inLayer stack layer f
  let s := { s with
    vm := { s.vm with hbmcap := listSet cap stack s.vm.hbmcap }
    launches := s.launches.map fun p => (p.1, { p.2 with trestle := { p.2.trestle with hbmList := keep p.2.trestle.hbmList } })
    outside := { s.outside with excluded := s.outside.excluded ++ [(stack, layer)] } }
  postEvent 1 (stack + 8 * layer) s

/-- The next layer that waits for its map-out. -/
def nextMap (s : State) : State :=
  match s.vm.mapWaiting with
  | [] => s
  | (stack, layer) :: rest => startMap stack layer { s with vm := { s.vm with mapWaiting := rest } }

/-- A layer is present. -/
def layerPresent (s : State) (stack layer : Nat) : Bool := ((s.vm.hbmcap[stack]?).getD 0).getLsbD layer && decide (layer < 16)

/-- A layer's map-out starts, or waits for the one that runs (R281) (log 48, DEDUCED). -/
def askMap (stack layer : Nat) (s : State) : State :=
  if !layerPresent s stack layer then s
  else if s.vm.mapOut.isSome then { s with vm := { s.vm with mapWaiting := s.vm.mapWaiting ++ [(stack, layer)] } }
  else startMap stack layer s

/-- MAPOUT_REQUEST: in hardware mode the sequence starts; in host-assisted mode the layer is removed (R281). -/
def mapoutRequest (v : BitVec 64) (s : State) : State :=
  let n := v.toNat
  if bitsOf n 63 11 ≠ 0 then s
  else
    let old := s.vm.mapout.toNat
    let s := { s with vm := { s.vm with mapout := BitVec.ofNat 64 (bitsOf old 10 8 * 2 ^ 8 + n % 2 ^ 7) } }
    if !v.getLsbD 7 then s
    else if hwMode s 3 then askMap (n % 8) (bitsOf n 6 3) s
    else if layerPresent s (n % 8) (bitsOf n 6 3) then removeLayer (n % 8) (bitsOf n 6 3) s
    else s

/-- MAPOUT_REQUEST (R281). -/
def execMapoutRequest (v : BitVec 64) (s : State) : Host.Outcome State Fault Refusal := .next (mapoutRequest v s)

/-- LAYER_FAILING_REPORT: in hardware mode the map-out starts; in host-assisted mode the layer is only reported (R281) (log 48, DEDUCED). -/
def execLayerFailingReport (stack layer : Nat) (s : State) : Host.Outcome State Fault Refusal :=
  .next (if hwMode s 3 then askMap stack layer s else s)

/-- A move that the map-out of a layer waits for: one of its own, or one into a frame of the layer, whose page lands there. -/
def holdsLayer (stack layer : Nat) (x : Move) : Bool :=
  x.owner == .mapout || (x.dstTier == 0 && inLayer stack layer x.dstFrame)

/-- MAPOUT_COMMIT: once no frame of the layer is reached and CTXPOOL does not overlap it, the layer is removed (R281 steps 3 to 5)
(log 48, DEDUCED). -/
def mapoutCommit (s : State) : State :=
  match s.vm.mapOut with
  | none => s
  | some m =>
    if s.vm.moves.any (holdsLayer m.stack m.layer) then s
    else if !(unplanned s m.stack m.layer).isEmpty then planMap s
    else if !(reachedFrames s m.stack m.layer).isEmpty then s
    else if poolOver s m.stack m.layer then blockMap s
    else
      let s := removeLayer m.stack m.layer (setMapPhase 4 (setMapPhase 2 s))
      let s := setMapPhase 0 s
      nextMap { s with vm := { s.vm with mapOut := none } }

/-- MAPOUT_COMMIT (R281). -/
def execMapoutCommit (s : State) : Host.Outcome State Fault Refusal := .next (mapoutCommit s)

/-- SPARE_WRITE: the spare list is set, and a map-out that waits for frames goes on (R281). -/
def spareWrite (v : BitVec 128) (s : State) : State :=
  let n := v.toNat
  if bitsOf n 127 96 ≠ 0 || n % 4 ≠ 0 then s
  else
    let s := { s with vm := { s.vm with spare := v } }
    if (s.vm.mapOut.map (·.phase)) == some 3 then planMap s else s

/-- SPARE_WRITE (R278, R281). -/
def execSpareWrite (v : BitVec 128) (s : State) : Host.Outcome State Fault Refusal := .next (spareWrite v s)

end Sys2Proof.Machine
end

