-- ==== Sys2Proof/Machine/Trestle.lean ====
section
/-!
DEFINITION. The trestle: residency, timetables and their window, PMARK, SMWAIT and RESQ, and the trestle's steps (R282 to R293).
-/

namespace Sys2Proof.Machine

/-! ### Runs of a launch (R238, R251) -/

/-- A bay is finished (R251). -/
def bayFinished (s : State) (l : Nat) (la : Launch) : Nat → Bool
  | 0 =>
    la.total ≤ la.next && !((s.fe.batches.flatten).any fun x => x.launch == l && x.bay == 0) &&
    s.spans.all fun p => p.2.launch != l || p.2.bay != 0 || p.2.place == .gone
  | b + 1 =>
    bayFinished s l la b && (((la.bays[b + 1]?).map fun y => y.input.isEmpty).getD true) &&
    !((s.fe.batches.flatten).any fun x => x.launch == l && x.bay == b + 1) &&
    s.spans.all fun p => p.2.launch != l || p.2.bay != b + 1 || p.2.place == .gone

/-- Every span of a launch's run has been dispatched and has ended. -/
def runOver (s : State) (l : Nat) (la : Launch) : Bool :=
  la.phase == .running && la.active == 0 && !((s.fe.batches.flatten).any fun x => x.launch == l) &&
  match la.symmetry with
  | some sy => sy.found.isEmpty && decide ((gridExtents la).foldl (· * ·) 1 ≤ sy.next)
  | none => bayFinished s l la (la.bays.length - 1)

/-- PREPEAT asks for a further run of the prologue (R238) (log 14, DEDUCED). -/
def runsAgain (la : Launch) : Bool := decide (la.run < la.repeatTo)

/-- A launch failed or was cancelled, or its last run is over. -/
def lastRunOver (s : State) (l : Nat) (la : Launch) : Bool := la.phase == .finishing || (runOver s l la && !runsAgain la)

/-! ### Residency (R282) -/

/-- Bytes of a trestle's page. -/
def pageBytes : Nat := 2 ^ 21

/-- The translation of a managed 2 MiB page of a context, by its number. -/
def managedPage (s : State) (ctx page : Nat) : Option Xlat :=
  match look s none ctx (pageBytes * page) with
  | .ok x => if x.size = 21 && !x.window && !x.hostOwned && x.tier < 2 then some x else none
  | _ => none

/-- A page is resident; an unmanaged one is treated so (log 47, DEDUCED). -/
def pageResident (s : State) (ctx page : Nat) : Bool :=
  match managedPage s ctx page with
  | none => true
  | some x => x.tier == 0 && !frameLocked s x.tier (x.base / frameBytes) && !pageFaulted s ctx page

/-- A property of `n` numbers from `a` on. -/
def allFrom (f : Nat → Bool) (a : Nat) : Nat → Bool
  | 0 => true
  | n + 1 => f a && allFrom f (a + 1) n

/-- A range of pages is resident. -/
def rangeResident (s : State) (ctx : Nat) (r : Nat × Nat) : Bool := allFrom (pageResident s ctx) r.1 r.2

/-! ### The timetable (R283, R284) -/

/-- `n` bytes at an address of a context, read by a part of the device that has no TLB: no answer while a frame of theirs is under a move
lock; then the bytes, where they can be read (R279). -/
def readVa (s : State) (ctx va n : Nat) : Option (Option Nat) :=
  let ps := reachRun s none ctx .engineRead va n
  if ps.any fun p => (parkLock p).isSome then none
  else some (if allReach ps && !partsPoisoned s ps then some (bytesToNat (readParts s ps)) else none)

/-- Fields of a timetable entry. -/
def entKey (e : Nat) : Nat := bitsOf e 255 192
def entStart (e : Nat) : Nat := bitsOf e 184 128
def entPages (e : Nat) : Nat := bitsOf e 127 96
def entPriority (e : Nat) : Nat := bitsOf e 10 8
def entOp (e : Nat) : Nat := bitsOf e 2 0

/-- An entry keeps R284 but for the order of keys. -/
def entLegal (e : Nat) : Bool :=
  bitsOf e 191 185 == 0 && bitsOf e 95 11 == 0 && bitsOf e 7 3 == 0 && decide (entOp e ≤ 5) &&
  entStart e % pageBytes == 0 && !e.testBit 184 && entPages e != 0 && (entOp e != 2 || entKey e != 0)

/-- Entry `i` of a timetable as read now (log 45, DEDUCED). -/
def readEntry (s : State) (ctx table i : Nat) : Option (Option Nat) := readVa s ctx (table + 64 + 32 * i) 32

/-! ### A launch's trestle -/

/-- A launch's trestle rewritten. -/
def modTrestle (l : Nat) (f : Trestle → Trestle) (s : State) : State := modLaunch s l fun la => { la with trestle := f la.trestle }

/-- The next entry as it enters the window: its key no lower than the one before; no entry where it is retired at once, by its value as read
(R283, R285); no answer while it cannot be read for a move lock (log 45, DEDUCED). -/
def enterEntry (s : State) (ctx : Nat) (t : Trestle) (table : Nat) : Option (Nat × Option WindowEntry) :=
  match readEntry s ctx table t.next with
  | none => none
  | some none => some (t.lastKey, none)
  | some (some e) =>
    let key := max (entKey e) t.lastKey
    some (key, if entLegal e then some ⟨t.next, key, entOp e, entPriority e, entStart e / pageBytes, entPages e, [], []⟩ else none)

/-- The window filled with the lowest entries that have not retired, 64 at most (R285). -/
def fillWindow (s : State) (ctx table : Nat) : Nat → Trestle → Trestle
  | 0, t => t
  | n + 1, t =>
    if 64 ≤ t.window.length || t.entries ≤ t.next then t
    else
      match enterEntry s ctx t table with
      | none => t
      | some (key, w) => fillWindow s ctx table n { t with next := t.next + 1, lastKey := key, window := t.window ++ w.toList }

/-- The moves of a launch's trestle. -/
def trestleMoves (s : State) (l : Nat) : List Move :=
  s.vm.moves.filter fun m => match m.owner with
    | .trestle j _ => j == l
    | .mapout => false

/-- An entry may begin (R284). -/
def entryStarts (t : Trestle) (w : WindowEntry) : Bool := (w.op != 1 && w.op != 4) || decide (w.key ≤ t.marker)

/-- A page lies in the range of an entry. -/
def entryHolds (w : WindowEntry) (page : Nat) : Bool := decide (w.page ≤ page) && decide (page < w.page + w.count)

/-- What a page of an entry needs. -/
inductive PageNeed where
  | done
  | wait
  | unpin
  | pin
  | toHbm
  | toFar
  deriving DecidableEq, Repr

/-- The pin count of a page. -/
def pinCount (t : Trestle) (page : Nat) : Nat := (keyFind page t.pins).getD 0

/-- A managed page lies in a tier. -/
def inTier (s : State) (ctx page tier : Nat) : Bool := ((managedPage s ctx page).map fun x => x.tier == tier).getD false

/-- What an entry's operation asks of a page, given the earlier entries that have not retired (R284, R285, R293) (log 45, DEDUCED). -/
def pageNeed (s : State) (l ctx : Nat) (t : Trestle) (earlier : List WindowEntry) (w : WindowEntry) (page : Nat) : PageNeed :=
  match managedPage s ctx page with
  | none => .done
  | some x =>
    let f := x.base / frameBytes
    if w.op = 4 then .unpin
    else if earlier.any (fun v => entryHolds v page) || (trestleMoves s l).any (fun m => m.page == page) ||
        s.vm.moves.any fun m => m.srcTier == x.tier && m.srcFrame == f then .wait
    else
      match w.op with
      | 1 => if x.tier = 1 || pinCount t page ≠ 0 then .done else if pageFaulted s ctx page then .wait else .toFar
      | op =>
        if x.tier = 0 then (if op = 3 then .pin else .done)
        else if op = 5 && t.hbmList.isEmpty then .done
        else if pageFaulted s ctx page then .wait
        else .toHbm

/-- An entry after the pages that need no move: `i` runs over its range. -/
def settleEntry (s : State) (l ctx : Nat) (earlier : List WindowEntry) : Nat → Trestle × WindowEntry → Trestle × WindowEntry
  | 0, x => x
  | n + 1, (t, w) =>
    let (t, w) := settleEntry s l ctx earlier n (t, w)
    if w.donePages.contains n then (t, w)
    else
      let page := w.page + n
      let done := { w with donePages := w.donePages ++ [n] }
      match pageNeed s l ctx t earlier w page with
      | .done =>
        -- a page that PREFER asked of the host and that has come in
        (if w.op = 5 && w.asked.contains n && inTier s ctx page 0 then { t with preferred := t.preferred ++ [page] } else t, done)
      | .unpin => ({ t with pins := keySet page (pinCount t page - 1) t.pins }, done)
      | .pin => ({ t with pins := keySet page (pinCount t page + 1) t.pins }, done)
      | _ => (t, w)

/-- An entry retires (R284). -/
def entryRetires (s : State) (l : Nat) (t : Trestle) (w : WindowEntry) : Bool :=
  decide (w.count ≤ w.donePages.length) && (w.op != 2 || decide (w.key ≤ t.marker)) &&
  !((trestleMoves s l).any fun m => m.owner == .trestle l (some w.index))

/-- The window's entries in order, those that retire left out. -/
def settleWindow (s : State) (l ctx : Nat) : List WindowEntry → List WindowEntry → Trestle → Trestle × List WindowEntry
  | [], kept, t => (t, kept)
  | w :: rest, kept, t =>
    let (t, w) := if entryStarts t w then settleEntry s l ctx kept w.count (t, w) else (t, w)
    if entryStarts t w && entryRetires s l t w then settleWindow s l ctx rest kept t
    else settleWindow s l ctx rest (kept ++ [w]) t

/-- The window settled and filled again until no entry enters. -/
def settleFrom (s : State) (l ctx table : Nat) : Nat → Trestle → Trestle
  | 0, t => t
  | n + 1, t =>
    let (t, kept) := settleWindow s l ctx t.window [] t
    let t := { t with preferred := t.preferred.filter fun p => !inTier s ctx p 1, askedOut := t.askedOut.filter fun p => inTier s ctx p 0 }
    let t' := fillWindow s ctx table t.entries { t with window := kept }
    if t'.next = t.next then t' else settleFrom s l ctx table n t'

/-- What needs no move is done: the window is filled, pins are counted, entries retire (R284, R285). -/
def settleTrestle (l : Nat) (s : State) : State :=
  match findLaunch s l with
  | none => s
  | some la =>
    match la.trestle.table with
    | none => s
    | some table =>
      if la.trestle.ended || lastRunOver s l la then s
      else modTrestle l (fun t => settleFrom s l la.ctx table (t.entries + 1) (fillWindow s la.ctx table t.entries t)) s

/-! ### Starting moves (R285, R286, R293) -/

/-- A move that could start: priority, entry, page, and whether to HBM. -/
structure MoveWish where
  priority : Nat
  entry : Nat
  op : Nat
  page : Nat
  toHbm : Bool
  deriving DecidableEq, Repr

/-- The moves an entry wishes for. -/
def entryWishes (s : State) (l ctx : Nat) (t : Trestle) (earlier : List WindowEntry) (w : WindowEntry) : List MoveWish :=
  ((upTo w.count).filter fun i => !w.donePages.contains i && !w.asked.contains i).filterMap fun i =>
    match pageNeed s l ctx t earlier w (w.page + i) with
    | .toHbm => some ⟨w.priority, w.index, w.op, w.page + i, true⟩
    | .toFar => some ⟨w.priority, w.index, w.op, w.page + i, false⟩
    | _ => none

/-- The moves the window wishes for. -/
def windowWishes (s : State) (l ctx : Nat) (t : Trestle) : List WindowEntry → List WindowEntry → List MoveWish
  | _, [] => []
  | earlier, w :: rest =>
    (if entryStarts t w then entryWishes s l ctx t earlier w else []) ++ windowWishes s l ctx t (earlier ++ [w]) rest

/-- The order of choice: priority, entry, page. -/
def wishBefore (a b : MoveWish) : Bool :=
  decide (a.priority < b.priority) ||
  (a.priority == b.priority && (decide (a.entry < b.entry) || (a.entry == b.entry && decide (a.page < b.page))))

/-- A list has room for a frame more, whatever becomes of the moves in progress: each pushes the frame it frees onto one list, or, abandoned,
the frame it took onto the other (R286) (log 46, DEDUCED). -/
def listRoom (s : State) (l : Nat) (t : Trestle) (far : Bool) : Bool :=
  let coming := (trestleMoves s l).length
  if far then decide (t.farList.length + coming < t.farCap) else decide (t.hbmList.length + coming < t.hbmCap)

/-- A move has a frame to take and room for the one it frees (R286) (log 46, DEDUCED). -/
def wishReady (s : State) (l : Nat) (t : Trestle) (w : MoveWish) : Bool :=
  if w.toHbm then !t.hbmList.isEmpty && listRoom s l t true else !t.farList.isEmpty && listRoom s l t false

/-- The first of some moves in the order of choice. -/
def firstWish : List MoveWish → Option MoveWish
  | [] => none
  | w :: rest =>
    match firstWish rest with
    | none => some w
    | some v => if wishBefore v w then some v else some w

/-- A page may be reclaimed for a wish: in HBM, not pinned, with no fault open, under no move of its own or of its frame, and in the range
of no entry of a lower index that has not retired (R285, R286, R293). -/
def mayReclaim (s : State) (ctx : Nat) (t : Trestle) (w : MoveWish) (page : Nat) : Bool :=
  pinCount t page == 0 && !pageFaulted s ctx page && !(t.window.any fun v => decide (v.index < w.entry) && entryHolds v page) &&
  match managedPage s ctx page with
  | none => false
  | some x => x.tier == 0 && !(s.vm.moves.any fun m => (m.ctx == ctx && m.page == page && m.owner != .mapout) ||
      (m.srcTier == 0 && m.srcFrame == x.base / frameBytes))

/-- The earliest page that PREFER brought in and that may be reclaimed for the first of the wishes for which one may (R286) (log 46, DEDUCED). -/
def reclaimPage (s : State) (ctx : Nat) (t : Trestle) : Nat → List MoveWish → Option Nat
  | 0, _ => none
  | n + 1, wishes =>
    match firstWish wishes with
    | none => none
    | some w => (t.preferred.find? (mayReclaim s ctx t w)).orElse fun _ => reclaimPage s ctx t n (wishes.filter (· != w))

/-- The page reclaimed when the HBM list is empty, one at a time (R286). -/
def reclaimWish (s : State) (l ctx : Nat) (t : Trestle) (wishes : List MoveWish) : Option MoveWish :=
  let busy := (trestleMoves s l).any fun m => m.owner == .trestle l none
  let wishes := wishes.filter fun w => w.toHbm && w.op != 5
  if !t.hbmList.isEmpty || busy || !t.askedOut.isEmpty then none
  else (reclaimPage s ctx t wishes.length wishes).map fun p => ⟨0, 0, 1, p, false⟩

/-- A move entered, its frame taken from the end of a list (log 46, DEDUCED). -/
def beginMove (l ctx : Nat) (entry : Option Nat) (w : MoveWish) (x : Xlat) (s : State) : State :=
  let f := x.base / frameBytes
  match findLaunch s l with
  | none => s
  | some la =>
    let t := la.trestle
    if w.toHbm then
      let d := (t.hbmList.getLast?).getD 0
      addMove (.trestle l entry) ctx w.page x.tier f 0 d (modTrestle l (fun t => { t with hbmList := t.hbmList.dropLast }) s)
    else
      let d := (t.farList.getLast?).getD 0
      addMove (.trestle l entry) ctx w.page x.tier f 1 d (modTrestle l (fun t => { t with farList := t.farList.dropLast }) s)

/-- A move asked of the host, for an entry or to reclaim a frame: a record of cause 9:23 with access 6 or 7, once (R293) (log 46, DEDUCED). -/
def askMove (l ctx : Nat) (entry : Option Nat) (w : MoveWish) (s : State) : State :=
  let va := pageBytes * w.page
  let s := modTrestle l (fun t =>
    { t with
      askedOut := if entry.isNone then t.askedOut ++ [w.page] else t.askedOut
      window := t.window.map fun e => if some e.index = entry then { e with asked := e.asked ++ [w.page - e.page] } else e }) s
  queueFault ⟨ctx, va / 4096, causeOf 9 23, if w.toHbm then 6 else 7, 0, va, false⟩ s

/-- TRESTLE_MOVE_START: the next ready move of the window starts, until the launch's last span has exited (R285, R292). -/
def trestleStart (l : Nat) (s : State) : State :=
  let s := settleTrestle l s
  match findLaunch s l with
  | none => s
  | some la =>
    let t := la.trestle
    if t.ended || lastRunOver s l la then s
    else
      let wishes := windowWishes s l la.ctx t [] t.window
      let reclaim := reclaimWish s l la.ctx t wishes
      let ready := wishes.filter (wishReady s l t)
      if !hwMode s 2 then
        match firstWish ready, reclaim with
        | some w, _ => askMove l la.ctx (some w.entry) w s
        | none, some w => if wishReady s l t w then askMove l la.ctx none w s else s
        | none, none => s
      else if 16 ≤ (trestleMoves s l).length then s
      else
        match firstWish ready, reclaim with
        | some w, _ =>
          match managedPage s la.ctx w.page with
          | none => s
          | some x => beginMove l la.ctx (some w.entry) w x s
        | none, some w =>
          match managedPage s la.ctx w.page with
          | none => s
          | some x => if wishReady s l t w then beginMove l la.ctx none w x s else s
        | none, none => s

/-- TRESTLE_MOVE_START (R285). -/
def execTrestleMoveStart (l : Nat) (s : State) : Host.Outcome State Fault Refusal := .next (trestleStart l s)

/-- What a trestle does when one of its moves has ended: the old frame goes onto its list, or the new one back where the move was abandoned;
the page is done (R279, R286) (log 46, DEDUCED). -/
def trestleMoved (l : Nat) (entry : Option Nat) (m : Move) (ok : Bool) (s : State) : State :=
  let push (tier frame : Nat) (t : Trestle) : Trestle :=
    if !frameExists s tier frame then t
    else if tier = 0 then { t with hbmList := t.hbmList ++ [frame] } else { t with farList := t.farList ++ [frame] }
  let s := modTrestle l (if ok then push m.srcTier m.srcFrame else push m.dstTier m.dstFrame) s
  let s := modTrestle l (fun t =>
    let w := entry.bind fun i => t.window.find? fun e => e.index == i
    let op := (w.map (·.op)).getD 1
    let t := if ok && m.dstTier = 0 && op = 5 then { t with preferred := t.preferred ++ [m.page] } else t
    let t := if ok && m.dstTier = 0 && op = 3 then { t with pins := keySet m.page (pinCount t m.page + 1) t.pins } else t
    let t := if ok && m.dstTier = 1 then { t with preferred := t.preferred.filter fun p => p ≠ m.page } else t
    { t with window := t.window.map fun e =>
        if some e.index == entry then { e with donePages := e.donePages ++ [m.page - e.page] } else e }) s
  settleTrestle l s

/-! ### PMARK (R287, R288) -/

/-- The REQUIRE entries still outside the window that a PMARK crosses: keys and ranges; no answer while one of them cannot be read for a move
lock (log 45, DEDUCED). -/
def crossedOutside (s : State) (ctx table old new : Nat) : Nat → Nat → Nat → Option (List (Nat × Nat × Nat))
  | 0, _, _ => some []
  | n + 1, i, last =>
    match readEntry s ctx table i with
    | none => none
    | some none => crossedOutside s ctx table old new n (i + 1) last
    | some (some e) =>
      let key := max (entKey e) last
      if new < key then some []
      else
        (crossedOutside s ctx table old new n (i + 1) key).map fun more =>
          if entLegal e && entOp e = 2 && old < key then (key, entStart e / pageBytes, entPages e) :: more else more

/-- The REQUIRE entries a PMARK crosses whose ranges are not resident. -/
def missedEntries (s : State) (la : Launch) (old new : Nat) : Option (List (Nat × Nat × Nat)) :=
  match la.trestle.table with
  | none => some []
  | some table =>
    let t := la.trestle
    let inside := (t.window.filter fun w => w.op == 2 && decide (old < w.key) && decide (w.key ≤ new)).map fun w => (w.key, w.page, w.count)
    (crossedOutside s la.ctx table old new (t.entries - t.next) t.next t.lastKey).map fun outside =>
      (inside ++ outside).filter fun r => !rangeResident s la.ctx (r.2.1, r.2.2)

/-- The result of a PMARK reaches its group, standing at the instruction or in a handler. -/
def answerPmark (serial : Nat) (r : Option Wait) (g : Group) : Group :=
  let answer (w : GroupWait) : GroupWait :=
    if w.wait = .pmark serial false then
      match r with
      | none => { w with woken := true }
      | some x => { w with wait := x }
    else w
  { g with waits := g.waits.map answer, savedWaits := g.savedWaits.map answer }

/-- What a PMARK that misses some ranges makes its group do (R288). -/
def missAnswer (policy serial : Nat) (missed : List (Nat × Nat × Nat)) : Option Wait :=
  if missed.isEmpty then none
  else
    match policy with
    | 0 => some (.pmark serial true)
    | 1 => some (.pages (missed.map fun r => (r.2.1, r.2.2)) true)
    | _ => none

/-- PMARK_APPLY: the first PMARK that has reached the launch's trestle is applied, if it is this group's (R287). -/
def pmarkApply (sid g : Nat) (s : State) : State :=
  match findSpan s sid with
  | none => s
  | some sp =>
    match findLaunch s sp.launch with
    | none => s
    | some la =>
      match la.trestle.posted with
      | (serial, psid, pg, amount) :: rest =>
        let old := la.trestle.marker
        let new := min (old + amount) (2 ^ 64 - 1)
        match missedEntries s la old new with
        | none => s
        | some missed =>
          if psid = sid && pg = g then
            let key := missed.foldl (fun acc r => max acc r.1) 0
            let s := modTrestle sp.launch (fun t =>
              { t with
                posted := rest
                marker := new
                misses := if missed.isEmpty then t.misses else min (t.misses + 1) 0xFFFFFFFF
                lastMiss := if missed.isEmpty then t.lastMiss else key }) s
            settleTrestle sp.launch (modGroup s sid g (answerPmark serial (missAnswer la.trestle.policy serial missed)))
          else s
      | [] => s

/-- PMARK_APPLY (R287). -/
def execPmarkApply (sid g : Nat) (s : State) : Host.Outcome State Fault Refusal := .next (pmarkApply sid g s)

/-- PMARK: it is posted, and its group stalls until the result comes back; a miss under TRAP traps past the instruction, under STALL the
group waits for the ranges (R287, R288). -/
def pmarkBody (e : Enc) (s : State) : State :=
  let ctx := curCtx s
  match curWait s with
  | some ⟨_, .pmark _ true, _, _⟩ =>
    let lanes := actLanes e s
    if inSkid s then faultWith 9 23 lanes s else faultWith 9 23 lanes (endWait (wordLen e) s)
  | some ⟨_, .pmark _ false, woken, _⟩ => if woken then endWait (wordLen e) s else s
  | some ⟨_, .pages rs _, _, _⟩ => if rs.all (rangeResident s ctx) then endWait (wordLen e) s else s
  | _ =>
    match curLaunchId s with
    | none => s
    | some l =>
      let n := curNum s
      let sid := curSid s
      blockOn (.pmark s.time false) (modTrestle l (fun t => { t with posted := t.posted ++ [(s.time, sid, n, immRj e)] }) s)

/-- PMARK (R287). -/
def execPmark (e : Enc) (s : State) : Host.Outcome State Fault Refusal :=
  runForm { rd := .unused, ra := .imm, rb := .imm, xp := .layoutB, u := .one } true e (guardedOp e (pmarkBody e)) s

/-! ### SMWAIT and RESQ (R289, R290) -/

/-- The form of SMWAIT and RESQ; SMWAIT admits a scope in its modifier (R72), RESQ none (R290) (log 47, DEDUCED). -/
def formPages (u : UUse) (mem : Option MemUse) : Form := { rd := .reg 1 1, ra := .reg 2 2, rb := .imm, u := u, mem := mem }

/-- SMWAIT: a range waited for is the one read at issue (R289) (log 47, DEDUCED). -/
def smwaitBody (e : Enc) (s : State) : State :=
  match curWait s with
  | some ⟨_, .pages rs _, _, _⟩ => if rs.all (rangeResident s (curCtx s)) then endWait (wordLen e) s else s
  | _ =>
    let g := curGroup s
    let va := globalAddr g { e with rb := 0 } 0 0 / pageBytes * pageBytes
    let start := ((va : Int) + immMem e * pageBytes) % (2 ^ 64 : Nat)
    let n := (readLoc g 0 (rdLoc e)).toNat
    let r := (start.toNat / pageBytes, n)
    if (2 ^ 57 : Nat) ≤ start.toNat then faultWith 3 6 (actLanes e s) s
    else if rangeResident s (curCtx s) r then endWait (wordLen e) s
    else blockOn (.pages [r] false) s

/-- SMWAIT (R289) (log 47, DEDUCED). -/
def execSmwait (e : Enc) (s : State) : Host.Outcome State Fault Refusal :=
  runForm (formPages .one (some ⟨[0], false, false⟩)) true e (guardedOp e (notInHandler (smwaitBody e))) s

/-- The state word of the page at an address (R290) (log 47, DEDUCED). -/
def pageWord (s : State) (la : Launch) (va : Nat) : Nat :=
  let page := va / pageBytes
  let flag (k : Nat) (b : Bool) : Nat := if b then 2 ^ k else 0
  let managed := (managedPage s la.ctx page).isSome
  match look s none la.ctx va with
  | .ok x =>
    64 * x.tier + flag 5 x.window + flag 4 x.hostOwned + flag 3 (pinCount la.trestle page != 0) +
      flag 2 (frameLocked s x.tier (leafPa x va / frameBytes)) + flag 1 managed + flag 0 (pageResident s la.ctx page)
  | _ => 64 * 3 + flag 3 (pinCount la.trestle page != 0) + flag 0 (pageResident s la.ctx page)

/-- RESQ (R290). -/
def execResq (e : Enc) (s : State) : Host.Outcome State Fault Refusal :=
  runForm (formPages .both none) true e (fun s =>
    match curLaunch s with
    | none => s
    | some la =>
      let g0 := curGroup s
      let word (lane : Nat) : Word := BitVec.ofNat 32 (pageWord s la (globalAddr g0 e pageBytes lane))
      let rd := locNum (rdLoc e)
      advance (wordLen e) (modCur s fun g =>
        if e.u then (if qGuard e s then writeG rd (word 0) g else g)
        else (laneList (actLanes e s)).foldl (fun acc l => writeV rd l (word l) acc) g)) s

end Sys2Proof.Machine
end

