-- ==== Sys2Proof/Machine/Causeway.lean ====
section
/-!
DEFINITION. The causeway and the host's way to device memory: answers of owning devices, incoming peer accesses, the link layer, ports
that go down, host CXL.mem accesses, and the accesses that wait for a page move to end (R279, R425, R430 to R433).
-/

namespace Sys2Proof.Machine

/-! ### Incoming accesses (R431) -/

/-- Bytes a remote atomic acts on, by its number in the table of R208. -/
def atomSize (k : Nat) : Nat := if k = 8 || k = 11 then 8 else if k = 10 then 40 else 4

/-- The new value of a remote atomic's cell: `x` is the data it carries, the expected value below the new one for a compare and swap
(R208 to R210). -/
def atomValue (k old x : Nat) : Nat :=
  match k with
  | 0 => (old + x) % 2 ^ 32
  | 1 => if signedOf 32 x < signedOf 32 old then x % 2 ^ 32 else old
  | 2 => if signedOf 32 old < signedOf 32 x then x % 2 ^ 32 else old
  | 3 => old &&& x
  | 4 => (old ||| x) % 2 ^ 32
  | 5 => (old ^^^ x) % 2 ^ 32
  | 6 => x % 2 ^ 32
  | 7 => if old = x % 2 ^ 32 then x / 2 ^ 32 % 2 ^ 32 else old
  | 8 => if old = x % 2 ^ 64 then x / 2 ^ 64 % 2 ^ 64 else old
  | 9 => (floatAdd fp32 .rne old (x % 2 ^ 32)).1
  | 10 => natOfExact (exactAdd (exactOfNat old) (exactOfNat (x % 2 ^ 320))) % 2 ^ 312
  | 11 =>
    let c := old % 2 ^ 32
    let n := x % 2 ^ 32
    if c + n ≤ old / 2 ^ 32 then old + n else old
  | _ => old

/-- What an incoming access of a kind wants: 0 a read, 1 a write, 2 + k the atomic of number k. -/
def ingressNeed (kind : Nat) : Need :=
  match kind with
  | 0 => .load
  | 1 => .store
  | _ => .atomic

/-- An answer sent to the issuing device. -/
def answerPeer (data : Option (List Byte)) (reason : Nat) (s : State) : State :=
  { s with outside := { s.outside with peerAnswers := s.outside.peerAnswers ++ [(data, reason)] } }

/-- An incoming access that meets no fault is performed at the memory side, where this device's atomics have been performed as its step
began (`takeTurn`, R85); an atomic that meets uncorrectable data does not write (log 19, DESIGN CHOICE) (log 82, DESIGN CHOICE). -/
def performIngress (kind : Nat) (ps : List Part) (data : List Byte) (s : State) : State :=
  let old := readParts s ps
  if kind = 1 then answerPeer (some []) 0 (writeParts ps data s)
  else if partsPoisoned s ps then answerPeer none 25 (noteError (causeOf 3 25) s)
  else if kind = 0 then answerPeer (some old) 0 s
  else
    let new := atomValue (kind - 2) (bytesToNat old) (bytesToNat data)
    answerPeer (some old) 0 (writeParts ps (natToBytes old.length new) s)

/-- An incoming access: an error answer without an export context or on any fault, none of which parks; held where its frame is under a
move lock (R279, R431). -/
def ingress (kind off : Nat) (data : List Byte) (s : State) : State :=
  match exportCtx s with
  | none => answerPeer none 6 s
  | some ctx =>
    let n := if kind < 2 then data.length else atomSize (kind - 2)
    let ps := reachRun s none ctx (ingressNeed kind) off n
    match firstFault false ps with
    | some r => answerPeer none r s
    | none =>
      if ps.any partParks then
        { s with outside := { s.outside with ingressHeld := s.outside.ingressHeld ++ [(kind, off, data)] } }
      else performIngress kind ps data s

/-- PEER_ACCESS_INGRESS (R431). -/
def execPeerAccessIngress (kind : Nat) (offset : BitVec 47) (data : List (BitVec 8)) (s : State) : Host.Outcome State Fault Refusal :=
  .next (ingress kind offset.toNat data s)

/-! ### Host accesses to device memory (R425, R429) -/

/-- An answer to a host access; none is a poisoned one. -/
def answerHost (data : Option (List Byte)) (s : State) : State :=
  { s with outside := { s.outside with hostAnswers := s.outside.hostAnswers ++ [data] } }

/-- A host access lies in one 64-byte line of one of the two ranges (log 21, DESIGN CHOICE). -/
def hostInRange (tier pa n : Nat) : Bool :=
  decide (pa % 64 + n ≤ 64) && (if tier = 0 then decide (pa < 393216 * frameBytes) else tier == 1 && decide (pa < 786432 * frameBytes))

/-- A host write: granule by granule, those that are late before the next access of the host (R90) (log 80, DESIGN CHOICE). -/
def hostWrite (key : Nat) (data : List Byte) (s : State) : State :=
  if data.length ≤ 8 - key % 8 then writeMem key data s
  else
    let (d, s) := draw s
    putGranules none (some d) none .mem key data s

/-- A host access: poisoned where its frame has been removed, held where it is locked (R279, R429) (log 21, DESIGN CHOICE). -/
def hostAccess (write : Bool) (tier pa : Nat) (data : List Byte) (s : State) : State :=
  let f := pa / frameBytes
  let key := memKey tier pa
  let s := settleHost s
  if !hostInRange tier pa data.length then s
  else if !frameExists s tier f then answerHost none s
  else if frameLocked s tier f then
    { s with outside := { s.outside with hostHeld := s.outside.hostHeld ++ [(write, tier, pa, data)] } }
  else if write then answerHost (some []) (hostWrite key data s)
  else if memPoisoned s key data.length then answerHost none s
  else answerHost (some (cellRange emptyByte s.mem key data.length)) s

/-- HOST_CXL_MEM_ACCESS (R425). -/
def execHostCxlMemAccess (write : Bool) (tier pa : Nat) (data : List (BitVec 8)) (s : State) : Host.Outcome State Fault Refusal :=
  .next (hostAccess write tier pa data s)

/-! ### The end of a page move (R279 step 5) -/

/-- Held accesses are performed, or held again. -/
def serveHeld (s : State) : State :=
  let peers := s.outside.ingressHeld
  let hosts := s.outside.hostHeld
  let s := { s with outside := { s.outside with ingressHeld := [], hostHeld := [] } }
  let s := peers.foldl (fun acc a => ingress a.1 a.2.1 a.2.2 acc) s
  hosts.foldl (fun acc a => hostAccess a.1 a.2.1 a.2.2.1 a.2.2.2 acc) s

/-- Host accesses held at a moved frame go to the new one (log 21, DESIGN CHOICE). -/
def followMove (m : Move) (s : State) : State :=
  let go (a : Bool × Nat × Nat × List Byte) : Bool × Nat × Nat × List Byte :=
    if a.2.1 = m.srcTier && a.2.2.1 / frameBytes = m.srcFrame then
      (a.1, m.dstTier, m.dstFrame * frameBytes + a.2.2.1 % frameBytes, a.2.2.2)
    else a
  { s with outside := { s.outside with hostHeld := s.outside.hostHeld.map go } }

/-- Every trestle does what needs no move (R285). -/
def settleTrestles (s : State) : State := (s.launches.map (·.1)).foldl (fun acc l => settleTrestle l acc) s

/-- PAGE_MOVE_COMPLETE: the entries are exchanged, the lock is released, the owner of the move goes on, and what was held is performed
(R279 steps 4 and 5). -/
def moveComplete (id : Nat) (s : State) : State :=
  match findMove s id with
  | none => s
  | some m =>
    if !m.started then s
    else
      let (s, ok) := moveEnd m s
      let s := if ok then followMove m s else s
      let s := match m.owner with
        | .trestle l entry => trestleMoved l entry m ok s
        | .mapout => planMap s
      settleTrestles (serveHeld s)

/-- PAGE_MOVE_COMPLETE (R279). -/
def execPageMoveComplete (id : Nat) (s : State) : Host.Outcome State Fault Refusal := .next (moveComplete id s)

/-! ### Answers of owning devices (R359, R431) -/

/-- A list without the first item that meets a condition. -/
def eraseOnce {α : Type} (f : α → Bool) : List α → List α
  | [] => []
  | x :: rest => if f x then rest else x :: eraseOnce f rest

/-- The entry of an operation in a span's transfer queues rewritten. -/
def modTransfer (sid g op : Nat) (f : TransferEntry → TransferEntry) (s : State) : State :=
  modSpan s sid fun sp => { sp with queues := sp.queues.map fun q => q.map fun t => if t.g = g && t.op = op then f t else t }

/-- A write to a peer window through a port. -/
def throughPort (port : Nat) : OpWrite → Bool
  | .peer _ p _ _ => p == port
  | _ => false

/-- The entry of an operation in a span's transfer queues. -/
def findTransfer (s : State) (sid g op : Nat) : Option TransferEntry :=
  (findSpan s sid).bind fun sp => (sp.queues.flatten).find? fun t => t.g == g && t.op == op

/-- A write to a peer window as its owner performs it: at once where it lies in one granule, else some granules, free ones, and those that
remain (R90) (log 80, DESIGN CHOICE) (log 18, DESIGN CHOICE). -/
def ownerWrites (d key : Nat) (bs : List Byte) (m : Memory) : Memory × List (Nat × List Byte) :=
  if bs.length ≤ 8 - key % 8 then (cellSetRange emptyByte m key bs, [])
  else
    (putKept (fun a => !isLate (some d) a) key bs m,
      ((granulesOf key bs.length).filter fun g => isLate (some d) g.1).map fun g => (g.1, (bs.drop (g.1 - key)).take g.2))

/-- An operation's next write through a port performed by the owner: what remains of it waits for answers of its own. -/
def ackStore (port : Nat) (rest : List (Nat × List Byte)) (lane : Nat) (o : OpRec) : OpRec :=
  { o with
    writes := eraseOnce (throughPort port) o.writes ++ rest.map fun r => .peer lane port r.1 r.2
    ports := eraseOnce (fun p => p.2 == port) o.ports ++ rest.map fun _ => (lane, port) }

/-- The owner acknowledges the next store or CPYP write that went through a port: it is performed (R359, R431) (log 18, DESIGN CHOICE). -/
def writeAck (sid g op port : Nat) (s : State) : State :=
  let (d, s0) := draw s
  let s := match (findGroup s0 sid g).bind fun x => findOp x op with
    | none => s0
    | some o =>
      if o.remoteLoad then s0
      else
        match o.writes.find? (throughPort port) with
        | some (.peer lane _ key bs) =>
          let (m, rest) := ownerWrites d key bs s0.peer
          modGroup { s0 with peer := m } sid g (modOp op (ackStore port rest lane))
        | _ => modGroup s0 sid g (modOp op fun o => { o with ports := eraseOnce (fun p => p.2 == port) o.ports })
  match (findTransfer s sid g op).bind fun t => t.pending.find? fun w => w.1 == port with
  | none => s
  | some w =>
    let (m, rest) := ownerWrites d w.2.1 w.2.2 s.peer
    modTransfer sid g op (fun t =>
      { t with pending := eraseOnce (fun w => w.1 == port) t.pending ++ rest.map fun r => (port, r.1, r.2) }) { s with peer := m }

/-- PEER_WRITE_ACK (R359). -/
def execPeerWriteAck (sid g op port : Nat) (s : State) : Host.Outcome State Fault Refusal := .next (writeAck sid g op port s)

/-- A result of a lane whose peer access failed, left unspecified. -/
def freeResult (lane : Nat) (w : OpWrite) (s : State) : OpWrite × State :=
  match w with
  | .lane r l v =>
    if l = lane then
      let (d, s) := draw s
      (.lane r l (Sys2Proof.Config.freeWord d), s)
    else (.lane r l v, s)
  | .group r _ =>
    let (d, s) := draw s
    (.group r (Sys2Proof.Config.freeWord d), s)
  | .load grp r l count signed size ps =>
    if grp || l = lane then
      let (d, s) := draw s
      let free := (upTo count).map fun i => natToBytes 4 (Sys2Proof.Config.freeWord (d + i)).toNat
      (.load grp r l count false (4 * count) [.got free.flatten], { s with fresh := s.fresh + count })
    else (.load grp r l count signed size ps, s)
  | w => (w, s)

/-- The results of some lanes left unspecified (log 68, DESIGN CHOICE). -/
def freeResults (lanes : List Nat) (ws : List OpWrite) (s : State) : List OpWrite × State :=
  ws.foldl (fun (acc : List OpWrite × State) w =>
    let (w, s) := lanes.foldl (fun (x : OpWrite × State) l => freeResult l x.1 x.2) (w, acc.2)
    (acc.1 ++ [w], s)) ([], s)

/-- A write of some lanes to a peer window. -/
def peerOf (lanes : List Nat) : OpWrite → Bool
  | .peer lane _ _ _ => lanes.contains lane
  | _ => false

/-- The granules that `keep` names of an unanswered write to a peer window are performed. -/
def applyKept (keep : Nat → Bool) (w : OpWrite) (m : Memory) : Memory :=
  match w with
  | .peer _ _ key bs => putKept (fun a => keep (a / 8)) key bs m
  | _ => m

/-- The accesses of some lanes of an operation end with a cause: their results are unspecified and their unanswered writes are not
performed, but for the granules `keep` names (R431, R433) (log 18, DESIGN CHOICE). -/
def failLanes (sid g op : Nat) (lanes : List Nat) (keep : Nat → Bool) (cause : Cause) (s : State) : State :=
  match (findGroup s sid g).bind fun x => findOp x op with
  | none => s
  | some o =>
    let s := { s with peer := (o.writes.filter (peerOf lanes)).foldl (fun m w => applyKept keep w m) s.peer }
    let (ws, s) := freeResults lanes (o.writes.filter fun w => !peerOf lanes w) s
    modGroup s sid g (modOp op fun o =>
      { o with
        writes := ws
        cause := if o.cause.isSome then o.cause else some cause
        ports := o.ports.filter fun p => !lanes.contains p.1 })

/-- The reasons of an error answer (log 19, DESIGN CHOICE). -/
def answerReasons : List Nat := [6, 7, 9, 10, 25]

/-- The owner answers a lane's access, or a CPYP's, with an error (R431) (log 19, DESIGN CHOICE). -/
def errorAnswer (sid g op lane reason : Nat) (s : State) : State :=
  if !answerReasons.contains reason then s
  else
    let pending := match (findGroup s sid g).bind fun x => findOp x op with
      | none => false
      | some o => !o.done && o.ports.any fun p => p.1 == lane
    let s := if pending then failLanes sid g op [lane] (fun _ => false) (causeOf 3 reason) s else s
    modTransfer sid g op (fun t =>
      if t.pending.isEmpty && t.readPorts.isEmpty then t
      else { t with readPorts := [], cause := if t.cause.isSome then t.cause else some (causeOf 6 reason) }) s

/-- PEER_ERROR_RESPONSE (R431). -/
def execPeerErrorResponse (sid g op lane reason : Nat) (s : State) : Host.Outcome State Fault Refusal :=
  .next (errorAnswer sid g op lane reason s)

/-! ### The link layer (R433) -/

/-- A link by its port. -/
def findLink (s : State) (port : Nat) : Option Link := s.outside.links[port]?

/-- FLIT_RECEIVE: a bad CRC asks for a replay; the expected flit is taken; any other is not. -/
def flitReceive (seq : Nat) (crcOk : Bool) (l : Link) : Link :=
  if l.state ≠ .up then l
  else if !crcOk then { l with replayAsked := true }
  else if seq = l.expected then { l with expected := l.expected + 1, replayAsked := false }
  else l

/-- FLIT_RECEIVE (R433). -/
def execFlitReceive (port seq : Nat) (crcOk : Bool) (s : State) : Host.Outcome State Fault Refusal :=
  .next (modLink port (flitReceive seq crcOk) s)

/-- FLIT_REPLAY: the flits from the bad one on, the first not acknowledged, are sent again as they were; the failed replays of the flit
are counted (R433) (log 20, DESIGN CHOICE). -/
def execFlitReplay (port : Nat) (s : State) : Host.Outcome State Fault Refusal :=
  .next (modLink port (fun l =>
    if l.state = .up && !l.unacked.isEmpty then { resend l with failures := l.failures + 1 } else l) s)

/-- The header table after the change an acknowledged flit carries (log 20, DESIGN CHOICE). -/
def changeHeaders (f : Flit) (h : List (Nat × Nat)) : List (Nat × Nat) :=
  (h.filter fun x => f.removes != some x.1) ++ f.installs.toList.map fun k => (k, f.dev)

/-- FLIT_ACK: flits up to a number are acknowledged, and the header entries they install or remove change (R433). -/
def flitAck (seq : Nat) (l : Link) : Link :=
  if l.state = .up && l.unacked.any (fun f => f.seq == seq) then
    { l with
      unacked := l.unacked.filter fun f => decide (seq < f.seq)
      failures := 0
      headers := (l.unacked.filter fun f => decide (f.seq ≤ seq)).foldl (fun h f => changeHeaders f h) l.headers }
  else l

/-- FLIT_ACK (R433). -/
def execFlitAck (port seq : Nat) (s : State) : Host.Outcome State Fault Refusal := .next (modLink port (flitAck seq) s)

/-- LINK_RETRAIN: after 8 failed replays of one flit (R433). -/
def execLinkRetrain (port : Nat) (s : State) : Host.Outcome State Fault Refusal :=
  .next (modLink port (fun l => if l.state = .up && decide (8 ≤ l.failures) then { l with state := .retraining } else l) s)

/-- LINK_RETRAINED: the link is up within 1 ms, and its unacknowledged flits are sent again (R433). -/
def execLinkRetrained (port : Nat) (s : State) : Host.Outcome State Fault Refusal :=
  .next (modLink port (fun l => if l.state = .retraining then { resend l with state := .up, failures := 0 } else l) s)

/-- The lanes of an operation that await an answer through a port. -/
def lanesAt (port : Nat) (o : OpRec) : List Nat := ((o.ports.filter fun p => p.2 == port).map (·.1)).eraseDups

/-- The operations of a span that await an answer through a port: group, operation, lanes; the latest first. -/
def opsAt (port : Nat) (sp : Span) : List (Nat × Nat × List Nat) :=
  ((sp.groups.map fun g =>
    (g.ops.filter fun o => !o.done && !(lanesAt port o).isEmpty).map fun o => (g.num, o.id, lanesAt port o)).flatten).reverse

/-- PORT_DOWN: a retraining link goes down, an event is posted, and the operations that await an answer through the port end with 3:30
or 6:30; each unacknowledged granule holds its old or its new value (R433) (log 19, DESIGN CHOICE). -/
def portDown (port : Nat) (s : State) : State :=
  match findLink s port with
  | none => s
  | some l =>
    if l.state ≠ .retraining then s
    else
      let s := modLink port (fun l => { l with state := .down, unacked := [], failures := 0 }) s
      let s := postEvent 5 port s
      let (d, s) := draw s
      let keep (n : Nat) : Bool := Sys2Proof.Config.freeBit (2 ^ 64 * d + n)
      let s := s.spans.foldl (fun acc p =>
        (opsAt port p.2).foldl (fun acc o => failLanes p.1 o.1 o.2.1 o.2.2 keep (causeOf 3 30) acc) acc) s
      let end_ (t : TransferEntry) : TransferEntry :=
        if t.readPorts.contains port || t.pending.any (fun w => w.1 == port) then
          { t with readPorts := [], cause := if t.cause.isSome then t.cause else some (causeOf 6 30) }
        else t
      { s with spans := s.spans.map fun p => (p.1, { p.2 with queues := p.2.queues.map fun q => q.map end_ }) }

/-- PORT_DOWN (R433). -/
def execPortDown (port : Nat) (s : State) : Host.Outcome State Fault Refusal := .next (portDown port s)

/-- VIADUCT_LINE_EVICT: the evicted line's recorded pier performs its releases at dev scope, which the one order of accesses already
gives (log 1, DESIGN CHOICE), and the record goes (R96). -/
def execViaductLineEvict (die line : Nat) (s : State) : Host.Outcome State Fault Refusal :=
  .next { s with releases := s.releases.filter fun r => !(r.1 == die && r.2.1 == line) }

end Sys2Proof.Machine
end

