-- ==== Sys2Proof/Machine/FloatOps.lean ====
section
/-!
DEFINITION. Floating point, conversions, cross-lane instructions and exact sums (R155 to R176), and their compact forms (R78).
-/

namespace Sys2Proof.Machine

/-! ### Forms -/

/-- An RRR form with a rounding mode (R156). -/
def formRrrM : Form := { formRrr with prologue := false, round := true }
/-- An RR form with a rounding mode. -/
def formRrM : Form := { formRr with prologue := false, round := true }
/-- A fused form: a fourth operand where modifier [25] is set (R159). -/
def formFma (n : Nat) : Form :=
  { rd := .reg n n, ra := .reg n n, rb := .reg n n, rc := .present n n, round := true }

/-- The third source of a fused form: rc, or the old rd (R159). -/
def fmaThird (e : Enc) : Loc := if rcPresent e then rcLoc e else rdLoc e

/-- A binary operation of `n`-word values in the word's rounding mode. -/
def runFloat2 (e : Enc) (n : Nat) (f : RoundMode → Nat → Nat → Nat × Flags) (s : State) : Host.Outcome State Fault Refusal :=
  runForm { formRrrM with rd := .reg n n, ra := .reg n n, rb := .reg n n } true e
    (aluBody e [(raLoc e, n), (rbLoc e, n)] (rdLoc e) n (alu2f (f (wordMode e)))) s

/-- A fused operation of `n`-word values. -/
def runFloat3 (e : Enc) (n : Nat) (f : RoundMode → Nat → Nat → Nat → Nat × Flags) (s : State) : Host.Outcome State Fault Refusal :=
  runForm (formFma n) true e
    (aluBody e [(raLoc e, n), (rbLoc e, n), (fmaThird e, n)] (rdLoc e) n (alu3f (f (wordMode e)))) s

/-- A unary function in the word's rounding mode. -/
def runFloat1 (e : Enc) (f : RoundMode → Nat → Nat × Flags) (s : State) : Host.Outcome State Fault Refusal :=
  runForm formRrM true e (aluBody e [(raLoc e, 1)] (rdLoc e) 1 (alu1f (f (wordMode e)))) s

/-- A unary function without a mode, from `na` registers to `nd`. -/
def runConv1 (e : Enc) (na aa nd ad : Nat) (f : Nat → Nat × Flags) (s : State) : Host.Outcome State Fault Refusal :=
  runForm { formRr with prologue := false, rd := .reg nd ad, ra := .reg na aa } true e
    (aluBody e [(raLoc e, na)] (rdLoc e) nd (alu1f f)) s

/-- A packed 16-bit result: element 0 in [15:0], element 1 in [31:16], the flags of both (R164). -/
def pack2 (x y : Nat × Flags) : Nat × Flags := (x.1 + 2 ^ 16 * y.1, x.2 ||| y.2)

/-- A packed binary operation (R164). -/
def packed2 (f : Nat → Nat → Nat × Flags) (a b : Nat) : Nat × Flags :=
  pack2 (f (a % 2 ^ 16) (b % 2 ^ 16)) (f (a / 2 ^ 16) (b / 2 ^ 16))

/-- A packed fused operation (R164). -/
def packed3 (f : Nat → Nat → Nat → Nat × Flags) (a b c : Nat) : Nat × Flags :=
  pack2 (f (a % 2 ^ 16) (b % 2 ^ 16) (c % 2 ^ 16)) (f (a / 2 ^ 16) (b / 2 ^ 16) (c / 2 ^ 16))

/-- `n` elements packed from bit 0 up, each `w` bits, with their flags. -/
def packElements (w : Nat) : Nat → List (Nat × Flags) → Nat × Flags
  | _, [] => (0, noFlags)
  | sh, (v, fl) :: rest =>
    let (r, fls) := packElements w (sh + w) rest
    (v * 2 ^ sh + r, fl ||| fls)

/-! ### FP32, packed and FP64 arithmetic -/

/-- FADD_F32 (R158). -/
def execFaddF32 (e : Enc) (s : State) : Host.Outcome State Fault Refusal := runFloat2 e 1 (floatAdd fp32) s

/-- FSUB_F32 (R158). -/
def execFsubF32 (e : Enc) (s : State) : Host.Outcome State Fault Refusal := runFloat2 e 1 (floatSub fp32) s

/-- FMUL_F32 (R158). -/
def execFmulF32 (e : Enc) (s : State) : Host.Outcome State Fault Refusal := runFloat2 e 1 (floatMul fp32) s

/-- FMIN_F32 (R158, R36). -/
def execFminF32 (e : Enc) (s : State) : Host.Outcome State Fault Refusal := 
  runForm { formRrr with prologue := false } true e (aluBody e [(raLoc e, 1), (rbLoc e, 1)] (rdLoc e) 1 (alu2f (floatMin fp32))) s

/-- FMAX_F32 (R158, R36). -/
def execFmaxF32 (e : Enc) (s : State) : Host.Outcome State Fault Refusal := 
  runForm { formRrr with prologue := false } true e (aluBody e [(raLoc e, 1), (rbLoc e, 1)] (rdLoc e) 1 (alu2f (floatMax fp32))) s

/-- FFMA_F32 (R159). -/
def execFfmaF32 (e : Enc) (s : State) : Host.Outcome State Fault Refusal := runFloat3 e 1 (floatFma fp32) s

/-- FCMP_F32 (R160). -/
def execFcmpF32 (e : Enc) (s : State) : Host.Outcome State Fault Refusal := runCmpFormat e 8 1 1 (floatCompare fp32) false s

/-- FABS_F32 (R161). -/
def execFabsF32 (e : Enc) (s : State) : Host.Outcome State Fault Refusal := runConv1 e 1 1 1 1 (floatAbs fp32) s

/-- FNEG_F32 (R161). -/
def execFnegF32 (e : Enc) (s : State) : Host.Outcome State Fault Refusal := runConv1 e 1 1 1 1 (floatNeg fp32) s

/-- FDIV_F32 (R162). -/
def execFdivF32 (e : Enc) (s : State) : Host.Outcome State Fault Refusal := runFloat2 e 1 (floatDiv fp32) s

/-- FRCP_F32 (R162). -/
def execFrcpF32 (e : Enc) (s : State) : Host.Outcome State Fault Refusal := runFloat1 e (floatRcp fp32) s

/-- FSQRT_F32 (R162). -/
def execFsqrtF32 (e : Enc) (s : State) : Host.Outcome State Fault Refusal := runFloat1 e (floatSqrt fp32) s

/-- FRSQ_F32 (R162). -/
def execFrsqF32 (e : Enc) (s : State) : Host.Outcome State Fault Refusal := runFloat1 e (floatRsqrt fp32) s

/-- FEXP2_F32 (R162). -/
def execFexp2F32 (e : Enc) (s : State) : Host.Outcome State Fault Refusal := runFloat1 e (floatExp2 fp32) s

/-- FLOG2_F32 (R162). -/
def execFlog2F32 (e : Enc) (s : State) : Host.Outcome State Fault Refusal := runFloat1 e (floatLog2 fp32) s

/-- FSINPI_F32 (R162). -/
def execFsinpiF32 (e : Enc) (s : State) : Host.Outcome State Fault Refusal := runFloat1 e (floatSinPi fp32) s

/-- FCOSPI_F32 (R162). -/
def execFcospiF32 (e : Enc) (s : State) : Host.Outcome State Fault Refusal := runFloat1 e (floatCosPi fp32) s

/-- FRND_F32 (R163). -/
def execFrndF32 (e : Enc) (s : State) : Host.Outcome State Fault Refusal := runFloat1 e (floatRnd fp32) s

/-- HADD2_F16 (R164). -/
def execHadd2F16 (e : Enc) (s : State) : Host.Outcome State Fault Refusal := runFloat2 e 1 (fun m => packed2 (floatAdd fp16 m)) s

/-- HMUL2_F16 (R164). -/
def execHmul2F16 (e : Enc) (s : State) : Host.Outcome State Fault Refusal := runFloat2 e 1 (fun m => packed2 (floatMul fp16 m)) s

/-- HFMA2_F16 (R164). -/
def execHfma2F16 (e : Enc) (s : State) : Host.Outcome State Fault Refusal := runFloat3 e 1 (fun m => packed3 (floatFma fp16 m)) s

/-- HADD2_BF16 (R164). -/
def execHadd2Bf16 (e : Enc) (s : State) : Host.Outcome State Fault Refusal := runFloat2 e 1 (fun m => packed2 (floatAdd bf16 m)) s

/-- HMUL2_BF16 (R164). -/
def execHmul2Bf16 (e : Enc) (s : State) : Host.Outcome State Fault Refusal := runFloat2 e 1 (fun m => packed2 (floatMul bf16 m)) s

/-- HFMA2_BF16 (R164). -/
def execHfma2Bf16 (e : Enc) (s : State) : Host.Outcome State Fault Refusal := runFloat3 e 1 (fun m => packed3 (floatFma bf16 m)) s

/-- DADD_F64 (R165). -/
def execDaddF64 (e : Enc) (s : State) : Host.Outcome State Fault Refusal := runFloat2 e 2 (floatAdd fp64) s

/-- DMUL_F64 (R165). -/
def execDmulF64 (e : Enc) (s : State) : Host.Outcome State Fault Refusal := runFloat2 e 2 (floatMul fp64) s

/-- DFMA_F64 (R165). -/
def execDfmaF64 (e : Enc) (s : State) : Host.Outcome State Fault Refusal := runFloat3 e 2 (floatFma fp64) s

/-- DCMP_F64 (R166). -/
def execDcmpF64 (e : Enc) (s : State) : Host.Outcome State Fault Refusal := runCmpFormat e 8 2 2 (floatCompare fp64) false s

/-! ### Conversions -/

/-- CVT_F32_S32 (R167). -/
def execCvtF32S32 (e : Enc) (s : State) : Host.Outcome State Fault Refusal := runFloat1 e (fun m a => floatOfInt fp32 m (s32 a)) s

/-- CVT_F32_Z32 (R167). -/
def execCvtF32Z32 (e : Enc) (s : State) : Host.Outcome State Fault Refusal := runFloat1 e (fun m a => floatOfInt fp32 m a) s

/-- A float to an integer, as its 32-bit pattern. -/
def cvtInt (lo hi : Int) (m : RoundMode) (a : Nat) : Nat × Flags :=
  let (v, fl) := intOfFloat fp32 m lo hi a
  (wr32 v, fl)

/-- CVT_S32_F32 (R167). -/
def execCvtS32F32 (e : Enc) (s : State) : Host.Outcome State Fault Refusal := 
  runFloat1 e (cvtInt (-(2 ^ 31 : Nat)) ((2 ^ 31 : Nat) - 1)) s

/-- CVT_Z32_F32 (R167). -/
def execCvtZ32F32 (e : Enc) (s : State) : Host.Outcome State Fault Refusal := runFloat1 e (cvtInt 0 ((2 ^ 32 : Nat) - 1)) s

/-- CVT_F16X2_F32 (R168). -/
def execCvtF16x2F32 (e : Enc) (s : State) : Host.Outcome State Fault Refusal := 
  runFloat2 e 1 (fun m a b => pack2 (floatConvert fp32 fp16 m a) (floatConvert fp32 fp16 m b)) s

/-- CVT_BF16X2_F32 (R168). -/
def execCvtBf16x2F32 (e : Enc) (s : State) : Host.Outcome State Fault Refusal := 
  runFloat2 e 1 (fun m a b => pack2 (floatConvert fp32 bf16 m a) (floatConvert fp32 bf16 m b)) s

/-- A widening of element h of a register; h is modifier [22] (R168). -/
def runWiden (e : Enc) (src : FloatFormat) (s : State) : Host.Outcome State Fault Refusal :=
  runForm { formRr with prologue := false, mods := 1 } true e
    (aluBody e [(raLoc e, 1)] (rdLoc e) 1 (alu1f fun a => floatConvert src fp32 .rne (a / 2 ^ (16 * (modifier e % 2)) % 2 ^ 16))) s

/-- CVT_F32_F16 (R168). -/
def execCvtF32F16 (e : Enc) (s : State) : Host.Outcome State Fault Refusal := runWiden e fp16 s

/-- CVT_F32_BF16 (R168). -/
def execCvtF32Bf16 (e : Enc) (s : State) : Host.Outcome State Fault Refusal := runWiden e bf16 s

/-- CVT_F64_F32 (R168). -/
def execCvtF64F32 (e : Enc) (s : State) : Host.Outcome State Fault Refusal := runConv1 e 1 1 2 2 (floatConvert fp32 fp64 .rne) s

/-- CVT_F32_F64 (R168). -/
def execCvtF32F64 (e : Enc) (s : State) : Host.Outcome State Fault Refusal := 
  runForm { formRrM with ra := .reg 2 2 } true e
    (aluBody e [(raLoc e, 2)] (rdLoc e) 1 (alu1f (floatConvert fp64 fp32 (wordMode e)))) s

/-- `n` FP32 values of `a`, encoded as tapered elements of `w` bits under the scale in b[7:0] (R169). -/
def encodeTapered (w n : Nat) (a b : Nat) : Nat × Flags :=
  packElements w 0 ((upTo n).map fun j => taperedEncode w (b % 256) (floatValue fp32 (a / 2 ^ (32 * j) % 2 ^ 32)))

/-- `n` tapered elements of `w` bits of `a`, decoded to FP32 under the scale in b[7:0] (R169). -/
def decodeTapered (w n : Nat) (a b : Nat) : Nat × Flags :=
  packElements 32 0 ((upTo n).map fun j => taperedDecode w (b % 256) (a / 2 ^ (w * j) % 2 ^ w))

/-- A tapered conversion from `na` registers to `nd` (R169, R157). -/
def runTapered (e : Enc) (na aa nd ad : Nat) (f : Nat → Nat → Nat × Flags) (s : State) : Host.Outcome State Fault Refusal :=
  runForm { rd := .reg nd ad, ra := .reg na aa, rb := .reg 1 1 } true e
    (aluBody e [(raLoc e, na), (rbLoc e, 1)] (rdLoc e) nd (alu2f f)) s

/-- CVT_T8X4_F32 (R169). -/
def execCvtT8x4F32 (e : Enc) (s : State) : Host.Outcome State Fault Refusal := runTapered e 4 4 1 1 (encodeTapered 8 4) s

/-- CVT_T6X16_F32 (R169). -/
def execCvtT6x16F32 (e : Enc) (s : State) : Host.Outcome State Fault Refusal := runTapered e 16 16 3 1 (encodeTapered 6 16) s

/-- CVT_F32_T8 (R169). -/
def execCvtF32T8 (e : Enc) (s : State) : Host.Outcome State Fault Refusal := runTapered e 1 1 4 4 (decodeTapered 8 4) s

/-- CVT_F32_T6 (R169). -/
def execCvtF32T6 (e : Enc) (s : State) : Host.Outcome State Fault Refusal := runTapered e 3 1 16 16 (decodeTapered 6 16) s

/-- SCALEX_T8 (R170). -/
def execScalexT8 (e : Enc) (s : State) : Host.Outcome State Fault Refusal := runConv1 e 1 1 1 1 (fun a => taperedScale 8 (floatValue fp32 a)) s

/-- SCALEX_T6 (R170). -/
def execScalexT6 (e : Enc) (s : State) : Host.Outcome State Fault Refusal := runConv1 e 1 1 1 1 (fun a => taperedScale 6 (floatValue fp32 a)) s

/-- Four FP32 values stored as N8 (R169). -/
def encodeN8 (a : Nat) : Nat × Flags :=
  packElements 8 0 ((upTo 4).map fun j => n8Of (floatValue fp32 (a / 2 ^ (32 * j) % 2 ^ 32)))

/-- CVT_N8X4_F32 (R169). -/
def execCvtN8x4F32 (e : Enc) (s : State) : Host.Outcome State Fault Refusal := runConv1 e 4 4 1 1 encodeN8 s

/-- CVT_F32_N8 (R169). -/
def execCvtF32N8 (e : Enc) (s : State) : Host.Outcome State Fault Refusal := 
  runForm { formRri with prologue := false } (immRri e < 4) e
    (aluBody e [(raLocB e, 1)] (rdLocB e) 1 (alu1f fun a => n8Value (a / 256 ^ immRri e % 256))) s

/-! ### Cross-lane instructions (R171 to R174) -/

/-- A cross-lane instruction: U = 0; the participants are the gang's lanes active after the guard, and every source is read before any
result is written (R171). `f g lanes lane` is a participant's result. -/
def runCross (f0 : Form) (e : Enc) (f : Group → List Nat → Nat → Nat × Flags) (s : State) : Host.Outcome State Fault Refusal :=
  runForm { f0 with u := .zero } true e (fun s =>
    let lanes := laneList (actLanes e s)
    advance (wordLen e) (modCur s fun g =>
      lanes.foldl (fun acc i =>
        let r := f g lanes i
        mergeFlags r.2 (writeV (locNum (rdLoc e)) i (BitVec.ofNat 32 r.1) acc)) g)) s

/-- A SHFL: the source lane of a participant from its n, as an integer (R172). -/
def runShfl (e : Enc) (src : Int → Int → Int) (s : State) : Host.Outcome State Fault Refusal :=
  runCross { rd := .reg 1 1, ra := .reg 1 1, rb := .reg 1 1 } e (fun g lanes i =>
    let n : Nat := (readLoc g i (rbLoc e)).toNat % 32
    let k := src i n
    let from_ := if 0 ≤ k && k ≤ 31 && lanes.contains k.toNat then k.toNat else i
    ((readLoc g from_ (raLoc e)).toNat, noFlags)) s

/-- SHFL_IDX (R172). -/
def execShflIdx (e : Enc) (s : State) : Host.Outcome State Fault Refusal := runShfl e (fun _ n => n) s

/-- SHFL_XOR (R172). -/
def execShflXor (e : Enc) (s : State) : Host.Outcome State Fault Refusal := runShfl e (fun i n => (i.toNat ^^^ n.toNat : Nat)) s

/-- SHFL_UP (R172). -/
def execShflUp (e : Enc) (s : State) : Host.Outcome State Fault Refusal := runShfl e (fun i n => i - n) s

/-- SHFL_DOWN (R172). -/
def execShflDown (e : Enc) (s : State) : Host.Outcome State Fault Refusal := runShfl e (fun i n => i + n) s

/-- A vote: `res` of the participants' predicates, written to pd in each participant (R173). -/
def runVote (e : Enc) (res : List Bool → Bool) (s : State) : Host.Outcome State Fault Refusal :=
  runForm { rd := .cond 1, ra := .pred, rb := .unused, u := .zero } true e (fun s =>
    let lanes := laneList (actLanes e s)
    let r := res (lanes.map fun i => readP (curGroup s) e.ra.toNat i)
    predBody e (fun _ _ => (r, noFlags)) s) s

/-- VOTE_ANY (R173). -/
def execVoteAny (e : Enc) (s : State) : Host.Outcome State Fault Refusal := runVote e (·.any id) s

/-- VOTE_ALL (R173). -/
def execVoteAll (e : Enc) (s : State) : Host.Outcome State Fault Refusal := runVote e (·.all id) s

/-- BALLOT (R173). -/
def execBallot (e : Enc) (s : State) : Host.Outcome State Fault Refusal :=
  runCross { rd := .reg 1 1, ra := .pred, rb := .unused } e (fun g lanes _ =>
    (fromBits 32 fun i => lanes.contains i && readP g e.ra.toNat i, noFlags)) s

/-- MATCH (R173). -/
def execMatchLanes (e : Enc) (s : State) : Host.Outcome State Fault Refusal :=
  runCross { rd := .reg 1 1, ra := .reg 1 1, rb := .unused } e (fun g lanes i =>
    (fromBits 32 fun k => lanes.contains k && readLoc g k (raLoc e) == readLoc g i (raLoc e), noFlags)) s

/-- A reduction or scan of the participants' ra: `f` is given the participants with their values and the lane (R174). -/
def runReduce (e : Enc) (f : List (Nat × Nat) → Nat → Nat × Flags) (s : State) : Host.Outcome State Fault Refusal :=
  runCross { rd := .reg 1 1, ra := .reg 1 1, rb := .unused } e (fun g lanes i =>
    f (lanes.map fun k => (k, (readLoc g k (raLoc e)).toNat)) i) s

/-- One level of R57's tree: neighbours added, with the flags of each rounding. -/
def treeLevel : List Nat → List Nat × Flags
  | x :: y :: rest =>
    let (v, fl) := floatAdd fp32 .rne x y
    let (vs, fls) := treeLevel rest
    (v :: vs, fl ||| fls)
  | l => (l, noFlags)

/-- The tree of R57 over 2^n values. -/
def treeSum : Nat → List Nat → Nat × Flags
  | 0, l => (l.headD 0, noFlags)
  | n + 1, l =>
    let (vs, fl) := treeLevel l
    let (r, fl') := treeSum n vs
    (r, fl ||| fl')

/-- The 32 values of R57 and R58: +0 where a lane does not participate. -/
def laneValues (vals : List (Nat × Nat)) : List Nat := (upTo 32).map fun i => (keyFind i vals).getD 0

/-- acc after step i of R58, with the flags of every step. -/
def scanFloat : List Nat → Nat → Nat × Flags
  | [], acc => (acc, noFlags)
  | x :: rest, acc =>
    let (v, fl) := floatAdd fp32 .rne acc x
    let (r, fl') := scanFloat rest v
    (r, fl ||| fl')

/-- A code with a NaN brought to the canonical one of its format (R34). -/
def nanCanonical (ff : FloatFormat) (x : Nat) : Nat :=
  match floatValue ff x with
  | .nan _ => fmtNaN ff
  | _ => x

/-- The scan's value in lane i, a NaN canonical, and the flags of all 31 roundings (R34, R58, R174). -/
def scanAt (vals : List (Nat × Nat)) (i : Nat) : Nat × Flags :=
  match laneValues vals with
  | [] => (0, noFlags)
  | x :: rest => (nanCanonical fp32 (scanFloat (rest.take i) x).1, (scanFloat rest x).2)

/-- REDUCE_ADD_S32 (R174). -/
def execReduceAddS32 (e : Enc) (s : State) : Host.Outcome State Fault Refusal := 
  runReduce e (fun vals _ => ((vals.map (·.2)).sum % 2 ^ 32, noFlags)) s

/-- REDUCE_MIN_S32 (R174). -/
def execReduceMinS32 (e : Enc) (s : State) : Host.Outcome State Fault Refusal := 
  runReduce e (fun vals i => ((vals.map (·.2)).foldl fMinS ((keyFind i vals).getD 0), noFlags)) s

/-- REDUCE_MAX_S32 (R174). -/
def execReduceMaxS32 (e : Enc) (s : State) : Host.Outcome State Fault Refusal := 
  runReduce e (fun vals i => ((vals.map (·.2)).foldl fMaxS ((keyFind i vals).getD 0), noFlags)) s

/-- REDUCE_ADD_F32 (R174, R57). -/
def execReduceAddF32 (e : Enc) (s : State) : Host.Outcome State Fault Refusal := runReduce e (fun vals _ => treeSum 5 (laneValues vals)) s

/-- SCAN_ADD_S32 (R174). -/
def execScanAddS32 (e : Enc) (s : State) : Host.Outcome State Fault Refusal := 
  runReduce e (fun vals i => (((vals.filter (·.1 ≤ i)).map (·.2)).sum % 2 ^ 32, noFlags)) s

/-- SCAN_ADD_F32 (R174, R58). -/
def execScanAddF32 (e : Enc) (s : State) : Host.Outcome State Fault Refusal := runReduce e scanAt s

/-! ### Exact sums (R175, R176) -/

/-- An exact-sum instruction in each active lane: U = 0, no modifier. -/
def runExact (f0 : Form) (e : Enc) (srcs : List (Loc × Nat)) (k : Nat) (f : Alu) (s : State) : Host.Outcome State Fault Refusal :=
  runForm { f0 with u := .zero } true e (aluBody e srcs (rdLoc e) k f) s

/-- XCLR (R175). -/
def execXclr (e : Enc) (s : State) : Host.Outcome State Fault Refusal :=
  runExact { rd := .reg 10 2, ra := .unused, rb := .unused } e [] 10 (fun _ => (0, noFlags)) s

/-- XACC.f32 (R175, R51). -/
def execXaccF32 (e : Enc) (s : State) : Host.Outcome State Fault Refusal :=
  runExact { rd := .reg 10 2, ra := .reg 1 1, rb := .unused } e [(raLoc e, 1), (rdLoc e, 10)] 10 (alu2f fun a x =>
    let t := floatValue fp32 a
    let (r, fl) := exactAddTerm (exactOfNat x) t
    (natOfExact r, fl ||| snanFlags [t])) s

/-- XMAC.f32 (R175, R51): the exact product; 0·∞ sets NAN in the accumulator. -/
def execXmacF32 (e : Enc) (s : State) : Host.Outcome State Fault Refusal :=
  runExact { rd := .reg 10 2, ra := .reg 1 1, rb := .reg 1 1 } e [(raLoc e, 1), (rbLoc e, 1), (rdLoc e, 10)] 10
    (alu3f fun a b x =>
      let p := floatValue fp32 a
      let q := floatValue fp32 b
      let (r, fl) := exactAddTerm (exactOfNat x) (numMul p q).1
      (natOfExact r, fl ||| snanFlags [p, q])) s

/-- XACC.x320 (R175, R51). -/
def execXaccX320 (e : Enc) (s : State) : Host.Outcome State Fault Refusal :=
  runExact { rd := .reg 10 2, ra := .reg 10 2, rb := .unused } e [(raLoc e, 10), (rdLoc e, 10)] 10
    (alu2 fun a x => natOfExact (exactAdd (exactOfNat x) (exactOfNat a))) s

/-- XRND.f32 (R175, R52). -/
def execXrndF32 (e : Enc) (s : State) : Host.Outcome State Fault Refusal :=
  runExact { rd := .reg 1 1, ra := .reg 10 2, rb := .unused } e [(raLoc e, 10)] 1 (alu1f fun a => exactRound (exactOfNat a)) s

/-- XRED (R175): the sum over the participants, to each of them. -/
def execXred (e : Enc) (s : State) : Host.Outcome State Fault Refusal :=
  runForm { rd := .reg 10 2, ra := .reg 10 2, rb := .unused, u := .zero } true e (fun s =>
    let lanes := laneList (actLanes e s)
    advance (wordLen e) (modCur s fun g =>
      let sum := lanes.foldl (fun acc i => exactAdd acc (exactOfNat (readLocs g i 10 (raLoc e)))) (exactOfNat 0)
      lanes.foldl (fun acc i => writeVs (locNum (rdLoc e)) i (wordsOf 10 (natOfExact sum)) acc) g)) s

/-! ### Compact float forms (R78) -/

/-- COMPACT_FADD_F32 (R78): rounds RNE. -/
def execCompactFaddF32 (c : Cmp) (s : State) : Host.Outcome State Fault Refusal := runCmp c (alu2f (floatAdd fp32 .rne)) s

/-- COMPACT_FSUB_F32 (R78): rounds RNE. -/
def execCompactFsubF32 (c : Cmp) (s : State) : Host.Outcome State Fault Refusal := runCmp c (alu2f (floatSub fp32 .rne)) s

/-- COMPACT_FMUL_F32 (R78): rounds RNE. -/
def execCompactFmulF32 (c : Cmp) (s : State) : Host.Outcome State Fault Refusal := runCmp c (alu2f (floatMul fp32 .rne)) s

/-- COMPACT_FMIN_F32 (R78): rounds RNE. -/
def execCompactFminF32 (c : Cmp) (s : State) : Host.Outcome State Fault Refusal := runCmp c (alu2f (floatMin fp32)) s

/-- COMPACT_FMAX_F32 (R78): rounds RNE. -/
def execCompactFmaxF32 (c : Cmp) (s : State) : Host.Outcome State Fault Refusal := runCmp c (alu2f (floatMax fp32)) s

end Sys2Proof.Machine
end

