-- ==== Sys2Proof/Machine/Matrix.lean ====
section
/-!
DEFINITION. Matrix: reservations, their filling, MMA and MMAX (R337 to R346), and the matrix FIFO's steps (R324 to R335).
-/

namespace Sys2Proof.Machine

/-! ### The FIFO (R328) -/

/-- A pier's matrix FIFO. -/
def fifo (s : State) (pier : Nat) : List MatrixEntry := (keyFind pier s.matrix).getD []

/-- A pier's matrix FIFO replaced. -/
def setFifo (pier : Nat) (l : List MatrixEntry) (s : State) : State := { s with matrix := keySet pier l s.matrix }

/-- An MCAST of the span writes reservation `k` of its own span. -/
def mcastNames (sid k : Nat) (t : TransferEntry) : Bool :=
  match t.kind with
  | .mcast ws ms =>
    let ws := ws.map (·.toNat)
    descFlag ws 2 && dw ws 2 % 16 == k && ms.any fun m => m.sid == sid
  | _ => false

/-- A posted operation of the span that names reservation `k` is outstanding (R339, R340) (log 62, DEDUCED). -/
def resPending (s : State) (sid k : Nat) : Bool :=
  match findSpan s sid with
  | none => false
  | some sp =>
    (fifo s (spanPier sp)).any (fun x => x.sid == sid && x.res == k) || sp.queues.any fun q => q.any (mcastNames sid k)

/-- The mode a reservation will have once the earlier entries of the span that name it complete (R329) (log 62, DEDUCED). -/
def projectedMode (s : State) (sid k : Nat) (sp : Span) : Nat :=
  (fifo s (spanPier sp)).foldl (fun acc x =>
    if x.sid == sid && x.res == k then
      match x.kind with
      | .load _ _ => 1
      | .loadCoded _ _ => 2
      | .mma _ _ _ _ _ => acc
    else acc) (resMode (spanRes sp k))

/-- The FIFO is full or the mx counter stands at 63: the group's issue stalls (R9, R12). -/
def matrixStalls (s : State) : Bool := decide (32 ≤ (fifo s (curPier s)).length) || counter (curGroup s) .mx == 63

/-- An entry posted (R328). -/
def postMatrix (e : Enc) (res : Nat) (kind : MatrixKind) (barrier : Option Nat) (cause : Option Cause) (s : State) : State :=
  let pier := curPier s
  let id := (curGroup s).opCount
  let x : MatrixEntry := ⟨curSid s, curNum s, id, res, kind, barrier, false⟩
  let s := modCur s fun g => modOp id (fun o => { o with cause := cause }) (issueOp .mx .engine (actLanes e s) g)
  let s := match barrier with
    | none => s
    | some k => raisePend (curSid s) k s
  advance (wordLen e) (setFifo pier (fifo s pier ++ [x]) s)

/-! ### OBRES, OBREL, OBQ (R338 to R340) -/

/-- The form of OBRES, OBREL and OBQ. -/
def formRes (rd : FieldUse) : Form := { rd := rd, ra := .unused, rb := .index 16, xp := .zero, u := .one }

/-- OBRES (R338). -/
def execObres (e : Enc) (s : State) : Host.Outcome State Fault Refusal :=
  runForm (formRes (.reg 1 1)) true e (guardedOp e fun s =>
    match curSpan s with
    | none => s
    | some sp =>
      let k := e.rb.toNat
      match grantRes sp k (readG (curGroup s) e.rd.toNat).toNat with
      | none => faultWith 4 21 (gangLanes s) s
      | some rec => advance (wordLen e) (modSpan s (curSid s) (modRes k fun _ => ⟨rec, 0⟩))) s

/-- OBREL (R339): issue stalls while an operation names the reservation. -/
def execObrel (e : Enc) (s : State) : Host.Outcome State Fault Refusal :=
  runForm (formRes .unused) true e (guardedOp e fun s =>
    match curSpan s with
    | none => s
    | some sp =>
      let k := e.rb.toNat
      if !resValid (spanRes sp k) then faultWith 4 21 (gangLanes s) s
      else if resPending s (curSid s) k then s
      else advance (wordLen e) (modSpan s (curSid s) (modRes k fun _ => ⟨0, 0⟩))) s

/-- The second word of OBQ (R340) (log 62, DEDUCED). -/
def obqWord (r : Reservation) (pending : Bool) : Nat :=
  2 ^ 24 * resBase r + 2 ^ 15 * resSize r + 2 ^ 8 * resFormat r + 2 ^ 5 * resBlock r + 2 ^ 3 * resMode r + (if pending then 4 else 0) +
    (if resValid r then 1 else 0)

/-- OBQ (R340). -/
def execObq (e : Enc) (s : State) : Host.Outcome State Fault Refusal :=
  runForm (formRes (.reg 2 2)) true e (guardedOp e fun s =>
    match curSpan s with
    | none => s
    | some sp =>
      let k := e.rb.toNat
      let r := spanRes sp k
      let ws : List Word :=
        if resValid r then [BitVec.ofNat 32 (resPos r), BitVec.ofNat 32 (obqWord r (resPending s (curSid s) k))] else [0, 0]
      advance (wordLen e) (modCur s (writeGs e.rd.toNat ws))) s

/-! ### OBLD and OBLDT (R341, R342) -/

/-- OBLD's form bits: 0 plain, 1 transpose, 2 scales. -/
def obldMode (e : Enc) : Nat := e.rb.toNat / 16

/-- Bytes a lane of OBLD reads. -/
def obldBytes (mode : Nat) (r : Reservation) : Nat := if mode = 2 then 32 else rowBytes (resFormat r)

/-- A lane's index is out of range for its form (R341). -/
def obldOut (mode : Nat) (r : Reservation) (n : Nat) : Bool :=
  match mode with
  | 0 => decide (resRows r ≤ n)
  | 1 => decide (resRows r < n + 32)
  | _ => decide (resRows r / 32 ≤ n)

/-- OBLD (R341). -/
def execObld (e : Enc) (s : State) : Host.Outcome State Fault Refusal :=
  runForm { rd := .reg 1 1, ra := .reg 2 2, rb := .imm, u := .zero, mem := some ⟨[0, 1], false, true⟩ } (decide (obldMode e < 3)) e
    (fun s =>
      let lanes := actLanes e s
      match curSpan s with
      | none => s
      | some sp =>
        let g := curGroup s
        let k := e.rb.toNat % 16
        let r := spanRes sp k
        let mode := obldMode e
        let items := (laneList lanes).map fun l => (l, readLocs g l 2 (raLoc e), (readLoc g l (rdLoc e)).toNat)
        if !fullGang e s then faultWith 4 11 lanes s
        else if !resValid r || (mode = 2 && resBlock r ≠ 5) then faultWith 4 21 lanes s
        else if items.any fun i => obldOut mode r i.2.2 then faultWith 4 21 lanes s
        else if items.any fun i => i.2.1 % 8 != 0 then faultWith 3 4 lanes s
        else if matrixStalls s then s
        else
          wholeIssue lanes false (fun s => items.map fun i => (i.1, curRun s .load i.2.1 (obldBytes mode r)))
            (postMatrix e k (.load mode items) none none) s) s

/-- A reservation takes no tile, or not the tile of its entry; of an entry that is uncorrectable no line count is known (R325, R342)
(log 61, DEDUCED). -/
def obldtRefused (r : Reservation) (entry : Option Nat) : Bool :=
  !resValid r || !(resFormat r == fmtT8 || resFormat r == fmtS8) || resBlock r != 0 ||
    (entry.map fun e => decide (16 * resSize r < tileLines e)).getD false

/-- OBLDT (R342): the entry is read at issue; its lines are copied at the entry's turn. -/
def execObldt (e : Enc) (s : State) : Host.Outcome State Fault Refusal :=
  runForm { rd := .reg 2 2, ra := .reg 2 2, rb := .index 16, u := .one, mem := some ⟨[0, 1], false, true⟩ } true e
    (guardedOp e fun s =>
      let lanes := actLanes e s
      match curSpan s with
      | none => s
      | some sp =>
        let g := curGroup s
        let k := e.rb.toNat
        let r := spanRes sp k
        let entryVa := readLocs g 0 2 (raLoc e)
        let base := readLocs g 0 2 (rdLoc e)
        let ep := curRun s .load entryVa 16
        let entry := bytesToNat (readParts s ep)
        let seen := allReach ep
        let bad := partsPoisoned s ep
        if !fullGang e s then faultWith 4 11 lanes s
        else if entryVa % 16 ≠ 0 || base % 64 ≠ 0 then faultWith 3 4 lanes s
        else if matrixStalls s then s
        else if seen && obldtRefused r (if bad then none else some entry) then faultWith 4 21 lanes s
        else
          let lines := if seen && !bad then curRun s .load (base + 64 * tileOffset entry) (64 * tileLines entry) else []
          wholeIssue lanes true (fun _ => [(0, ep ++ lines)])
            (postMatrix e k (.loadCoded (BitVec.ofNat 128 entry) base) none (if bad then some (causeOf 3 25) else none)) s) s

/-! ### MMA and MMAX at issue (R329, R330, R343, R344) -/

/-- What a matrix form takes: format, depth, A registers and alignment, C registers and alignment, scale block, coded B allowed. -/
structure MmaShape where
  format : Nat
  depth : Nat
  aRegs : Nat
  aAlign : Nat
  cRegs : Nat
  scaled : Bool
  coded : Bool
  exact : Bool
  deriving DecidableEq, Repr

/-- The table of R329. -/
def mmaShape : MmaForm → MmaShape
  | .t8 => ⟨fmtT8, 64, 16, 16, 32, false, true, false⟩
  | .t6 => ⟨fmtT6, 64, 12, 4, 32, false, false, false⟩
  | .s8 => ⟨fmtS8, 64, 16, 16, 32, false, true, false⟩
  | .bf16 => ⟨fmtBF16, 32, 16, 16, 32, false, false, false⟩
  | .f16 => ⟨fmtF16, 32, 16, 16, 32, false, false, false⟩
  | .t8s => ⟨fmtT8, 64, 16, 16, 32, true, false, false⟩
  | .t6s => ⟨fmtT6, 64, 12, 4, 32, true, false, false⟩
  | .xt8 => ⟨fmtT8, 64, 16, 16, 64, false, true, true⟩
  | .xt6 => ⟨fmtT6, 64, 12, 4, 64, false, false, true⟩
  | .xs8 => ⟨fmtS8, 64, 16, 16, 64, false, true, true⟩

/-- The register form: the arrive enable is modifier [4], the barrier modifier [3:0] (R343). -/
def formMma (m : MmaShape) : Form :=
  { rd := .reg m.cRegs m.cRegs, ra := .reg m.aRegs m.aAlign, rb := .imm, rc := if m.scaled then .always else .unused, u := .zero,
    mods := 0x1F }

/-- The barrier an MMA names. -/
def mmaBarrier (e : Enc) : Option Nat := if modifier e / 16 % 2 = 1 then some (modifier e % 16) else none

/-- The limits of R343 on its fields. -/
def mmaLegal (e : Enc) : Bool := (decide (16 ≤ modifier e) || modifier e == 0) && !xpBit e 13

/-- The C range overlaps the A range or the scale register (R329). -/
def mmaOverlap (m : MmaShape) (e : Enc) : Bool :=
  let c := locNum (rdLoc e)
  let a := locNum (raLoc e)
  (decide (c < a + m.aRegs) && decide (a < c + m.cRegs)) || (m.scaled && decide (c ≤ rcField e) && decide (rcField e < c + m.cRegs))

/-- The reservation cannot serve the instruction: validity, format, scale block, mode, rows (R324, R329). -/
def mmaRefused (m : MmaShape) (r : Reservation) (mode : Nat) : Bool :=
  !resValid r || resFormat r != m.format || resBlock r != (if m.scaled then 5 else 0) ||
  !(mode == 1 || (mode == 2 && m.coded)) || (mode == 1 && decide (resRows r < m.depth))

/-- An MMA or MMAX (R344) (log 62, DEDUCED). -/
def runMma (f : MmaForm) (e : Enc) (s : State) : Host.Outcome State Fault Refusal :=
  let m := mmaShape f
  runForm (formMma m) (mmaLegal e) e (fun s =>
    let lanes := actLanes e s
    match curSpan s with
    | none => s
    | some sp =>
      let g := curGroup s
      let k := e.rb.toNat % 16
      let mode := projectedMode s (curSid s) k sp
      let unset := match mmaBarrier e with
        | none => false
        | some b => !(spanBarrier sp b).init
      if !fullGang e s then faultWith 4 11 lanes s
      else if mmaOverlap m e then faultWith 0 0 lanes s
      else if mmaRefused m (spanRes sp k) mode then faultWith 4 21 lanes s
      else if unset then faultWith 0 15 lanes s
      else if matrixStalls s then s
      else
        let a := (upTo 32).map fun l => (upTo m.aRegs).map fun j => readV g (locNum (raLoc e) + j) l
        let sc := (upTo 32).map fun l => if m.scaled then readV g (rcField e) l else 0
        postMatrix e k (.mma f a sc (locNum (rdLoc e)) mode) (mmaBarrier e) none s) s

/-- MMA.t8 (R344). -/
def execMmaT8 (e : Enc) (s : State) : Host.Outcome State Fault Refusal := runMma .t8 e s

/-- MMA.t6 (R344). -/
def execMmaT6 (e : Enc) (s : State) : Host.Outcome State Fault Refusal := runMma .t6 e s

/-- MMA.s8 (R344). -/
def execMmaS8 (e : Enc) (s : State) : Host.Outcome State Fault Refusal := runMma .s8 e s

/-- MMA.bf16 (R344). -/
def execMmaBf16 (e : Enc) (s : State) : Host.Outcome State Fault Refusal := runMma .bf16 e s

/-- MMA.f16 (R344). -/
def execMmaF16 (e : Enc) (s : State) : Host.Outcome State Fault Refusal := runMma .f16 e s

/-- MMA.t8s (R344). -/
def execMmaT8s (e : Enc) (s : State) : Host.Outcome State Fault Refusal := runMma .t8s e s

/-- MMA.t6s (R344). -/
def execMmaT6s (e : Enc) (s : State) : Host.Outcome State Fault Refusal := runMma .t6s e s

/-- MMAX.t8 (R344). -/
def execMmaxT8 (e : Enc) (s : State) : Host.Outcome State Fault Refusal := runMma .xt8 e s

/-- MMAX.t6 (R344). -/
def execMmaxT6 (e : Enc) (s : State) : Host.Outcome State Fault Refusal := runMma .xt6 e s

/-- MMAX.s8 (R344). -/
def execMmaxS8 (e : Enc) (s : State) : Host.Outcome State Fault Refusal := runMma .xs8 e s

/-- XFIX.f32 of a Q40.24 pair (R54, R346). -/
def xfix (q : Nat) : Nat × Flags :=
  let v := signedOf 64 q
  roundNum fp32 .rne (.fin (v < 0) v.natAbs (-24))

/-- XFIX.f32 (R346). -/
def execXfixF32 (e : Enc) (s : State) : Host.Outcome State Fault Refusal :=
  runForm { rd := .reg 1 1, ra := .reg 2 2, rb := .unused } true e
    (aluBody e [(raLoc e, 2)] (rdLoc e) 1 fun l =>
      match l with
      | q :: _ => xfix q
      | [] => (0, noFlags)) s

/-! ### The array (R324, R326, R333) -/

/-- An element code as an exact value; none is NaR. -/
def elemNum (f code : Nat) : Option Num :=
  if f = fmtT8 then taperedValue 8 code
  else if f = fmtT6 then taperedValue 6 code
  else if f = fmtS8 then
    let v := signedOf 8 code
    some (.fin (v < 0) v.natAbs 0)
  else if f = fmtBF16 then some (floatValue bf16 code)
  else some (floatValue fp16 code)

/-- A value under an E8M0 scale; a NaN scale makes it NaR (R43). -/
def scaledNum (scale : Nat) (v : Option Num) : Option Num := if scale = 0xFF then none else v.map (numScale ((scale : Int) - 127))

/-- The codes of `n` elements packed from the low bits of a number. -/
def unpackCodes (f n x : Nat) : List Nat := (upTo n).map fun i => x / 2 ^ (formatBits f * i) % 2 ^ formatBits f

/-- Row i of A from a lane's registers (R330). -/
def aRow (m : MmaShape) (a : List Word) (scales : Nat) : List (Option Num) :=
  let codes := unpackCodes m.format m.depth (readWords (fun j => (a[j]?).getD 0) 0 m.aRegs)
  ((upTo m.depth).zip codes).map fun p =>
    let v := elemNum m.format p.2
    if m.scaled then scaledNum (bitsOf scales (8 * (p.1 / 32) + 7) (8 * (p.1 / 32))) v else v

/-- The rows of a dense B from its read position (R323, R324). -/
def denseRows (s : State) (sp : Span) (r : Reservation) (m : MmaShape) : List (List (Option Num)) :=
  let w := rowBytes m.format
  (upTo m.depth).map fun k =>
    let j := (resPos r + k) % resRows r
    let codes := unpackCodes m.format 32 (bytesToNat (readRes s sp r (w * j) w))
    if m.scaled then
      let scales := readRes s sp r (resScaleOff r + 32 * (j / 32)) 32
      (codes.zip scales).map fun p => scaledNum p.2.toNat (elemNum m.format p.1)
    else codes.map (elemNum m.format)

/-- Line `j` of a coded reservation. -/
def resLineBits (s : State) (sp : Span) (r : Reservation) (j : Nat) : Nat := bytesToNat (readRes s sp r (64 * j) 64)

/-- Where the port decoder stands: line, elements taken from it, next element. -/
structure CodedPos where
  line : Nat
  used : Nat
  elem : Nat
  deriving DecidableEq, Repr

/-- `n` elements of a coded tile, each line checked whole as it is reached (R326), or the reason of source 5 (log 61, DEDUCED). -/
def codedTake (tables : Tables) (entry : Nat) (line : Nat → Nat) : Nat → CodedPos → Nat → Except Nat (List Nat × CodedPos)
  | 0, _, _ => .error 18
  | fuel + 1, p, n =>
    if n = 0 then .ok ([], p)
    else if tileElems entry ≤ p.elem then .error 18
    else
      let l := line p.line
      match (if p.used = 0 then lineCheck tables entry p.line p.elem l else none) with
      | some r => .error r
      | none =>
        if lineCount l ≤ p.used then
          if lineLast l then .error 18 else codedTake tables entry line fuel ⟨p.line + 1, 0, p.elem⟩ n
        else
          let take := min (min (lineCount l - p.used) n) (tileElems entry - p.elem)
          match lineSymbols tables l (p.used + take) with
          | .error r => .error r
          | .ok ks =>
            match codedTake tables entry line fuel ⟨p.line, p.used + take, p.elem + take⟩ (n - take) with
            | .error r => .error r
            | .ok (more, p') => .ok (ks.drop p.used ++ more, p')

/-- A list cut into rows of 32. -/
def rowsOf32 : Nat → List Nat → List (List Nat)
  | 0, _ => []
  | n + 1, l => l.take 32 :: rowsOf32 n (l.drop 32)

/-- B of an instruction, and the reservation as it leaves it: or the cause that ends it. -/
def takeRows (s : State) (sp : Span) (r : Reservation) (m : MmaShape) : Except Cause (List (List (Option Num)) × Reservation) :=
  if resMode r = 1 then
    .ok (denseRows s sp r m, { r with record := setField r.record 99 68 ((resPos r + m.depth) % resRows r) })
  else
    let e := resEntry r
    match codedTake sp.tables e (resLineBits s sp r) (2 * tileLines e + 3) ⟨resLine r, resConsumed r, resPos r⟩ (32 * m.depth) with
    | .error x => .error (causeOf 5 x)
    | .ok (codes, p) =>
      let x := setField r.record 99 68 p.elem
      let x := setField x 107 100 p.used
      let x := setField x 127 108 p.line
      let x := setField x 67 65 (lineTable (resLineBits s sp r p.line))
      .ok ((rowsOf32 m.depth codes).map fun row => row.map (elemNum m.format), { r with record := x })

/-- The products of a row of A and a column of B; none where a NaR takes part. -/
def termsOf (a : List (Option Num)) (rows : List (List (Option Num))) (j : Nat) : List (Option Num) :=
  (a.zip rows).map fun p =>
    match p.1, ((p.2[j]?).getD none) with
    | some x, some y => some (numMul x y).1
    | _, _ => none

/-- One element of an MMA's C (R55, R56). -/
def mmaElement (m : MmaShape) (a : List (Option Num)) (rows : List (List (Option Num))) (j cOld : Nat) : Nat × Flags :=
  if m.format = fmtBF16 || m.format = fmtF16 then
    mmaWindow cOld ((a.zip rows).map fun p => (p.1.getD (.nan false), ((p.2[j]?).getD none).getD (.nan false)))
  else
    let ts := termsOf a rows j
    mmaExact cOld (ts.any (·.isNone)) (ts.filterMap fun t => t)

/-- One element of an MMAX's C: a Q40.24 (R53). -/
def mmaxElement (a : List (Option Num)) (rows : List (List (Option Num))) (j q : Nat) : Nat × Flags :=
  let ts := termsOf a rows j
  let nar := flagIf (ts.any (·.isNone)) flagNAR
  let p := numAsInt (-24) (exactSum (ts.filterMap fun t => t))
  let v := signedOf 64 q + p
  let wrap := v < -(2 ^ 63 : Nat) || ((2 ^ 63 : Nat) : Int) ≤ v
  ((v % (2 ^ 64 : Nat)).toNat, nar ||| flagIf wrap flagXOVF)

/-- The C registers an instruction writes, with its flags. -/
def mmaResults (m : MmaShape) (g : Group) (c : Nat) (a : List (List Word)) (scales : List Word) (rows : List (List (Option Num))) :
    List OpWrite × Flags :=
  let lane (i : Nat) : List OpWrite × Flags :=
    let ai := aRow m ((a[i]?).getD []) ((scales[i]?).getD 0).toNat
    let cell (j : Nat) : List OpWrite × Flags :=
      if m.exact then
        let r := mmaxElement ai rows j (readWords (fun k => readV g k i) (c + 2 * j) 2)
        ([.lane (c + 2 * j) i (BitVec.ofNat 32 r.1), .lane (c + 2 * j + 1) i (BitVec.ofNat 32 (r.1 / 2 ^ 32))], r.2)
      else
        let r := mmaElement m ai rows j (readV g (c + j) i).toNat
        ([.lane (c + j) i (BitVec.ofNat 32 r.1)], r.2)
    let cs := (upTo 32).map cell
    ((cs.map (·.1)).flatten, orFlags (cs.map (·.2)))
  let ls := (upTo 32).map lane
  ((ls.map (·.1)).flatten, orFlags (ls.map (·.2)))

/-! ### The FIFO's steps (R328, R331, R335) -/

/-- A source run of a FIFO entry at its turn: absent and host-owned pages end it, a move lock makes it wait (R335). -/
def turnTouch (s : State) (sp : Span) (va n : Nat) : Touch :=
  let ps := reachRun s (some (spanPier sp)) (spanCtx s sp) .engineRead va n
  match firstFault false ps with
  | some r => .fail (causeOf 3 r)
  | none =>
    match firstPark ps with
    | some p => .wait p
    | none => if partsPoisoned s ps then .fail (causeOf 3 25) else .ok ps

/-- An element of a row written (R322, R341). -/
def writeElem (sp : Span) (r : Reservation) (row n code : Nat) (s : State) : State :=
  let f := resFormat r
  let w := rowBytes f
  if f = fmtT6 then
    let o := w * row + 3 * (n / 4)
    let old := bytesToNat (readRes s sp r o 3)
    let sh := 6 * (n % 4)
    writeRes sp r o (natToBytes 3 (old - old / 2 ^ sh % 64 * 2 ^ sh + code * 2 ^ sh)) s
  else writeRes sp r (w * row + n * elemSize f) (natToBytes (elemSize f) code) s

/-- One lane of an OBLD (R341). -/
def obldLane (sp : Span) (r : Reservation) (mode lane n : Nat) (bs : List Byte) (s : State) : State :=
  match mode with
  | 0 => writeRes sp r (rowBytes (resFormat r) * n) bs s
  | 1 =>
    let codes := unpackCodes (resFormat r) 32 (bytesToNat bs)
    ((upTo 32).zip codes).foldl (fun acc p => writeElem sp r (n + p.1) lane p.2 acc) s
  | _ => writeRes sp r (resScaleOff r + 32 * n) bs s

/-- The operation of an entry given a cause or results. -/
def setOp (x : MatrixEntry) (f : OpRec → OpRec) (s : State) : State := modGroup s x.sid x.g (modOp x.op f)

/-- What an entry's turn comes to: it waits, its span is killed, or the new state with the entry started. -/
inductive TurnResult where
  | wait
  | kill
  | done (s : State)

/-- An entry that ends with a completion cause. -/
def turnFails (x : MatrixEntry) (c : Cause) (s : State) : TurnResult := .done (setOp x (fun o => { o with cause := some c }) s)

/-- What stops a source read at an entry's turn. -/
def turnStops (x : MatrixEntry) (t : Touch) (s : State) : TurnResult :=
  match t with
  | .ok _ => .done s
  | .wait _ => .wait
  | .fail c => turnFails x c s
  | .kill => .kill

/-- An OBLD at its turn. -/
def turnLoad (sp : Span) (x : MatrixEntry) (mode : Nat) (items : List (Nat × Nat × Nat)) (s : State) : TurnResult :=
  let r := spanRes sp x.res
  let touches := items.map fun i => turnTouch s sp i.2.1 (obldBytes mode r)
  match firstStop touches with
  | some t => turnStops x t s
  | none =>
    let s := (items.zip touches).foldl (fun acc p => obldLane sp r mode p.1.1 p.1.2.2 (readParts s (touchParts p.2)) acc) s
    .done (if resMode r = 1 then s else modSpan s x.sid (modRes x.res (resSetMode 1)))

/-- An OBLDT at its turn. -/
def turnCoded (sp : Span) (x : MatrixEntry) (entry : BitVec 128) (base : Nat) (s : State) : TurnResult :=
  let e := entry.toNat
  let r := spanRes sp x.res
  if bitsOf e 127 96 ≠ 0 then turnFails x (causeOf 5 0) s
  else if tileLines e = 0 then turnFails x (causeOf 5 18) s
  else
    match turnTouch s sp (base + 64 * tileOffset e) (64 * tileLines e) with
    | .ok ps =>
      let s := writeRes sp r 0 (readParts s ps) s
      .done (modSpan s x.sid (modRes x.res fun r =>
        let r := resSetMode 2 r
        { r with record := setField r.record 255 128 e, streamBase := BitVec.ofNat 57 base }))
    | t => turnStops x t s

/-- An MMA or MMAX at its turn: C_old and B are read, the results wait for the completion. -/
def turnMma (sp : Span) (x : MatrixEntry) (f : MmaForm) (a : List (List Word)) (scales : List Word) (c mode : Nat) (s : State) :
    TurnResult :=
  let m := mmaShape f
  let r := spanRes sp x.res
  if resMode r ≠ mode then turnFails x (causeOf 4 21) s
  else if resPoisoned s sp r 0 (1024 * resSize r) then .kill
  else
    match takeRows s sp r m with
    | .error cause => turnFails x cause s
    | .ok (rows, r') =>
      let g := (findGroup s x.sid x.g).getD noGroup
      let (ws, fl) := mmaResults m g c a scales rows
      .done (setOp x (fun o => { o with writes := ws, flags := fl }) (modSpan s x.sid (modRes x.res fun _ => r')))

/-- An entry at its turn; one that already has a cause only completes. -/
def turnEntry (x : MatrixEntry) (s : State) : TurnResult :=
  match findSpan s x.sid with
  | none => .done s
  | some sp =>
    let failed := (((findGroup s x.sid x.g).bind fun g => findOp g x.op).bind (·.cause)).isSome
    if failed then .done s
    else
      match x.kind with
      | .load mode items => turnLoad sp x mode items s
      | .loadCoded entry base => turnCoded sp x entry base s
      | .mma f a scales c mode => turnMma sp x f a scales c mode s

/-- MATRIX_ENTRY_START: the head of a pier's FIFO starts in the array; one that kills its span has failed, and makes no arrival (R16, R328, R331,
R335). -/
def startMatrix (pier : Nat) (s : State) : State :=
  match fifo s pier with
  | [] => s
  | x :: rest =>
    if x.started then s
    else
      match turnEntry x s with
      | .wait => s
      | .kill =>
        setFifo pier ({ x with started := true } :: rest)
          (killSpan x.sid (causeOf 11 25) (setOp x (fun o => { o with cause := some (causeOf 11 25) }) s))
      | .done s => setFifo pier ({ x with started := true } :: rest) s

/-- MATRIX_ENTRY_COMPLETE: the head's results are written, its flags merged, its arrival made, its counter lowered (R328). -/
def completeMatrix (pier : Nat) (s : State) : State :=
  match fifo s pier with
  | [] => s
  | x :: rest =>
    if !x.started then s
    else
      let failed := (((findGroup s x.sid x.g).bind fun g => findOp g x.op).bind (·.cause)).isSome
      let s := setFifo pier rest s
      match x.barrier with
      | none => completeOp x.sid x.g x.op s
      | some k =>
        if failed then engineFail x.sid k (completeOp x.sid x.g x.op) s else completeOp x.sid x.g x.op (engineArrive x.sid k s)

/-- MATRIX_ENTRY_START (R344). -/
def execMatrixEntryStart (pier : Nat) (s : State) : Host.Outcome State Fault Refusal := .next (startMatrix pier s)

/-- MATRIX_ENTRY_COMPLETE (R328). -/
def execMatrixEntryComplete (pier : Nat) (s : State) : Host.Outcome State Fault Refusal := .next (completeMatrix pier s)

end Sys2Proof.Machine
end

