-- ==== Sys2Proof/Machine/Element.lean ====
section
/-!
DEFINITION. Element stores that an engine makes at its turn, through a buffer record (R298 to R302): those of IVST and of the image unit.
-/

namespace Sys2Proof.Machine

/-- What storing an element comes to: what stops it, or the state and flags after it. -/
abbrev Stored := Except Touch (State × Flags)

/-- The pattern of a record in a launch (R300). -/
def launchPattern (la : Launch) (r : BitVec 320) : BitVec 2048 := (keyFind (bufPattern r) la.patterns).getD 0

/-- The block scale of an element, or what stops its read with a cause of source `src`. -/
def engineScale (s : State) (sp : Span) (src : Nat) (r : BitVec 320) (x y z : Nat) : Except Touch (Nat × List Touch) :=
  if bufEnc r = 2 then
    let t := touchMem s sp src .engineRead (scaleVa r x y z) 1
    match t with
    | .ok ps => .ok (bytesToNat (readParts s ps), [t])
    | t => .error t
  else .ok (127, [])

/-- A run of an element that an engine writes. An engine that merges narrow writes ends where the granule it reads is uncorrectable
(R419). -/
def engineRun (s : State) (sp : Span) (src : Nat) (merges : Bool) (run : ElemRun) : Touch :=
  match touchMem s sp src .engineWrite run.va run.len with
  | .ok ps => if merges && (run.va % 8 != 0 || run.len % 8 != 0) && partsPoisoned s ps then .fail (causeOf src 25) else .ok ps
  | t => t

/-- A part written by an engine for an operation, granule by granule (R90). -/
def enginePut (owner : Nat × Nat × Nat) (d : Nat) (whole : Bool) (p : Part) (bs : List Byte) (s : State) : State :=
  match p.at_ with
  | .mem key => if whole then writeMem key bs s else putGranules (some owner) (some d) none .mem key bs s
  | _ => writeParts [p] bs s

/-- Bytes written by an engine through their parts. -/
def enginePuts (owner : Nat × Nat × Nat) (d : Nat) (whole : Bool) : List Part → List Byte → State → State
  | [], _, s => s
  | p :: rest, bs, s => enginePuts owner d whole rest (bs.drop p.len) (enginePut owner d whole p (bs.take p.len) s)

/-- The channels of an element written through the parts of their runs, one run after another; an element in one granule, and what is merged
into a byte, at once (R90). -/
def engineRuns (owner : Nat × Nat × Nat) (d f : Nat) (whole : Bool) : List (ElemRun × Nat) → List Part → State → State
  | [], _, s => s
  | (r, code) :: rest, ps, s =>
    let n := (partsOf r.va r.len).length
    let mine := ps.take n
    engineRuns owner d f whole rest (ps.drop n) (enginePuts owner d whole mine (mergeRun f r code (readParts s mine)) s)

/-- An engine's store of one element at coordinates after the border mode, for an operation, with the draw that says which of its granules
are late (R90); `value` gives each channel's value. -/
def engineStore (s : State) (sp : Span) (owner : Nat × Nat × Nat) (d src : Nat) (merges : Bool) (r : BitVec 320) (release : Bool) (at_ : Texel)
    (value : Nat → Nat) : Stored :=
  match at_ with
  | .gone | .fault => .ok (s, noFlags)
  | .at x y z =>
    match engineScale s sp src r x y z with
    | .error t => .error t
    | .ok (bscale, t0) =>
      let pattern := ((findLaunch s sp.launch).map fun la => launchPattern la r).getD 0
      let (codes, fl) := storeCodes pattern r bscale x y z value
      let touches := codes.map fun c => engineRun s sp src merges c.1
      match firstStop touches with
      | some t => .error t
      | none =>
        let ps := (touches.map touchParts).flatten
        let s := noteTouch sp (spanCtx s sp) (t0 ++ touches) s
        let whole := !wholeBytes (bufFormat r) || !runWide (0, ps)
        .ok (recordLines (spanPier sp) release ps (engineRuns owner d (bufFormat r) whole codes ps s), fl)

/-- How a run of element stores ends: all are made, the last made has granules not yet performed, or one is stopped, at the depth plane or
not. -/
inductive RunEnd where
  | over
  | paused
  | stopped (depth : Bool) (t : Touch)
  deriving DecidableEq, Repr

/-- The value of channel `c` of a list of registers: a pair for .f64. -/
def listChannel (r : BitVec 320) (ws : List Word) (c : Nat) : Nat :=
  if bufFormat r = fmtF64 then ((ws[0]?).getD 0).toNat + 2 ^ 32 * ((ws[1]?).getD 0).toNat else ((ws[c]?).getD 0).toNat

end Sys2Proof.Machine
end

