-- ==== Sys2Proof/Machine/Interval.lean ====
section
/-!
DEFINITION. Interval registers (R385) and the IV instructions (R394, R399 to R402).
-/

namespace Sys2Proof.Machine

/-! ### The layout of an interval (R385) -/

/-- A word of an interval as a number. -/
def ivWord (ws : List Word) (k : Nat) : Nat := ((ws[k]?).getD 0).toNat

/-- Visibility and step masks. -/
def ivMask (ws : List Word) : Nat := ivWord ws 1 + 2 ^ 32 * ivWord ws 2
def ivSteps (ws : List Word) : Nat := ivWord ws 3 + 2 ^ 32 * ivWord ws 4

/-- First and last view, d sign, follower, x at the first view, sequence id. -/
def ivFirst (ws : List Word) : Nat := bitsOf (ivWord ws 0) 5 0
def ivLast (ws : List Word) : Nat := bitsOf (ivWord ws 0) 13 8
def ivFollower (ws : List Word) : Nat := bitsOf (ivWord ws 0) 14 14
def ivDsign (ws : List Word) : Nat := bitsOf (ivWord ws 0) 15 15
def ivX (ws : List Word) : Nat := bitsOf (ivWord ws 0) 31 16
def ivSeq (ws : List Word) : Nat := ivWord ws 5

/-- The empty interval. -/
def ivEmpty : List Word := [63, 0, 0, 0, 0, 0]

/-- The six words of an interval from its fields. -/
def ivOf (mask steps first last follower dsign x seq : Nat) : List Word :=
  [BitVec.ofNat 32 (first % 64 + 2 ^ 8 * (last % 64) + 2 ^ 14 * (follower % 2) + 2 ^ 15 * (dsign % 2) + 2 ^ 16 * (x % 2 ^ 16)),
    BitVec.ofNat 32 mask, BitVec.ofNat 32 (mask / 2 ^ 32), BitVec.ofNat 32 steps, BitVec.ofNat 32 (steps / 2 ^ 32), BitVec.ofNat 32 seq]

/-- The views of a mask, ascending. -/
def viewsOf (mask : Nat) : List Nat := (upTo 64).filter fun v => mask.testBit v

/-- The pixel of view `v`, a signed 16-bit value (R385, R399). -/
def ivPixel (ws : List Word) (v : Nat) : Int :=
  let f := ivFirst ws
  let n := (viewsOf (ivSteps ws)).filter fun k => decide (f ≤ k) && decide (k < v)
  let d : Int := n.length
  signedOf 16 (((ivX ws : Int) + (if ivDsign ws = 1 then -d else d)) % (2 ^ 16 : Nat)).toNat

/-- Word 0 with its reserved bits zero. -/
def ivClean (ws : List Word) : List Word :=
  match ws with
  | [] => []
  | w0 :: rest => (w0 &&& 0xFFFFFF3F) :: rest

/-- An interval given the views `mask`, then normalised (R399). -/
def ivNorm (ws : List Word) (mask : Nat) : List Word :=
  match viewsOf mask with
  | [] => ivEmpty
  | f :: rest =>
    let l := (rest.getLast?).getD f
    let steps := bitsOf (ivSteps ws) 63 0 % 2 ^ l / 2 ^ f * 2 ^ f
    ivOf mask steps f l (ivFollower ws) (ivDsign ws) ((ivPixel ws f) % (2 ^ 16 : Nat)).toNat (ivSeq ws)

/-- The distance |2v − ch| of a view from the reference. -/
def viewDistance (ch v : Nat) : Nat := if 2 * v < ch then ch - 2 * v else 2 * v - ch

/-- The view of a list nearest the reference, the earlier of two as near (R384, R401) (log 76, DEDUCED). -/
def nearestView (ch : Nat) : List Nat → Option Nat
  | [] => none
  | v :: rest =>
    match nearestView ch rest with
    | none => some v
    | some w => if viewDistance ch v ≤ viewDistance ch w then some v else some w

/-! ### The instructions (R399 to R402) -/

/-- The form of an IV instruction: RRI with an interval index as immediate. -/
def formIv (rd ra : FieldUse) : Form := { rd := rd, ra := ra, rb := .index 8, xp := .zero, u := .zero }

/-- The interval an IV word's immediate names, in a lane. -/
def ivSource (e : Enc) (g : Group) (lane : Nat) : List Word := readInterval g e.rb.toNat lane

/-- Each active lane rewritten, every source read before any destination is written. -/
def ivBody (e : Enc) (f : Group → Nat → Group → Group) (s : State) : State :=
  let g0 := curGroup s
  let lanes := laneList (actLanes e s)
  advance (wordLen e) (modCur s fun g => lanes.foldl (fun acc l => f g0 l acc) g)

/-- IVMOV (R400). -/
def execIvmov (e : Enc) (s : State) : Host.Outcome State Fault Refusal :=
  runForm (formIv (.reg 6 1) .unused) true e
    (ivBody e fun g0 l => writeVs e.rd.toNat l (ivClean (ivSource e g0 l))) s

/-- The six registers IVLD reads in a lane. -/
def ivLoadWords (e : Enc) (g : Group) (lane : Nat) : List Word := (upTo 6).map fun k => readV g (e.ra.toNat + k) lane

/-- Six words that IVLD refuses (R400). -/
def ivLoadBad (ws : List Word) : Bool :=
  ivMask ws != 0 &&
  (decide (ivLast ws < ivFirst ws) || (viewsOf (ivMask ws)).any fun v => decide (v < ivFirst ws) || decide (ivLast ws < v))

/-- IVLD (R400). -/
def execIvld (e : Enc) (s : State) : Host.Outcome State Fault Refusal :=
  runForm (formIv .unused (.reg 6 1)) true e (fun s =>
    let lanes := actLanes e s
    if (laneList lanes).any fun l => ivLoadBad (ivLoadWords e (curGroup s) l) then faultWith 7 0 lanes s
    else ivBody e (fun g0 l =>
      let ws := ivLoadWords e g0 l
      writeInterval e.rb.toNat l (if ivMask ws = 0 then ivEmpty else ivClean ws)) s) s

/-- IVREP (R401). -/
def execIvrep (e : Enc) (s : State) : Host.Outcome State Fault Refusal :=
  runForm (formIv (.reg 1 1) (.reg 1 1)) true e
    (ivBody e fun g0 l =>
      let ws := ivSource e g0 l
      writeV e.rd.toNat l
        (match nearestView ((readV g0 e.ra.toNat l).toNat % 128) (viewsOf (ivMask ws)) with
          | none => 0xFFFFFFFF
          | some v => BitVec.ofNat 32 (2 ^ 16 * ((ivPixel ws v) % (2 ^ 16 : Nat)).toNat + v))) s

/-- IVPOS (R401). -/
def execIvpos (e : Enc) (s : State) : Host.Outcome State Fault Refusal :=
  runForm (formIv (.reg 1 1) (.reg 1 1)) true e
    (ivBody e fun g0 l =>
      let ws := ivSource e g0 l
      let v := (readV g0 e.ra.toNat l).toNat % 64
      writeV e.rd.toNat l (if (ivMask ws).testBit v then BitVec.ofInt 32 (ivPixel ws v) else 0x80000000)) s

/-- IVCNT (R401). -/
def execIvcnt (e : Enc) (s : State) : Host.Outcome State Fault Refusal :=
  runForm (formIv (.reg 1 1) .unused) true e
    (ivBody e fun g0 l => writeV e.rd.toNat l (BitVec.ofNat 32 (viewsOf (ivMask (ivSource e g0 l))).length)) s

/-- IVMASK (R402). -/
def execIvmask (e : Enc) (s : State) : Host.Outcome State Fault Refusal :=
  runForm (formIv .unused (.reg 2 2)) true e
    (ivBody e fun g0 l =>
      let ws := ivSource e g0 l
      writeInterval e.rb.toNat l (ivNorm ws (ivMask ws &&& readWords (fun k => readV g0 k l) e.ra.toNat 2))) s

/-- IVSPLIT (R402). -/
def execIvsplit (e : Enc) (s : State) : Host.Outcome State Fault Refusal :=
  runForm (formIv (.index 8) (.reg 1 1)) (e.rd != e.rb) e
    (ivBody e fun g0 l g =>
      let ws := ivSource e g0 l
      let m := ivMask ws
      let lo := m % 2 ^ ((readV g0 e.ra.toNat l).toNat % 128)
      writeInterval e.rb.toNat l (ivNorm ws lo) (writeInterval e.rd.toNat l (ivNorm ws (m - lo)) g)) s

end Sys2Proof.Machine
end

