-- ==== Sys2Proof/Machine/Image.lean ====
section
/-!
DEFINITION. Symmetry: the walker's step, SYMQ, IMST and IMSTX, and the image unit (R411, R413 to R420).
-/

namespace Sys2Proof.Machine

/-! ### Elements (R411) -/

/-- The element-space image of a point. -/
def elementImage (sy : Symmetry) (el : SymElement) (p : List Nat) : List Nat := symMap el sy.extents el.shifts p

/-- The span-space image of a point. -/
def spanImage (la : Launch) (el : SymElement) (p : List Nat) : List Nat := symMap el (gridExtents la) el.spanShifts p

/-- A point lies within extents on every axis. -/
def insideOf (n : List Nat) (p : List Int) : Bool := (n.zip p).all fun x => decide (0 ≤ x.2) && decide (x.2 < (x.1 : Int))

/-! ### The walker (R413) -/

/-- The point of a linear index (R114). -/
def gridPoint (n : List Nat) (i : Nat) : List Nat :=
  let nx := (n[0]?).getD 1
  let ny := (n[1]?).getD 1
  [i % nx, i / nx % ny, i / nx / ny]

/-- The linear index of a point: the order (z, y, x) with z compared first. -/
def gridIndex (n p : List Nat) : Nat :=
  let nx := (n[0]?).getD 1
  let ny := (n[1]?).getD 1
  (((p[2]?).getD 0) * ny + (p[1]?).getD 0) * nx + (p[0]?).getD 0

/-- A span point is the least of its orbit. -/
def isLeast (la : Launch) (sy : Symmetry) (i : Nat) : Bool :=
  let n := gridExtents la
  sy.elements.all fun el => decide (i ≤ gridIndex n (spanImage la el (gridPoint n i)))

/-- WALKER_TEST_POINT: the next span point of a symmetry launch is tested. -/
def walkerStep (l : Nat) (s : State) : State :=
  match findLaunch s l with
  | none => s
  | some la =>
    match la.symmetry with
    | none => s
    | some sy =>
      if sy.next < (gridExtents la).foldl (· * ·) 1 && la.phase == .running then
        let sy' := { sy with
          next := sy.next + 1
          found := if isLeast la sy sy.next then sy.found ++ [sy.next] else sy.found }
        modLaunch s l fun la => { la with symmetry := some sy' }
      else s

/-- WALKER_TEST_POINT (R413). -/
def execWalkerTestPoint (l : Nat) (s : State) : Host.Outcome State Fault Refusal := .next (walkerStep l s)

/-! ### SYMQ (R418) -/

/-- What SYMQ writes for a point: the image and the status word. -/
def symqOf (la : Launch) (e : Nat) (spanSpace : Bool) (p : List Int) : List Word :=
  let els := match la.symmetry with
    | some sy => sy.elements
    | none => []
  let n : Option (List Nat) := if spanSpace then some (gridExtents la) else la.symmetry.map (·.extents)
  let order := max els.length 1
  let outside := match n with
    | some n => !insideOf n p
    | none => false
  let stay (bits : Nat) : List Word := p.map (BitVec.ofInt 32) ++ [BitVec.ofNat 32 bits]
  if order ≤ e || outside then stay ((if order ≤ e then 2 ^ 31 else 0) + (if outside then 2 ^ 30 else 0))
  else
    match n, els[e]? with
    | some n, some el =>
      let pn := p.map Int.toNat
      let image (x : SymElement) : List Nat := symMap x n (if spanSpace then x.spanShifts else x.shifts) pn
      let q := image el
      let dup := ((els.take e).drop 1).any fun x => image x == q
      q.map (BitVec.ofNat 32) ++
        [BitVec.ofNat 32 (el.t + (if e > 0 && q == pn then 2 ^ 6 else 0) + (if dup then 2 ^ 7 else 0))]
    | _, _ => stay 0

/-- SYMQ (R418). -/
def execSymq (e : Enc) (s : State) : Host.Outcome State Fault Refusal :=
  runForm { rd := .reg 4 4, ra := .reg 3 1, rb := .imm, xp := .layoutB } (decide (immRri e < 32)) e (fun s =>
    match curLaunch s with
    | none => s
    | some la =>
      let ask (g : Group) (lane : Nat) : List Word :=
        symqOf la (immRri e % 16) ((immRri e).testBit 4) ((upTo 3).map fun k => s32 (readLoc g lane (locAdd k (raLocB e))).toNat)
      let g0 := curGroup s
      let rd := e.rd.toNat
      advance (wordLen e) (modCur s fun g =>
        if e.u then (if qGuard e s then writeGs rd (ask g0 0) g else g)
        else (laneList (actLanes e s)).foldl (fun acc l => writeVs rd l (ask g0 l) acc) g)) s

/-! ### Value transforms (R416) -/

/-- A channel negated. -/
def negateChannel (r : BitVec 320) (w : Word) : Word := if formatInt (bufFormat r) then 0 - w else w ^^^ 0x80000000

/-- A value transform on the colour registers: bit 0 negates, bit 1 exchanges channels 0 and 1. -/
def transformColour (r : BitVec 320) (t : Nat) (ws : List Word) : List Word :=
  let ws := if t.testBit 0 then
      (if bufFormat r = fmtF64 then
        match ws with
        | lo :: hi :: rest => lo :: (hi ^^^ 0x80000000) :: rest
        | l => l
      else ws.map (negateChannel r))
    else ws
  if t.testBit 1 then
    match ws with
    | a :: b :: rest => b :: a :: rest
    | l => l
  else ws

/-- Some channel differs: floating channels as FCMP.ne compares them, integer channels by pattern. -/
def colourChanged (r : BitVec 320) (y x : List Word) : Bool :=
  if formatInt (bufFormat r) then y != x
  else
    let f := if bufFormat r = fmtF64 then fp64 else fp32
    let n := if bufFormat r = fmtF64 then 1 else bufChannels r
    (upTo n).any fun c => numCompare (floatValue f (listChannel r y c)) (floatValue f (listChannel r x c)) != some .eq

/-! ### IMST and IMSTX at issue (R414, R415, R419) -/

/-- The image unit queue of a pier. -/
def imageQueue (s : State) (pier : Nat) : List ImageEntry := (keyFind pier s.image).getD []

/-- The queue replaced. -/
def setImageQueue (pier : Nat) (q : List ImageEntry) (s : State) : State := { s with image := keySet pier q s.image }

/-- The elements an IMST ranges over, with their numbers: the identity alone outside a symmetry launch. -/
def imageElements (la : Launch) : List (Nat × Option SymElement) :=
  match la.symmetry with
  | none => [(0, none)]
  | some sy => (upTo sy.elements.length).zip (sy.elements.map some)

/-- A record a symmetry launch cannot write images through (8:24). -/
def imageRefused (la : Launch) (r : BitVec 320) : Bool :=
  match la.symmetry with
  | none => false
  | some sy =>
    bufEnc r == 4 ||
    (sy.elements.any (fun el => el.t.testBit 1) && (decide (bufChannels r < 2) || bufFormat r == fmtF64)) ||
    ([bufDimX r, bufDimY r, bufDimZ r].zip sy.extents).any fun x => decide (x.1 < x.2)

/-- The image of a lane's point under an element. -/
def imagePoint (la : Launch) (el : Option SymElement) (p : List Int) : List Int :=
  match la.symmetry, el with
  | some sy, some x => (elementImage sy x (p.map Int.toNat)).map Int.ofNat
  | _, _ => p

/-- A write of an image. -/
def imageWrite (q : List Int) (ws : List Word) : ImageWrite := ⟨(q[0]?).getD 0, (q[1]?).getD 0, (q[2]?).getD 0, ws⟩

/-- One element of a lane's list: the writes so far and whether a self-image has changed. -/
def imageElement (la : Launch) (r : BitVec 320) (mask : Nat) (p : List Int) (x : List Word) (acc : List ImageWrite × Bool)
    (el : Nat × Option SymElement) : List ImageWrite × Bool :=
  let q := imagePoint la el.2 p
  let y := transformColour r ((el.2.map (·.t)).getD 0) x
  let w := imageWrite q y
  if el.1 > 0 && q == p then (acc.1, acc.2 || colourChanged r y x)
  else if mask.testBit el.1 && !(acc.1.any fun v => v.x == w.x && v.y == w.y && v.z == w.z) then (acc.1 ++ [w], acc.2)
  else acc

/-- A lane's list of writes (R415). -/
def imageList (la : Launch) (r : BitVec 320) (mask : Nat) (p : List Int) (x : List Word) : List ImageWrite × Bool :=
  (imageElements la).foldl (imageElement la r mask p x) ([], false)

/-- The coordinates of a lane. -/
def imagePointOf (e : Enc) (g : Group) (lane : Nat) : List Int := (upTo 3).map fun k => s32 (coordAt g e lane k)

/-- The element an image write names after the border mode. -/
def imageTexel (r : BitVec 320) (w : ImageWrite) : Texel := borderAll r true w.x w.y w.z

/-- The parts of a write at issue. -/
def imageParts (s : State) (r : BitVec 320) (w : ImageWrite) : List Part :=
  match imageTexel r w with
  | .at x y z =>
    (if bufEnc r = 2 then curRun s .load (scaleVa r x y z) 1 else []) ++
      runParts s .store ((storeRuns (curPattern s r) r x y z).map (·.2))
  | _ => []

/-- IMST or IMSTX, `mask` giving each lane's elements (log 44, DEDUCED). -/
def imageBody (e : Enc) (mask : Group → Nat → Nat) (s : State) : State :=
  let lanes := actLanes e s
  let g := curGroup s
  match curRecord s e.rb.toNat, curLaunch s with
  | some r, some la =>
    let ls := laneList lanes
    let points := ls.map (imagePointOf e g)
    let colour (l : Nat) : List Word := (upTo (elemRegs r)).map fun c => readLoc g l (locAdd c (rdLoc e))
    let lists := (ls.zip points).map fun p => (p.1, imageList la r (mask g p.1) p.2 (colour p.1))
    let writes := (lists.map fun x => x.2.1).flatten
    let outside := match la.symmetry with
      | none => false
      | some sy => points.any fun p => !insideOf sy.extents p
    if bufReadOnly r || bufEnc r = 3 then faultWith 3 7 lanes s
    else if imageRefused la r then faultWith 8 24 lanes s
    else if outside then faultWith 8 5 lanes s
    else if writes.any fun w => imageTexel r w == .fault then faultWith 3 5 lanes s
    else if counter g .im = 63 || 64 ≤ (imageQueue s (curPier s)).length then s
    else
      wholeIssue lanes false (fun s => lists.map fun x => (x.1, (x.2.1.map (imageParts s r)).flatten)) (fun s =>
        let pier := curPier s
        let id := (curGroup s).opCount
        let fl := flagIf (lists.any fun x => x.2.2) flagSYMC
        let release := memOrder e == 2 && decide (memScope e ≤ 1)
        let x : ImageEntry := ⟨curSid s, curNum s, id, e.rb.toNat, release, writes, 0, fl⟩
        let s := modCur s (issueOp .im .engine lanes)
        advance (wordLen e) (setImageQueue pier (imageQueue s pier ++ [x]) s)) s
  | _, _ => s

/-- IMST (R414, R415). -/
def execImst (e : Enc) (s : State) : Host.Outcome State Fault Refusal :=
  runForm (formRecord false [0, 2] e s) (!memRp e) e (imageBody e fun _ _ => 0xFFFF) s

/-- IMSTX (R414, R415): the mask is vm[15:0]. -/
def execImstx (e : Enc) (s : State) : Host.Outcome State Fault Refusal :=
  runForm { formRecord false [0, 2] e s with rc := .always } (!memRp e) e
    (imageBody e fun g lane => (readLoc g lane (rcLoc e)).toNat % 2 ^ 16) s

/-! ### The image unit (R417, R419) -/

/-- The writes of an entry made in element order until one is not yet performed or one stops: how many are made, their flags, and the end
(R90, R94). -/
def imageRun (sp : Span) (owner : Nat × Nat × Nat) (d : Nat) (r : BitVec 320) (release : Bool) :
    List ImageWrite → Nat → Flags → State → State × Flags × Nat × RunEnd
  | [], n, fl, s => (s, fl, n, .over)
  | w :: rest, n, fl, s =>
    match engineStore s sp owner d 8 true r release (imageTexel r w) (listChannel r w.regs) with
    | .ok (s, f) =>
      if hasLate owner s then (s, fl ||| f, n + 1, .paused) else imageRun sp owner d r release rest (n + 1) (fl ||| f) s
    | .error t => (s, fl, n, .stopped false t)

/-- The entries of a span wait for RTE after a completion cause (R419) (log 44, DEDUCED). -/
def imageHeld (s : State) (x : ImageEntry) : Bool :=
  ((findSpan s x.sid).map fun sp => isBlocked sp 5 && sp.killed.isNone).getD false

/-- An entry of a pier's queue removed. -/
def dropImage (pier : Nat) (x : ImageEntry) (s : State) : State :=
  setImageQueue pier ((imageQueue s pier).filter fun y => !(y.sid == x.sid && y.g == x.g && y.op == x.op)) s

/-- An entry rewritten. -/
def modImage (pier : Nat) (x x' : ImageEntry) (s : State) : State :=
  setImageQueue pier ((imageQueue s pier).map fun y => if y.sid == x.sid && y.g == x.g && y.op == x.op then x' else y) s

/-- IMAGE_ENTRY_COMPLETE: the first entry whose span does not wait is performed, and completes once every granule of its writes is. An
entry held when its span was killed completes with no access (log 44, DEDUCED). -/
def imageStep (pier : Nat) (s : State) : State :=
  match (imageQueue s pier).find? fun x => !imageHeld s x with
  | none => s
  | some x =>
    match findSpan s x.sid with
    | none => dropImage pier x s
    | some sp =>
      if isBlocked sp 5 then completeOp x.sid x.g x.op (dropImage pier x s)
      else
        let r := ((findLaunch s sp.launch).bind fun la => la.buffers[x.buf]?).getD 0
        let owner := (x.sid, x.g, x.op)
        let (d, s) := draw (settleWrites (lateOfOp owner) s)
        let (s, fl, n, stop) := imageRun sp owner d r x.release (x.writes.drop x.done) x.done x.flags s
        let stays (s : State) : State := modImage pier x { x with done := n, flags := fl } s
        let ends (cause : Option Cause) (s : State) : State :=
          completeOp x.sid x.g x.op (modGroup (dropImage pier x s) x.sid x.g
            (modOp x.op fun o => { o with flags := fl, cause := cause.orElse fun _ => o.cause, block := (cause.map fun _ => 5).orElse fun _ => o.block }))
        match stop with
        | .paused => stays s
        | .over => ends none s
        | .stopped _ t =>
          match turnTouchOf s (.image pier) 8 t with
          | .wait p => waitAt (.image pier) (stays s) sp p
          | .fail c => ends (some c) (endWaits (.image pier) s)
          | _ => ends none s

/-- IMAGE_ENTRY_COMPLETE (R417). -/
def execImageEntryComplete (pier : Nat) (s : State) : Host.Outcome State Fault Refusal := .next (imageStep pier s)

end Sys2Proof.Machine
end

