-- ==== Sys2Proof/Machine/Keystone.lean ====
section
/-!
DEFINITION. The keystone and the power manager: registers without a row of their own, the event ring, boot and resets, attestation,
thermal limits and the power refresh (R239, R243, R258, R278, R428, R429, R431, R434 to R437).
-/

namespace Sys2Proof.Machine

/-! ### Registers (R239, R243, R258, R278, R428, R431) -/

/-- A front-end register rewritten. -/
def modFe (f : FrontEnd → FrontEnd) (s : State) : State := { s with fe := f s.fe }

/-- FMODE: a reserved bit set ignores the write (R239). -/
def writeFmode (v : Nat) (s : State) : State :=
  if bitsOf v 63 6 ≠ 0 then s else modFe (fun fe => { fe with fmode := BitVec.ofNat 64 v }) s

/-- POWCAP: the module's draw [31:16] is read-only (R243). -/
def writePowcap (v : Nat) (s : State) : State :=
  let kept := bitsOf s.fe.powcap.toNat 31 16
  modFe (fun fe => { fe with powcap := BitVec.ofNat 64 (2 ^ 32 * bitsOf v 63 32 + 2 ^ 16 * kept + bitsOf v 15 0) }) s

/-- A span holds a context area from its placement until it is gone (R259). -/
def holdsArea (sp : Span) : Bool := sp.areaSize != 0 && sp.place != .gone

/-- CTXPOOL: ignored where misaligned, or while a span holds an area (R258). -/
def writeCtxpool (v : BitVec 128) (s : State) : State :=
  if bitsOf v.toNat 127 64 % 4096 ≠ 0 || bitsOf v.toNat 63 0 % 4096 ≠ 0 || s.spans.any fun p => holdsArea p.2 then s
  else modFe (fun fe => { fe with ctxpool := v }) s

/-- CTXTAB: ignored where misaligned, with a reserved bit set, or with tier 2 or 3 (R278). -/
def writeCtxtab (v : Nat) (s : State) : State :=
  if bitsOf v 13 2 ≠ 0 || 2 ≤ v % 4 then s else { s with vm := { s.vm with ctxtab := BitVec.ofNat 64 v } }

/-- QCTX of a queue: the context of its packets (R270, R278). -/
def writeQctx (q v : Nat) (s : State) : State :=
  if bitsOf v 63 8 ≠ 0 then s else { s with vm := { s.vm with qctx := cellSet 0 s.vm.qctx q (BitVec.ofNat 64 v) } }

/-- PMHEAD: ignored with a reserved bit set (R428). -/
def writePmhead (v : Nat) (s : State) : State :=
  if bitsOf v 63 16 ≠ 0 || (upTo 4).any fun d => v.testBit (4 * d + 3) then s
  else { s with outside := { s.outside with pmhead := BitVec.ofNat 64 v } }

/-- EXPCTX: ignored with a reserved bit set (R431) (log 23, DEDUCED). -/
def writeExpctx (v : Nat) (s : State) : State :=
  if bitsOf v 63 9 ≠ 0 then s else { s with outside := { s.outside with expctx := BitVec.ofNat 16 v } }

/-- Vectors of the function (R427). -/
def msixVectors : Nat := 131

/-- An entry of the MSI-X table, 16 bytes a vector: it holds what is written (R426, R427) (log 87, DESIGN CHOICE). -/
def writeMsix (v : Nat) (x : BitVec 128) (s : State) : State :=
  if v < msixVectors then { s with outside := { s.outside with msixTable := cellSet 0 s.outside.msixTable v x } } else s

/-- A write to a privileged register by its offset in BAR0; the read-only registers and the MSI-X pending-bit array, from 0x18_0000 on, ignore
it, and a register with a row of its own has its own step (R426) (log 87, DESIGN CHOICE). -/
def registerWrite (offset : Nat) (v : BitVec 128) (s : State) : State :=
  let n := v.toNat % 2 ^ 64
  if offset = 0x0 then writeFmode n s
  else if offset = 0x8 then writePowcap n s
  else if offset = 0x18 then writeCtxpool v s
  else if offset = 0x40 then writeCtxtab n s
  else if 0x30000 ≤ offset ∧ offset < 0x38000 ∧ offset % 8 = 0 then writeQctx ((offset - 0x30000) / 8) n s
  else if offset = 0x40000 then writePmhead n s
  else if offset = 0x50010 then writeExpctx n s
  else if 0x100000 ≤ offset ∧ offset < 0x180000 ∧ offset % 16 = 0 then writeMsix ((offset - 0x100000) / 16) v s
  else s

/-- PRIVILEGED_REGISTER_WRITE (R278). -/
def execPrivilegedRegisterWrite (offset : Nat) (v : BitVec 128) (s : State) : Host.Outcome State Fault Refusal :=
  .next (registerWrite offset v s)

/-- EVQ_WRITE: a change of ring or size restarts the sequence; held events are written while the ring has room (R429) (log 23, DEDUCED). -/
def evqWrite (v : BitVec 128) (s : State) : State :=
  let n := v.toNat
  if bitsOf n 95 68 ≠ 0 || bitsOf n 11 0 ≠ 0 then s
  else
    let same := bitsOf n 67 12 == bitsOf s.outside.evq.toNat 67 12
    let s := { s with outside := { s.outside with evq := v, eventSeq := if same then s.outside.eventSeq else 0 } }
    if ringBase v = 0 then s else flushEvents s.outside.eventsHeld s

/-- EVQ_WRITE (R429). -/
def execEvqWrite (v : BitVec 128) (s : State) : Host.Outcome State Fault Refusal := .next (evqWrite v s)

/-! ### Boot and resets (R434, R437) -/

/-- A firmware image as the boot ROM sees it: bit 0 says that both signatures verify; the rest is the security version. It runs when it
verifies and its version is at least the fused one (R434) (log 40, DESIGN CHOICE). -/
def imageRuns (s : State) (image : Nat) : Bool := image % 2 == 1 && decide (s.outside.fusedVersion ≤ image / 2)

/-- HBMCAP of a stack without the layers that are mapped out (R437). -/
def bootCap (excluded : List (Nat × Nat)) (stack : Nat) : BitVec 64 :=
  let out := (upTo 16).filter fun l => excluded.contains (stack, l)
  BitVec.ofNat 64 (out.foldl (fun acc l => acc - 2 ^ l - 2 ^ 16) 0x10FFFF)

/-- The part as a reset leaves it: front end, queues, contexts and piers in reset state; what the keystone keeps is in `out` (R437)
(log 22, DESIGN CHOICE). -/
def resetParts (out : Outside) (s : State) : State :=
  { State.reset with
    vm := { Vm.reset with hbmcap := (upTo 8).map (bootCap out.excluded) }
    outside := out
    time := s.time
    fresh := s.fresh
    agenda := s.agenda
    turn := s.turn }

/-- The boot ROM tries flash slot A, then slot B; if both fail the part enters recovery (R434) (log 22, DESIGN CHOICE). -/
def bootRom (s : State) (out : Outside) : Outside :=
  if imageRuns s out.flashA then { out with boot := .running, image := out.flashA }
  else if imageRuns s out.flashB then { out with boot := .running, image := out.flashB }
  else { out with boot := .recovery }

/-- A stack trained: its results, which the spec leaves open, are in force and stored with its serial number and its present mask (R437)
(log 22, DESIGN CHOICE). -/
def trainStack (k : Nat) (s : State) : State :=
  let (n, s) := draw s
  let results := Sys2Proof.Config.freeWord n
  let serial := (s.outside.serials[k]?).getD 0
  let present := BitVec.ofNat 16 ((s.vm.hbmcap[k]?).getD 0).toNat
  { s with outside := { s.outside with
    stored := listSet (fun _ => ⟨serial, present, results⟩) k s.outside.stored
    trained := listSet (fun _ => results) k s.outside.trained
    retrained := listSet (fun _ => true) k s.outside.retrained } }

/-- A stack with its stored results restored (R437). -/
def restoreStack (k : Nat) (s : State) : State :=
  let results := ((s.outside.stored[k]?).map (·.results)).getD 0
  { s with outside := { s.outside with
    trained := listSet (fun _ => results) k s.outside.trained
    retrained := listSet (fun _ => false) k s.outside.retrained } }

/-- The stacks brought up: those picked are trained, the others have their stored results restored (R437). -/
def bringUp (pick : Nat → Bool) (s : State) : State :=
  (upTo 8).foldl (fun acc k => if pick k then trainStack k acc else restoreStack k acc) s

/-- COLD_BOOT with the images found in slots A and B: one of them runs, or the part enters recovery; the pod id is assigned, which the switch
fabric's enumeration leaves open; every interface is trained; memory holds nothing (R430, R434, R437) (log 22, DESIGN CHOICE) (log 40, DESIGN
CHOICE). -/
def coldBoot (a b : Nat) (s : State) : State :=
  let (n, s) := draw s
  let o := s.outside
  let out := { Outside.reset with
    podId := (Sys2Proof.Config.freeWord n).toNat % 512
    flashA := a
    flashB := b
    fusedVersion := o.fusedVersion
    excluded := o.excluded
    serials := o.serials
    stored := o.stored
    lmsLeft := o.lmsLeft
    reports := o.reports
    refused := o.refused
    hostErrors := o.hostErrors }
  bringUp (fun _ => true) (resetParts (bootRom s out) s)

/-- COLD_BOOT (R434, R437). -/
def execColdBoot (slotA slotB : Nat) (s : State) : Host.Outcome State Fault Refusal := .next (coldBoot slotA slotB s)

/-- RECOVERY_IMAGE: in recovery, an image from the mailbox runs when it verifies (R434) (log 40, DESIGN CHOICE). -/
def execRecoveryImage (image : Nat) (s : State) : Host.Outcome State Fault Refusal :=
  .next (if s.outside.boot = .recovery && imageRuns s image then
    { s with outside := { s.outside with boot := .running, image := image } } else s)

/-- The stored serial number of a stack differs from the fitted one's (R437). -/
def serialDiffers (o : Outside) (k : Nat) : Bool := (o.stored[k]?).map (·.serial) != o.serials[k]?

/-- What a warm reset leaves: the training results are restored, but of a stack whose pattern read-back fails, bit s of `checks`, or whose
stored serial number differs, which is trained again; memory contents stay, the granules of the host's writes that are late with them (R437)
(log 22, DESIGN CHOICE). -/
def warmReset (checks : BitVec 8) (s : State) : State :=
  let s := settleHost s
  let r := resetParts { s.outside with ingressHeld := [], hostHeld := [] } s
  bringUp (fun k => checks.getLsbD k || serialDiffers s.outside k) { r with mem := s.mem, peer := s.peer, poison := s.poison }

/-- WARM_RESET: the boot ROM verifies the images in flash again (R434, R437); no effect while the part is held in reset (R436) (log 22, DESIGN CHOICE). -/
def execWarmReset (checks : BitVec 8) (s : State) : Host.Outcome State Fault Refusal :=
  .next (if s.outside.boot = .heldInReset then s
    else
      let r := warmReset checks { s with outside := bootRom s s.outside }
      serveHeld { r with outside := { r.outside with ingressHeld := s.outside.ingressHeld, hostHeld := s.outside.hostHeld } })

/-- MAPPED_OUT_LAYER_CLEAR: the layer comes back at the next reset (R437). -/
def execMappedOutLayerClear (stack layer : Nat) (s : State) : Host.Outcome State Fault Refusal :=
  .next { s with outside := { s.outside with excluded := s.outside.excluded.filter fun x => x ≠ (stack, layer) } }

/-! ### Attestation (R435) -/

/-- SPDM_REQUEST: a measurement report signed with one leaf of the LMS tree, or an error once the tree is exhausted. -/
def spdmRequest (request : Nat) (s : State) : State :=
  let o := s.outside
  if o.lmsLeft = 0 then { s with outside := { o with refused := o.refused + 1 } }
  else
    { s with outside := { o with
      lmsLeft := o.lmsLeft - 1
      reports := o.reports ++ [(request, Sys2Proof.Config.report request o.reports.length)] } }

/-- SPDM_REQUEST (R435). -/
def execSpdmRequest (request : Nat) (s : State) : Host.Outcome State Fault Refusal := .next (spdmRequest request s)

/-! ### Power and heat (R243, R436) -/

/-- THERMAL_THROTTLE: a die above 105 °C has its issue slots withheld; at or below it has them back (R3, R436) (log 24, DESIGN CHOICE). -/
def execThermalThrottle (die : Nat) (above : Bool) (s : State) : Host.Outcome State Fault Refusal :=
  .next { s with outside := { s.outside with throttled := listSet (fun _ => above) die s.outside.throttled } }

/-- THERMAL_TRIP: every die stops, the trip event is posted, and the part is held in reset (R436) (log 22, DESIGN CHOICE). -/
def execThermalTrip (die : Nat) (s : State) : Host.Outcome State Fault Refusal :=
  .next (
    let s := postEvent 4 (die % 4 + 4) s
    let r := warmReset 0 s
    { r with outside := { r.outside with boot := .heldInReset } })

/-- The headroom class of a die from its draw, its share weight and the sum of the weights (R243). -/
def headroomClass (draw u sum cap : Nat) : Nat :=
  if u * cap = 0 then 0
  else min 7 ((8 * u * cap - 8 * draw * sum) / (u * cap))

/-- Share weights, all one where every one is 0. -/
def shareWeights (powcap : BitVec 64) : List Nat :=
  let us := (upTo 4).map fun d => bitsOf powcap.toNat (32 + 8 * d + 7) (32 + 8 * d)
  if us.sum = 0 then [1, 1, 1, 1] else us

/-- The power cap in watts. -/
def capWatts (powcap : BitVec 64) : Nat :=
  let c := bitsOf powcap.toNat 15 0
  if c = 0 then 2100 else min c 2100

/-- POWER_REFRESH: the draws of the interval and the headroom classes they give, or those the host supplies (R243, R244, R428)
(log 24, DESIGN CHOICE). -/
def powerRefresh (s : State) : State :=
  let (n, s) := draw s
  let ps := (upTo 4).map fun d => (Sys2Proof.Config.draw d n).toNat
  let us := shareWeights s.fe.powcap
  let cap := capWatts s.fe.powcap
  let hs := (us.zip ps).map fun x => headroomClass x.2 x.1 us.sum cap
  let host := (upTo 4).map fun d => bitsOf s.outside.pmhead.toNat (4 * d + 2) (4 * d)
  let pm := ((upTo 4).zip ps).foldl (fun acc x => acc + 2 ^ (16 * x.1) * x.2) 0
  let pow := s.fe.powcap.toNat
  { s with
    fe := { s.fe with
      headroom := if hwMode s 5 then hs else host
      powcap := BitVec.ofNat 64 (pow - 2 ^ 16 * bitsOf pow 31 16 + 2 ^ 16 * (ps.sum % 2 ^ 16)) }
    outside := { s.outside with pmdraw := BitVec.ofNat 64 pm } }

/-- POWER_REFRESH (R243). -/
def execPowerRefresh (s : State) : Host.Outcome State Fault Refusal := .next (powerRefresh s)

end Sys2Proof.Machine
end

