-- ==== Sys2Proof/Machine/Spans.lean ====
section
/-!
DEFINITION. Spans as a whole: queue slots and their interrupts, what a pier holds, starting a span, completions of the load-store path,
entering the handler, exits, kills and relaunch (R13, R117, R118, R182, R198, R217 to R224, R240, R246 to R248, R259, R267).
-/

namespace Sys2Proof.Machine

/-! ### Queue slots and host queues (R229, R240) -/

/-- A hardware queue slot. -/
def findSlot (s : State) (n : Nat) : Slot := (keyFind n s.fe.slots).getD Slot.reset

/-- A slot rewritten. -/
def modSlot (n : Nat) (f : Slot → Slot) (s : State) : State :=
  modFe (fun fe => { fe with slots := keySet n (f (findSlot s n)) fe.slots }) s

/-- A host queue. -/
def findQueue (s : State) (q : Nat) : Queue := (keyFind q s.fe.queues).getD Queue.reset

/-- A host queue rewritten. -/
def modHostQueue (q : Nat) (f : Queue → Queue) (s : State) : State :=
  modFe (fun fe => { fe with queues := keySet q (f (findQueue s q)) fe.queues }) s

/-- SLOTB's fields (R240). -/
def slotQueue (sl : Slot) : Nat := bitsOf sl.slotb.toNat 11 0
def slotBound (sl : Slot) : Bool := sl.slotb.getLsbD 12
def slotHold (sl : Slot) : Bool := sl.slotb.getLsbD 13

/-- A slot's interrupt cause bit set, with the cause field for a fault; its vector fires where the bit was clear (R240, R427). A later fault's
cause replaces that of an earlier one whose bit is still set, which the spec leaves open (log 89, DESIGN CHOICE). -/
def setSloti (n bit : Nat) (cause : Option Cause) (s : State) : State :=
  let old := (findSlot s n).sloti.toNat
  let kept := match cause with
    | none => bitsOf old 40 32
    | some c => c.toNat
  let new := 2 ^ 32 * kept + (old % 16 ||| 2 ^ bit)
  let s' := modSlot n (fun sl => { sl with sloti := BitVec.ofNat 64 new }) s
  if old.testBit bit then s' else fireVector (n + 1) s'

/-- The slot a queue is bound to. -/
def queueSlot (s : State) (q : Nat) : Option Nat :=
  (s.fe.slots.find? fun p => slotBound p.2 && slotQueue p.2 == q).map (·.1)

/-! ### What a pier holds (R117) -/

/-- The resources one span draws. -/
structure Shape where
  groups : Nat
  regs : Nat
  units : Nat
  tags : Nat
  granules : Nat
  deriving DecidableEq, Repr

/-- The shape of a bay's spans. -/
def bayShape (b : Bay) : Shape := ⟨b.groups, b.regs, (b.deckBytes + 4095) / 4096, b.tags, b.granules⟩

/-- What is drawn of a pier: spans, slots and group-registers by quadrant, deck units, tag entries, granules. -/
structure Usage where
  spans : Nat
  slots : List Nat
  regs : List Nat
  units : Nat
  tags : Nat
  granules : Nat
  deriving DecidableEq, Repr

/-- An empty pier. -/
def Usage.none : Usage := ⟨0, [0, 0, 0, 0], [0, 0, 0, 0], 0, 0, 0⟩

/-- The spans on a pier, placed or running. -/
def pierSpans (s : State) (p : Nat) : List (Nat × Span) := s.spans.filter fun x => placePier x.2.place == some p

/-- The groups on a pier that hold their slot. -/
def pierGroups (s : State) (p : Nat) : List Group :=
  ((pierSpans s p).map fun x => x.2.groups.filter fun g => !g.freed).flatten

/-- What the spans of a pier draw. -/
def pierUsage (s : State) (p : Nat) : Usage :=
  let sps := (pierSpans s p).map (·.2)
  let gs := pierGroups s p
  let quad (k : Nat) : List Group := gs.filter fun g => g.slot % 4 == k
  { spans := sps.length
    slots := (upTo 4).map fun k => (quad k).length
    regs := (upTo 4).map fun k => ((quad k).map (·.alloc)).sum
    units := (sps.map fun sp => sp.deckUnits.length).sum
    tags := (sps.map fun sp => sp.tags.length).sum
    granules := (sps.map fun sp => sp.granules.length).sum }

/-- Groups of a span that land in quadrant `k` with starting quadrant `b`. -/
def quadGroups (groups b k : Nat) : Nat := ((upTo groups).filter fun i => (b + i) % 4 == k).length

/-- A span of a shape fits a pier with starting quadrant `b`. -/
def fitsAt (u : Usage) (sh : Shape) (b : Nat) : Bool :=
  decide (u.spans + 1 ≤ 64) && decide (u.units + sh.units ≤ 256) && decide (u.tags + sh.tags ≤ 1024) &&
  decide (u.granules + sh.granules ≤ 256) &&
  (upTo 4).all fun k =>
    let n := quadGroups sh.groups b k
    decide ((u.slots[k]?).getD 0 + n ≤ 64) && decide ((u.regs[k]?).getD 0 + n * sh.regs ≤ 4096)

/-- The starting quadrant for a span: of those that fit, the one with the most free slots, the lowest on a tie (R117 leaves it open, log 3)
(log 32, DESIGN CHOICE). -/
def fitQuadrant (u : Usage) (sh : Shape) : Option Nat :=
  (upTo 4).foldl (fun (best : Option Nat) b =>
    if fitsAt u sh b then
      match best with
      | none => some b
      | some a => if (u.slots[b]?).getD 0 < (u.slots[a]?).getD 0 then some b else some a
    else best) none

/-- The usage with one more span. -/
def addUsage (u : Usage) (sh : Shape) (b : Nat) : Usage :=
  { spans := u.spans + 1
    slots := (upTo 4).map fun k => (u.slots[k]?).getD 0 + quadGroups sh.groups b k
    regs := (upTo 4).map fun k => (u.regs[k]?).getD 0 + quadGroups sh.groups b k * sh.regs
    units := u.units + sh.units
    tags := u.tags + sh.tags
    granules := u.granules + sh.granules }

/-- Free group slots of a pier. -/
def usageFree (u : Usage) : Nat := 256 - u.slots.sum

/-- The pier of a die for a span: of those it fits, the one with the most free group slots, ties to the lower number (R246). -/
def choosePier (s : State) (die : Nat) (sh : Shape) : Option (Nat × Nat) :=
  (upTo 64).foldl (fun (best : Option (Nat × Nat)) i =>
    let p := 64 * die + i
    let u := pierUsage s p
    match fitQuadrant u sh with
    | none => best
    | some b =>
      match best with
      | none => some (p, b)
      | some (q, c) => if usageFree (pierUsage s q) < usageFree u then some (p, b) else some (q, c)) none

/-- Numbers below `n` that a list does not hold, ascending (log 32, DESIGN CHOICE). -/
def freeNumbers (n : Nat) (used : List Nat) : List Nat := (upTo n).filter fun i => !used.contains i

/-- The slots of a new span's groups: the lowest free ones of each group's quadrant (log 32, DESIGN CHOICE). -/
def takeSlots (b : Nat) : Nat → List Nat → List Nat
  | 0, _ => []
  | n + 1, free =>
    match free.find? fun k => k % 4 == b % 4 with
    | none => []
    | some k => k :: takeSlots (b + 1) n (free.filter (· ≠ k))

/-! ### Context areas (R259) -/

/-- Bytes of a span's context area. -/
def areaBytes (sh : Shape) : Nat :=
  let n := 7744 + 4096 * sh.units + 1024 * sh.granules + 8 * sh.tags + 65536 + sh.groups * (10752 + 128 * sh.regs) + sh.groups * 32768
  (n + 4095) / 4096 * 4096

/-- The areas held, base and size. -/
def heldAreas (s : State) : List (Nat × Nat) :=
  (s.spans.filter fun p => holdsArea p.2).map fun p => (p.2.areaBase, p.2.areaSize)

/-- The lowest base of the pool at which an area of `n` bytes meets no other (log 11, DESIGN CHOICE) (log 32, DESIGN CHOICE). -/
def findArea (s : State) (n : Nat) : Option Nat :=
  let base := bitsOf s.fe.ctxpool.toNat 63 0
  let size := bitsOf s.fe.ctxpool.toNat 127 64
  let held := heldAreas s
  let tries := base :: held.map fun a => a.1 + a.2
  let ok := tries.filter fun a => decide (base ≤ a) && decide (a + n ≤ base + size) && held.all fun h => !runsMeet a n h.1 h.2
  ok.foldl (fun (best : Option Nat) a =>
    match best with
    | none => some a
    | some b => some (min a b)) none

/-! ### Starting a span (R118, R183, R198, R246) -/

/-- Deck units that pass to another address-space context are written to 0 first (R198) (log 4, DESIGN CHOICE). -/
def passUnits (pier ctx : Nat) (units : List Nat) (s : State) : State :=
  units.foldl (fun acc u =>
    let n := 256 * pier + u
    let last := (cellGet 0 acc.deckCtx n).toNat
    let key := deckKey pier (4096 * u)
    let acc :=
      if last = 0 || last = ctx + 1 then acc
      else
        { acc with
          deck := acc.deck.filter fun c => !(decide (key ≤ c.1) && decide (c.1 < key + 4096))
          deckPoison := acc.deckPoison.filter fun c => !(decide (key / 8 ≤ c.1) && decide (c.1 < key / 8 + 512)) }
    { acc with deckCtx := cellSet 0 acc.deckCtx n (BitVec.ofNat 9 (ctx + 1)) }) s

/-- The groups of a span at its start. -/
def startGroups (b : Bay) (slots : List Nat) : List Group :=
  ((upTo b.groups).zip slots).map fun p => Group.start p.1 p.2 b.regs b.entry

/-- The parts of a span that start anew, at the first placement and at a relaunch (R118). -/
def startParts (b : Bay) (slots : List Nat) (sp : Span) : Span :=
  { sp with
    groups := startGroups b slots
    barriers := List.replicate 16 Barrier.reset
    tables := List.replicate 8 none
    reservations := List.replicate 16 ⟨0, 0⟩
    tags := List.replicate b.tags ⟨false, 0, 0⟩
    tagClock := 0
    queues := [[], [], [], []]
    raster := none
    prims := []
    blocked := []
    marked := false
    timedOut := false
    byHost := false
    trap := none
    handler := none
    held := []
    killed := none
    killedAt := 0
    children := [] }

/-- Members of a span set of a launch (R233). -/
def setSize (la : Launch) : Nat := bitsOf (recField la.record 35 32) 5 3 + 1

/-- The co-resident and idempotent flags. -/
def coResident (la : Launch) : Bool := bitsOf (recField la.record 35 32) 1 1 = 1
def idempotent (la : Launch) : Bool := bitsOf (recField la.record 35 32) 0 0 = 1

/-- A new span, placed on a pier and not started. -/
def newSpan (la : Launch) (x : BatchSpan) (b : Bay) (pier quad since area areaSize : Nat) (units granules freeSlots : List Nat) : Span :=
  let pt := gridPoint (gridExtents la) x.point
  let blank : Span :=
    { launch := x.launch
      place := .waiting pier
      bay := x.bay
      index := x.index
      x := (pt[0]?).getD 0
      y := (pt[1]?).getD 0
      z := (pt[2]?).getD 0
      member := x.index % setSize la
      set := x.index / setSize la
      since := since
      groups := []
      barriers := []
      tables := []
      reservations := []
      deckUnits := units
      granules := granules
      tags := []
      tagClock := 0
      queues := []
      raster := none
      prims := []
      blocked := []
      marked := false
      timedOut := false
      byHost := false
      trap := none
      handler := none
      held := []
      killed := none
      killedAt := 0
      children := []
      relaunches := 0
      areaBase := area
      areaSize := areaSize }
  startParts b (takeSlots quad b.groups freeSlots) blank

/-- The deck units and granules of a pier that are free. -/
def freeUnits (s : State) (p : Nat) : List Nat := freeNumbers 256 (((pierSpans s p).map fun x => x.2.deckUnits).flatten)
def freeGranules (s : State) (p : Nat) : List Nat := freeNumbers 256 (((pierSpans s p).map fun x => x.2.granules).flatten)

/-- The group slots of a pier that are free. -/
def freeSlots (s : State) (p : Nat) : List Nat := freeNumbers 256 ((pierGroups s p).map (·.slot))

/-- Two spans are placed, saved and restored as a unit: members of one set, or spans of one co-resident launch (R132, R248). -/
def sameUnit (la : Launch) (a b : Span) : Bool :=
  a.launch == b.launch && (coResident la || (a.bay == b.bay && a.set == b.set))

/-- The spans of a span's unit. -/
def unitSpans (s : State) (la : Launch) (sp : Span) : List (Nat × Span) := s.spans.filter fun p => sameUnit la sp p.2

/-- How many spans a launch dispatches in all to one bay, where that is known. -/
def knownTotal (la : Launch) (bay : Nat) : Option Nat :=
  if bay ≠ 0 then none
  else
    match la.symmetry with
    | none => some la.total
    | some sy => if sy.next < (gridExtents la).foldl (· * ·) 1 then none else some (sy.issued + sy.found.length)

/-- The spans a unit has when it is whole. -/
def unitCount (la : Launch) (sp : Span) : Nat :=
  if coResident la then (knownTotal la 0).getD (2 ^ 64)
  else
    match knownTotal la sp.bay with
    | none => setSize la
    | some t => min (setSize la) (t - setSize la * sp.set)

/-- A placed span runs. -/
def runPlace : SpanPlace → SpanPlace
  | .waiting p => .running p
  | x => x

/-- A place away from any pier. -/
def placeSaved : SpanPlace → Bool
  | .saved _ => true
  | _ => false

/-- An aborted launch sends no more spans (R256). -/
def aborted (la : Launch) : Bool := (la.destroyed.map fun m => decide (5 ≤ m)).getD false

/-- A unit that is whole, with no member saved, starts together (R247, R248); of an aborted launch those members start that are placed (R256)
(log 30, DEDUCED). -/
def startUnit (la : Launch) (sid : Nat) (s : State) : State :=
  match findSpan s sid with
  | none => s
  | some sp =>
    let us := unitSpans s la sp
    if (decide (us.length < unitCount la sp) && !aborted la) || us.any fun p => placeSaved p.2.place then s
    else us.foldl (fun acc p => modSpan acc p.1 fun x => { x with place := runPlace x.place }) s

/-! ### Completions of the load-store path (R13, R207, R311, R317) -/

/-- A span is on a pier. -/
def onPier (sp : Span) : Bool := (placePier sp.place).isSome

/-- An operation of a kind may complete: its span is on a pier, every lane has been performed, and a write to a peer has its answers. -/
def opMayComplete (s : State) (kind : OpKind) (sid g op : Nat) : Bool :=
  match findSpan s sid, (findGroup s sid g).bind fun x => findOp x op with
  | some sp, some o => onPier sp && o.kind == kind && o.ready && !o.done && (o.ports.isEmpty || o.remoteLoad)
  | _, _ => false

/-- LSU_OP_COMPLETE (R13). -/
def execLsuOpComplete (sid g op : Nat) (s : State) : Host.Outcome State Fault Refusal :=
  .next (if opMayComplete s .lsu sid g op then completeOp sid g op s else s)

/-- A gather's results with those of the lanes in error unspecified, and the cause of R204 (log 63, DEDUCED). -/
def gatherErrors (sid g op : Nat) (errors : BitVec 32) (s : State) : State :=
  match (findGroup s sid g).bind fun x => findOp x op with
  | none => s
  | some o =>
    let bad := (laneList errors).filter fun l => o.lanes.getLsbD l
    if bad.isEmpty then s
    else
      let (ws, s) := freeResults bad o.writes s
      modGroup s sid g (modOp op fun o => { o with writes := ws, cause := if o.cause.isSome then o.cause else some (causeOf 3 25) })

/-- GATHER_RETURN: bit i of `errors`: the element of lane i is uncorrectable (R207) (log 63, DEDUCED). -/
def execGatherReturn (sid g op : Nat) (errors : BitVec 32) (s : State) : Host.Outcome State Fault Refusal :=
  .next (if opMayComplete s .gather sid g op then completeOp sid g op (gatherErrors sid g op errors s) else s)

/-- A decode that ends with a cause of source 5 leaves every destination register unspecified (R309) (log 68, DESIGN CHOICE). -/
def decodeErrors (sid g op : Nat) (s : State) : State :=
  match (findGroup s sid g).bind fun x => findOp x op with
  | none => s
  | some o =>
    if (o.cause.map fun c => c.toNat / 32 == 5).getD false && o.kind == .conversion then
      let (ws, s) := freeResults (laneList o.lanes) o.writes s
      modGroup s sid g (modOp op fun o => { o with writes := ws })
    else s

/-- CONVERSION_OP_COMPLETE (R311). -/
def execConversionOpComplete (sid g op : Nat) (s : State) : Host.Outcome State Fault Refusal :=
  .next (if opMayComplete s .conversion sid g op then completeOp sid g op (decodeErrors sid g op s) else s)

/-- DECODE_OP_COMPLETE (R317, R318). -/
def execDecodeOpComplete (sid g op : Nat) (s : State) : Host.Outcome State Fault Refusal :=
  .next (if opMayComplete s .decode sid g op then completeOp sid g op s else s)

/-! ### Stopping for the handler (R218, R220) -/

/-- HALT_SKID_EXPIRE: a group that skids stops, and records its slices' pcs and its skid (R218). -/
def execHaltSkidExpire (sid g : Nat) (s : State) : Host.Outcome State Fault Refusal :=
  .next (match findSpan s sid, findGroup s sid g with
    | some sp, some x =>
      if sp.trap.isSome && x.skid.isSome && !x.halted && !groupExited x then enterHandler sid (modGroup s sid g stopGroup) else s
    | _, _ => s)

/-- HANDLER_ENTRY: once every group has stopped (R220). -/
def execHandlerEntry (sid : Nat) (s : State) : Host.Outcome State Fault Refusal := .next (enterHandler sid s)

/-! ### Exits and kills (R182, R224, R267) -/

/-- GROUP_SLOT_FREE: a group whose slices have all stopped and whose counters are 0 frees its slot; a killed span's groups keep theirs
until it is reported or relaunched (R182, R267) (log 35, DEDUCED). -/
def execGroupSlotFree (sid g : Nat) (s : State) : Host.Outcome State Fault Refusal :=
  .next (match findSpan s sid, findGroup s sid g with
    | some sp, some x =>
      if onPier sp && sp.killed.isNone && groupExited x && x.ops.isEmpty && !x.freed then modGroup s sid g fun x => { x with freed := true } else s
    | _, _ => s)

/-- The span has an entry in no engine queue, and no PMARK of it is on its way to the trestle (R287). -/
def enginesClear (s : State) (sid : Nat) (sp : Span) : Bool :=
  ((upTo 7).map (queueOps s sid sp)).all (·.isEmpty) &&
  !(((findLaunch s sp.launch).map fun la => la.trestle.posted.any fun p => p.2.1 == sid).getD false)

/-- Every group has stopped, its counters are 0, and every engine operation has completed; a killed span that is saved has none left on
a pier (log 35, DEDUCED). -/
def spanDrained (s : State) (sid : Nat) (sp : Span) : Bool :=
  (placeSaved sp.place && sp.killed.isSome) ||
  (onPier sp && sp.groups.all (fun g => groupExited g && g.ops.isEmpty) && enginesClear s sid sp)

/-- What a span has still to write is performed, and what its pier's deck has still to receive, before the pier's resources go to others (R90,
R98, R198). -/
def settleLeaving (sid : Nat) (s : State) : State :=
  let s := settleSpan sid s
  match (findSpan s sid).bind fun sp => placePier sp.place with
  | none => s
  | some p => settleDeck p s

/-- A span leaves for good: its resources are free and its engines' waits go. -/
def endSpan (sid : Nat) (s : State) : State :=
  let s := modSpan (settleLeaving sid s) sid fun sp => { sp with place := .gone, prims := [], marked := false, byHost := false }
  { s with vm := { s.vm with engineWaits := s.vm.engineWaits.filter fun w =>
      match w.engine with
      | .transfer x _ => x != sid
      | _ => true } }

/-- SPAN_EXIT_COUNTED (R182, R235). -/
def execSpanExitCounted (sid : Nat) (s : State) : Host.Outcome State Fault Refusal :=
  .next (match findSpan s sid with
    | some sp =>
      if spanDrained s sid sp && sp.killed.isNone && sp.groups.all (·.freed) then
        modLaunch (endSpan sid s) sp.launch fun la => { la with active := la.active - 1, completed := la.completed + 1 }
      else s
    | none => s)

/-- A killed span is to be relaunched (R267) (log 34, DESIGN CHOICE). -/
def relaunches (s : State) (la : Launch) (sp : Span) : Bool :=
  sp.killed == some (causeOf 11 25) && idempotent la && hwMode s 4 && !coResident la && decide (sp.relaunches < 2)

/-- The kill counted; the cause field keeps that of the span killed first (R236); under host-assisted relaunch an 11:25 interrupts the host (R267) (log 74, DEDUCED). -/
def reportKill (sid : Nat) (sp : Span) (c : Cause) (s : State) : State :=
  match findLaunch s sp.launch with
  | none => s
  | some la =>
    let s := modLaunch (endSpan sid s) sp.launch fun la =>
      { la with
        active := la.active - 1
        killed := la.killed + 1
        firstCause := if la.killed = 0 || sp.killedAt < la.firstAt then c else la.firstCause
        firstAt := if la.killed = 0 || sp.killedAt < la.firstAt then sp.killedAt else la.firstAt }
    if c = causeOf 11 25 && !hwMode s 4 then setSloti la.slot 1 (some c) s else s

/-- SPAN_KILL_REPORT: once the engine operations of a killed span have completed (R182, R224) (log 35, DEDUCED). -/
def execSpanKillReport (sid : Nat) (s : State) : Host.Outcome State Fault Refusal :=
  .next (match findSpan s sid with
    | some sp =>
      match sp.killed, findLaunch s sp.launch with
      | some c, some la => if spanDrained s sid sp && !relaunches s la sp then reportKill sid sp c s else s
      | _, _ => s
    | none => s)

end Sys2Proof.Machine
end

