-- ==== Sys2Proof/Machine/Launch.lean ====
section
/-!
DEFINITION. The front end's own accesses (R438) and the check of a launch: its record, pipeline descriptor, buffer records, interleave
patterns, symmetry group, span shape, timetable and co-resident placement (R233, R234, R250, R294 to R300, R408 to R412, R283, R284, R132).
-/

namespace Sys2Proof.Machine

/-! ### Front-end accesses (R438) -/

/-- What stops a front-end access: a move lock, or a reason of R438. -/
inductive FeStop where
  | wait
  | fail (reason : Nat)
  deriving DecidableEq, Repr

/-- What the front end does in one step: it changes the state, and may be stopped. -/
abbrev FeM := ExceptT FeStop (StateM State)

/-- The host-owned pages of HBM and the far tier that an access meets. -/
def ownedPages (ps : List Part) : List Nat :=
  ps.filterMap fun p =>
    match p.at_ with
    | .hostOwned t => if t < 2 then some (p.va / 4096) else none
    | _ => none

/-- In hardware fault mode the host-owned pages of an access are first transferred to the device. -/
def ownPages (ctx : Nat) (need : Need) (va n : Nat) (s : State) : State :=
  if hwMode s 1 then (ownedPages (reachRun s none ctx need va n)).foldl (fun acc p => takeBack ctx p acc) s else s

/-- The parts of a front-end access that may be performed, or what stops it. -/
def feParts (ctx : Nat) (need : Need) (va n : Nat) : FeM (List Part) := do
  modify (ownPages ctx need va n)
  let s ← get
  let ps := reachRun s none ctx need va n
  match firstFault false ps with
  | some r => throw (.fail r)
  | none =>
    if ps.any partParks then throw .wait
    else if needReads need && partsPoisoned s ps then throw (.fail 25)
    else return ps

/-- `n` bytes at an address of a context, as a number. -/
def feRead (ctx va n : Nat) : FeM Nat := do
  let ps ← feParts ctx .load va n
  return bytesToNat (readParts (← get) ps)

/-- Bytes written at an address of a context. -/
def feWrite (ctx va : Nat) (bs : List Byte) : FeM Unit := do
  let ps ← feParts ctx .store va bs.length
  modify (writeParts ps bs)

/-- The 64-bit word at an address of a context rewritten at once. -/
def feUpdate (ctx va : Nat) (f : Nat → Nat) : FeM Unit := do
  let ps ← feParts ctx .atomic va 8
  modify fun s => writeParts ps (natToBytes 8 (f (bytesToNat (readParts s ps)))) s

/-- A condition of a check: reason `r` where it does not hold. -/
def feCheck (ok : Bool) (r : Nat) : FeM Unit := if ok then return () else throw (.fail r)

/-- An access whose absent or malformed translation has another reason (log 29, DEDUCED). -/
def feReadAs (reason ctx va n : Nat) : FeM Nat := do
  let r := (feRead ctx va n).run (← get)
  match r with
  | (.ok v, s) => do
    set s
    return v
  | (.error (.fail 6), s) => do
    set s
    throw (.fail reason)
  | (.error e, s) => do
    set s
    throw e

/-- A list of reads. -/
def feList {α : Type} (f : Nat → FeM α) : Nat → Nat → FeM (List α)
  | 0, _ => return []
  | n + 1, i => do
    let x ← f i
    let rest ← feList f n (i + 1)
    return x :: rest

/-! ### The record's fields (R233) -/

/-- Fields of a launch record. -/
def recArgs (r : BitVec 1024) : Nat := recField r 7 0
def recGrid (r : BitVec 1024) (axis : Nat) : Nat := recField r (11 + 4 * axis) (8 + 4 * axis)
def recDeck (r : BitVec 1024) : Nat := recField r 23 20
def recGroups (r : BitVec 1024) : Nat := recField r 24 24
def recRegs (r : BitVec 1024) : Nat := recField r 25 25
def recTags (r : BitVec 1024) : Nat := recField r 27 26
def recGranules (r : BitVec 1024) : Nat := recField r 29 28
def recCount (r : BitVec 1024) : Nat := recField r 30 30
def recClass (r : BitVec 1024) : Nat := recField r 31 31
def recFlags (r : BitVec 1024) : Nat := recField r 35 32
def recCode (r : BitVec 1024) : Nat := recField r 43 36
def recDone (r : BitVec 1024) : Nat := recField r 51 44
def recBuffers (r : BitVec 1024) : Nat := recField r 71 64
def recSymmetry (r : BitVec 1024) : Nat := recField r 87 80
def recPipeline (r : BitVec 1024) : Nat := recField r 95 88
def recTimetable (r : BitVec 1024) : Nat := recField r 103 96
def recPrologue (r : BitVec 1024) : Nat := recField r 111 104
def recPanel (r : BitVec 1024) : Nat := recField r 127 120

/-- Priority and energy class of a launch. -/
def launchPriority (la : Launch) : Nat := recClass la.record % 8
def launchEnergy (la : Launch) : Nat := recClass la.record / 8 % 8

/-- A tag partition's size is 0 or a power of two from 4 to 1,024 (R211). -/
def tagsLegal (t : Nat) : Bool := t == 0 || (decide (4 ≤ t) && decide (t ≤ 1024) && 2 ^ Nat.log2 t == t)

/-- A span shape's fields are in range. -/
def shapeLegal (groups regs deck tags granules : Nat) : Bool :=
  decide (1 ≤ groups) && decide (groups ≤ 32) && decide (8 ≤ regs) && decide (regs ≤ 128) && regs % 8 == 0 &&
  decide (deck ≤ 1048576) && tagsLegal tags && decide (granules ≤ 256)

/-- The record's fields are in range and its reserved bits 0 (R233, R235). -/
def recordLegal (r : BitVec 1024) : Bool :=
  recField r 63 52 == 0 && recDone r % 32 == 0 && recCode r % 2 == 0 && decide (recFlags r < 64) && decide (recClass r < 64) &&
  decide (recCount r ≤ 64) && (upTo 3).all (fun a => decide (1 ≤ recGrid r a) && decide (recGrid r a ≤ 65536)) &&
  (recPipeline r != 0 || shapeLegal (recGroups r) (recRegs r) (recDeck r) (recTags r) (recGranules r)) &&
  !(recPipeline r != 0 && recSymmetry r != 0)

/-- The one bay of a launch that is not a pipeline launch (R115). -/
def recordBay (r : BitVec 1024) : Bay where
  entry := BitVec.ofNat 57 (recCode r)
  groups := recGroups r
  regs := recRegs r
  deckBytes := recDeck r
  tags := recTags r
  granules := recGranules r
  batch := 0
  capacity := 0
  reserve := 0
  input := []
  started := 0

/-! ### The pipeline descriptor (R250) -/

/-- A bay from its entry. -/
def entryBay (e : Nat) : Bay where
  entry := BitVec.ofNat 57 (bitsOf e 63 0)
  groups := bitsOf e 71 64
  regs := bitsOf e 79 72
  deckBytes := bitsOf e 111 80
  tags := bitsOf e 127 112
  granules := bitsOf e 143 128
  batch := bitsOf e 159 144
  capacity := bitsOf e 175 160
  reserve := bitsOf e 191 176
  input := []
  started := 0

/-- The bays' values are in range: `input` is the capacity of the queue before. -/
def baysLegal (input : Option Nat) : List Bay → Bool
  | [] => true
  | b :: rest =>
    b.entry.toNat % 2 == 0 && shapeLegal b.groups b.regs b.deckBytes b.tags b.granules &&
    (match input with
      | none => true
      | some c => decide (1 ≤ b.batch) && decide (b.batch ≤ c)) &&
    (if rest.isEmpty then b.capacity == 0 else decide (32 ≤ b.capacity)) &&
    baysLegal (some b.capacity) rest

/-- The bays of a launch (log 28, DEDUCED). -/
def readBays (ctx : Nat) (r : BitVec 1024) : FeM (List Bay) := do
  let va := recPipeline r
  if va = 0 then return [recordBay r]
  else
    feCheck (va % 64 == 0) 0
    let h ← feRead ctx va 16
    feCheck (bitsOf h 63 8 == 0 && decide (1 ≤ h % 256) && decide (h % 256 ≤ 8)) 0
    let es ← feList (fun i => feRead ctx (va + 16 + 32 * i) 32) (h % 256) 0
    let bays := es.map entryBay
    feCheck (es.all (fun e => bitsOf e 255 192 == 0) && baysLegal none bays) 0
    return bays

/-! ### Buffer records and interleave patterns (R294 to R300) -/

/-- The buffer records of a launch; table VA 0 gives none (log 28, DEDUCED). -/
def readBuffers (ctx : Nat) (r : BitVec 1024) : FeM (List (BitVec 320)) := do
  if recBuffers r = 0 then return []
  else
    let xs ← feList (fun i => feRead ctx (recBuffers r + 40 * i) 40) (recCount r) 0
    let bs := xs.map (BitVec.ofNat 320)
    feCheck (bs.all bufLegal) 0
    return bs

/-- The patterns that records of encoding 4 name; without a table they are invalid (log 28, DEDUCED). -/
def readPatterns (ctx : Nat) (r : BitVec 1024) (bs : List (BitVec 320)) : FeM (List (Nat × BitVec 2048)) := do
  let ids := ((bs.filter fun b => bufEnc b == 4).map bufPattern).eraseDups
  feCheck (ids.isEmpty || recPanel r != 0) 0
  let ps ← feList (fun i => do
    let k := (ids[i]?).getD 0
    let p ← feRead ctx (recPanel r + 256 * k) 256
    return (k, BitVec.ofNat 2048 p)) ids.length 0
  feCheck (ps.all fun p => patternLegal p.2) 0
  return ps

/-! ### Symmetry (R408 to R412) -/

/-- A generator's fields (R409). -/
def genType (g : Nat) : Nat := g % 16
def genA (g : Nat) : Nat := bitsOf g 5 4
def genB (g : Nat) : Nat := bitsOf g 7 6
def genShift (g : Nat) : Nat := bitsOf g 23 8
def genT (g : Nat) : Nat := bitsOf g 27 24

/-- An item of three. -/
def axisOf (l : List Nat) (a : Nat) : Nat := (l[a]?).getD 0

/-- A generator's fields are in range (R409). -/
def genLegal (ext : List Nat) (g : Nat) : Bool :=
  bitsOf g 31 28 == 0 && decide (genT g < 4) && decide (genA g < 3) && decide (genB g < 3) &&
  match genType g with
  | 1 => genShift g == 0 && genA g != genB g
  | 2 => genShift g == 0 && genB g == 0
  | 3 => decide (genShift g < axisOf ext (genA g)) && genB g == 0
  | _ => false

/-- A generator fits the extents of element and span space (R410). -/
def genFits (ext grid : List Nat) (g : Nat) : Bool :=
  let a := genA g
  match genType g with
  | 1 => axisOf ext a == axisOf ext (genB g) && axisOf grid a == axisOf grid (genB g)
  | 3 => genShift g % (axisOf ext a / axisOf grid a) == 0
  | _ => true

/-- The identity. -/
def symId : SymElement := ⟨[0, 1, 2], [false, false, false], [0, 0, 0], [0, 0, 0], 0⟩

/-- Two items of a list exchanged. -/
def swapItems {α : Type} (l : List α) (a b : Nat) : List α :=
  match l[a]?, l[b]? with
  | some x, some y => listSet (fun _ => x) b (listSet (fun _ => y) a l)
  | _, _ => l

/-- A generator applied after an element (R411). -/
def symCompose (ext grid : List Nat) (g : Nat) (el : SymElement) : SymElement :=
  let a := genA g
  let t := el.t ^^^ genT g
  match genType g with
  | 1 =>
    let b := genB g
    ⟨swapItems el.axes a b, swapItems el.flips a b, swapItems el.shifts a b, swapItems el.spanShifts a b, t⟩
  | 2 =>
    { el with
      flips := listSet (fun f => !f) a el.flips
      shifts := listSet (fun x => (axisOf ext a - x) % axisOf ext a) a el.shifts
      spanShifts := listSet (fun x => (axisOf grid a - x) % axisOf grid a) a el.spanShifts
      t := t }
  | _ =>
    let s := genShift g
    { el with
      shifts := listSet (fun x => (x + s) % axisOf ext a) a el.shifts
      spanShifts := listSet (fun x => (x + s / (axisOf ext a / axisOf grid a)) % axisOf grid a) a el.spanShifts
      t := t }

/-- A coordinate's flip and shift: with two places a reflection is a shift by one. -/
def symAxis (n : Nat) (flip : Bool) (shift : Nat) : Bool × Nat :=
  if n = 2 && flip then (false, (shift + 1) % 2) else (flip, shift)

/-- Two maps are equal on every point of element space. -/
def sameMap (ext : List Nat) (x y : SymElement) : Bool :=
  (upTo 3).all fun a =>
    let n := axisOf ext a
    n == 1 || (axisOf x.axes a == axisOf y.axes a &&
      symAxis n ((x.flips[a]?).getD false) (axisOf x.shifts a) == symAxis n ((y.flips[a]?).getD false) (axisOf y.shifts a))

/-- One composite entered in the closure's list; none: a conflict, or an order above 16. -/
def closureAdd (ext : List Nat) (h : SymElement) (l : List SymElement) : Option (List SymElement) :=
  match l.find? (sameMap ext h) with
  | some m => if h.t = m.t then some l else none
  | none => if l.length = 16 then none else some (l ++ [h])

/-- The closure's list from its `i`-th element on (R412). -/
def closureFrom (ext grid gens : List Nat) : Nat → Nat → List SymElement → Option (List SymElement)
  | 0, _, l => some l
  | n + 1, i, l =>
    match l[i]? with
    | none => some l
    | some el =>
      match gens.foldl (fun acc g => acc.bind (closureAdd ext (symCompose ext grid g el))) (some l) with
      | none => none
      | some l => closureFrom ext grid gens n (i + 1) l

/-- The symmetry of a launch (R408 to R412) (log 28, DEDUCED). -/
def readSymmetry (ctx : Nat) (r : BitVec 1024) : FeM (Option Symmetry) := do
  let va := recSymmetry r
  if va = 0 then return none
  else
    feCheck (va % 32 == 0) 4
    let d ← feRead ctx va 32
    let ext := [bitsOf d 147 128, bitsOf d 167 148, bitsOf d 179 168]
    let grid := (upTo 3).map (recGrid r)
    let count := bitsOf d 97 96
    let gens := (upTo count).map fun i => bitsOf d (32 * i + 31) (32 * i)
    feCheck (bitsOf d 255 180 == 0 && bitsOf d 127 98 == 0 && count != 0 && ext.all (· != 0) &&
      (decide (3 ≤ count) || bitsOf d 95 64 == 0) && (decide (2 ≤ count) || bitsOf d 63 32 == 0) && gens.all (genLegal ext)) 0
    feCheck ((upTo 3).all (fun a => axisOf ext a % axisOf grid a == 0) && gens.all (genFits ext grid)) 24
    match closureFrom ext grid gens 17 0 [symId] with
    | none => throw (.fail 24)
    | some l => return some ⟨ext, l, 0, [], 0⟩

/-! ### The timetable (R283, R284) -/

/-- A launch without a timetable. -/
def Trestle.empty : Trestle where
  table := none
  policy := 0
  entries := 0
  hbmList := []
  hbmVa := 0
  hbmCap := 0
  farList := []
  farVa := 0
  farCap := 0
  marker := 0
  misses := 0
  lastMiss := 0
  window := []
  next := 0
  lastKey := 0
  pins := []
  preferred := []
  askedOut := []
  posted := []
  ended := false

/-- The header's fields are in range. -/
def headerLegal (h : Nat) : Bool :=
  bitsOf h 351 320 == 0 && bitsOf h 63 34 == 0 && bitsOf h 33 32 != 3 && decide (1 ≤ bitsOf h 31 0) &&
  decide (bitsOf h 31 0 ≤ 1048576) && decide (bitsOf h 223 192 ≤ bitsOf h 255 224) && decide (bitsOf h 95 64 ≤ bitsOf h 127 96) &&
  bitsOf h 319 256 % 4 == 0 && bitsOf h 191 128 % 4 == 0

/-- Keys do not decrease. -/
def keysRise : List Nat → Bool
  | a :: b :: rest => decide (entKey a ≤ entKey b) && keysRise (b :: rest)
  | _ => true

/-- The trestle of a launch with a timetable at `va`, or without one (log 29, DEDUCED). -/
def readTimetable (ctx va : Nat) : FeM Trestle := do
  if va = 0 then return Trestle.empty
  else
    feCheck (va % 64 == 0) 0
    let h ← feReadAs 0 ctx va 64
    feCheck (headerLegal h) 0
    let n := bitsOf h 31 0
    let es ← feList (fun i => feReadAs 0 ctx (va + 64 + 32 * i) 32) n 0
    feCheck (es.all entLegal && keysRise es) 0
    let hbmVa := bitsOf h 191 128
    let farVa := bitsOf h 319 256
    let hbm ← feList (fun i => feRead ctx (hbmVa + 4 * i) 4) (bitsOf h 95 64) 0
    let far ← feList (fun i => feRead ctx (farVa + 4 * i) 4) (bitsOf h 223 192) 0
    return { Trestle.empty with
      table := some va
      policy := bitsOf h 33 32
      entries := n
      hbmList := hbm
      hbmVa := hbmVa
      hbmCap := bitsOf h 127 96
      farList := far
      farVa := farVa
      farCap := bitsOf h 255 224 }

/-! ### Co-resident placement (R117, R132) -/

/-- Spans of a shape that an empty pier holds. -/
def pierCapacity (sh : Shape) : Nat → Usage → Nat
  | 0, _ => 0
  | n + 1, u =>
    match fitQuadrant u sh with
    | none => 0
    | some b => 1 + pierCapacity sh n (addUsage u sh b)

/-- `total` spans in sets of `k`, a last set holding the remainder, fit dies that hold these numbers of spans, each set on one die. -/
def setsFit (k total : Nat) (dies : List Nat) : Bool :=
  let whole := (dies.map (· / k)).sum
  decide (total / k + 1 ≤ whole) ||
    (decide (total / k ≤ whole) && (decide (total % k = 0) || dies.any fun c => decide (total % k ≤ c % k)))

/-- `total` spans of a shape in sets of `k` fit the empty device (R132). -/
def deviceFits (sh : Shape) (k total : Nat) : Bool := setsFit k total (List.replicate 4 (64 * pierCapacity sh 64 Usage.none))

/-- Spans a launch dispatches in all: of a symmetry launch, the least points of the orbits, counted where they could fit at all. -/
def spanCount (la : Launch) : Nat :=
  let grid := (gridExtents la).foldl (· * ·) 1
  match la.symmetry with
  | none => grid
  | some sy => if 16 * 16384 < grid then grid else ((upTo grid).filter (isLeast la sy)).length

/-! ### The check (R234) -/

/-- The checks of R234 on a final record, in their order; the launch with what they read (log 28, DEDUCED). -/
def checkLaunch (la : Launch) : FeM Launch := do
  let r := la.record
  feCheck (recordLegal r) 0
  let bays ← readBays la.ctx r
  let bufs ← readBuffers la.ctx r
  let pats ← readPatterns la.ctx r bufs
  let sym ← readSymmetry la.ctx r
  let shape := (bays.head?.map bayShape).getD ⟨1, 8, 0, 0, 0⟩
  feCheck (bays.all fun b => (fitQuadrant Usage.none (bayShape b)).isSome) 5
  let tr ← if la.run = 0 then readTimetable la.ctx (la.timetable.getD (recTimetable r)) else pure la.trestle
  let la := { la with
    buffers := bufs
    patterns := pats
    bays := bays
    symmetry := sym
    trestle := tr
    next := 0
    total := (gridExtents la).foldl (· * ·) 1
    phase := .running }
  feCheck (!coResident la || deviceFits shape (setSize la) (spanCount la)) 5
  return la

end Sys2Proof.Machine
end

