-- ==== Sys2Proof/Machine/Queues.lean ====
section
/-!
DEFINITION. Host queues, packets, slots and the completion of launches (R229 to R232, R235, R236, R240, R241, R255, R256, R292, R438).
-/

namespace Sys2Proof.Machine

/-! ### Host queues (R229 to R231) -/

/-- QDESC's fields (R229). -/
def descState (d : BitVec 256) : Nat := bitsOf d.toNat 199 196
def descCommand (d : BitVec 256) : Nat := bitsOf d.toNat 195 192
def descPriority (d : BitVec 256) : Nat := bitsOf d.toNat 135 133
def descSize (d : BitVec 256) : Nat := bitsOf d.toNat 132 128
def descReadVa (d : BitVec 256) : Nat := bitsOf d.toNat 127 64
def descRing (d : BitVec 256) : Nat := bitsOf d.toNat 63 0

/-- The state field set. -/
def setDescState (st : Nat) (d : BitVec 256) : BitVec 256 :=
  BitVec.ofNat 256 (d.toNat - 2 ^ 196 * descState d + 2 ^ 196 * st)

/-- A create is refused (R229). -/
def createRefused (w : BitVec 256) : Bool :=
  let n := w.toNat
  bitsOf n 255 200 != 0 || bitsOf n 191 136 != 0 || decide (descSize w < 4) || decide (16 < descSize w) ||
  descRing w % (64 * 2 ^ descSize w) != 0 || descReadVa w % 8 != 0

/-- QDESC_CREATE: an absent queue becomes active; a refused create leaves it absent (R229). Its write index and its read index start at 0,
which the spec does not say (log 86, DESIGN CHOICE). -/
def qdescCreate (q : Nat) (w : BitVec 256) (s : State) : State :=
  if 4096 ≤ q || descCommand w ≠ 1 || descState (findQueue s q).desc ≠ 0 || createRefused w then s
  else
    let d := BitVec.ofNat 256 (w.toNat % 2 ^ 192 + 2 ^ 196)
    modHostQueue q (fun _ => { Queue.reset with desc := d }) s

/-- QDESC_CREATE (R229). -/
def execQdescCreate (q : Nat) (w : BitVec 256) (s : State) : Host.Outcome State Fault Refusal := .next (qdescCreate q w s)

/-- A queue error: the queue stops consuming, SLOTI of its slot records the cause, and the host is interrupted (R230) (log 25, DEDUCED). -/
def queueError (q : Nat) (c : Cause) (s : State) : State :=
  let s := modHostQueue q (fun x => { x with stopped := true }) (noteError c s)
  match queueSlot s q with
  | none => s
  | some n => setSloti n 1 (some c) s

/-- The host answers an access to a bus address with an error (R438). -/
def hostRefuses (s : State) (a : Nat) : Bool := s.outside.hostErrors.contains (a / 4096)

/-- The read index written back (R231) (log 25, DEDUCED); an error answer of the host is a queue error (R438). -/
def writeBack (q : Nat) (s : State) : State :=
  let x := findQueue s q
  if hostRefuses s (descReadVa x.desc) then queueError q (causeOf 3 6) s
  else writeMem (hostKey (descReadVa x.desc)) (natToBytes 8 x.readIndex.toNat) s

/-- DOORBELL_WRITE: what the host has written before it is seen by what follows (R98, R230). -/
def doorbellWrite (q : Nat) (v : BitVec 64) (s : State) : State :=
  let x := findQueue s q
  if descState x.desc = 0 || v.toNat ≤ x.writeIndex.toNat then s
  else
    let s := modHostQueue q (fun x => { x with writeIndex := v }) (settleHost s)
    if x.readIndex.toNat + 2 ^ descSize x.desc < v.toNat then queueError q (causeOf 10 22) s else s

/-- DOORBELL_WRITE (R230). -/
def execDoorbellWrite (q : Nat) (v : BitVec 64) (s : State) : Host.Outcome State Fault Refusal := .next (doorbellWrite q v s)

/-- A queue has packets it has not consumed. -/
def hasPackets (x : Queue) : Bool := decide (x.readIndex.toNat < x.writeIndex.toNat)

/-- The launches of a host queue that are not complete. -/
def queueLaunches (s : State) (q : Nat) : List Nat := (s.launches.filter fun p => p.2.queue == some q).map (·.1)

/-! ### Idle slots (R240) -/

/-- In host-assisted mode a bound slot whose queue is empty and that runs no launch interrupts the host. -/
def idleCheck (n : Nat) (s : State) : State :=
  let sl := findSlot s n
  if !hwMode s 0 && slotBound sl && sl.launches.isEmpty && !hasPackets (findQueue s (slotQueue sl)) then setSloti n 0 none s else s

/-! ### Packets (R231, R232) -/

/-- The queue of a slot that may consume a packet now. -/
def consuming (s : State) (n : Nat) : Option Nat :=
  let sl := findSlot s n
  let q := slotQueue sl
  let x := findQueue s q
  if slotBound sl && !slotHold sl && descState x.desc == 1 && !x.stopped && x.waiting.isNone &&
      !(x.fenced && !(queueLaunches s q).isEmpty) && hasPackets x then some q
  else none

/-- The host bus address of a queue's next packet, and its number. -/
def packetAddr (x : Queue) : Nat := descRing x.desc + 64 * (x.readIndex.toNat % 2 ^ descSize x.desc)
def packetKey (x : Queue) : Nat := hostKey (packetAddr x)

/-- A queue's next packet, 64 bytes. -/
def nextPacket (s : State) (x : Queue) : Nat := bytesToNat (cellRange emptyByte s.mem (packetKey x) 64)

/-- Packet fields. -/
def pktType (p : Nat) : Nat := p % 256
def pktVa (p : Nat) : Nat := bitsOf p 127 64
def pktValue (p : Nat) : Nat := bitsOf p 191 128
def pktAdd (p : Nat) : Bool := p.testBit 8

/-- A packet's reserved bytes are 0 and a signal VA is aligned (R232) (log 25, DEDUCED). -/
def packetLegal (p : Nat) : Bool :=
  bitsOf p 511 192 == 0 && bitsOf p 63 16 == 0 &&
  match pktType p with
  | 0 => bitsOf p 191 8 == 0
  | 1 => bitsOf p 15 8 == 0 && pktValue p == 0
  | 2 => bitsOf p 15 8 == 0 && pktVa p % 8 == 0
  | 3 => bitsOf p 15 9 == 0 && pktVa p % 8 == 0
  | 4 => bitsOf p 15 8 == 0 && pktVa p == 0 && pktValue p == 0
  | 5 => bitsOf p 15 8 == 0 && pktValue p == 0
  | _ => false

/-- The packet is consumed; the read index is written back when the queue empties (R231). -/
def consume (q : Nat) (s : State) : State :=
  let s := modHostQueue q (fun x => { x with readIndex := x.readIndex + 1, fenced := false }) s
  if hasPackets (findQueue s q) then s else writeBack q s

/-- A packet of a slot taken by a step that handles its type: reading it may fail, and a malformed packet is a queue error (log 25, DEDUCED). -/
def takePacket (n : Nat) (mine : Nat → Bool) (body : Nat → Nat → State → State) (s : State) : State :=
  match consuming s n with
  | none => s
  | some q =>
    let x := findQueue s q
    if hostRefuses s (packetAddr x) then queueError q (causeOf 3 6) s
    else if memPoisoned s (packetKey x) 64 then queueError q (causeOf 3 25) s
    else
      let p := nextPacket s x
      if !mine (pktType p) then s
      else if !packetLegal p then queueError q (causeOf 10 0) s
      else idleCheck n (body q p s)

/-- The context of a queue's packets (R438). -/
def queueCtx (s : State) (q : Nat) : Nat := (cellGet 0 s.vm.qctx q).toNat % 256

/-- A front-end access of a queue: a lock leaves the state for a later try, a failure is a queue error with 3:r (R438). -/
def queueAccess {α : Type} (q : Nat) (m : FeM α) (ok : α → State → State) (s : State) : State :=
  match m.run s with
  | (.ok a, s) => ok a s
  | (.error .wait, s) => s
  | (.error (.fail r), s) => queueError q (causeOf 3 r) s

/-- NOP_PACKET: no effect; a packet of a type that does not exist meets its queue error here (R232) (log 25, DEDUCED). -/
def execNopPacket (n : Nat) (s : State) : Host.Outcome State Fault Refusal :=
  .next (takePacket n (fun t => t == 0 || decide (5 < t)) (fun q _ s => consume q s) s)

/-- A WAIT's word is read in the context the WAIT was consumed in (R438); the queue goes on once it is at least the value (log 26, DEDUCED). -/
def waitRead (q ctx va value : Nat) (s : State) : State :=
  queueAccess q (feRead ctx va 8) (fun v s =>
    modHostQueue q (fun x => { x with waiting := if value ≤ v then none else some (ctx, va, value) }) s) s

/-- WAIT_PACKET: consumed; where its word is below the value the queue is held and its read index written back (R231, R232) (log 26, DEDUCED). -/
def execWaitPacket (n : Nat) (s : State) : Host.Outcome State Fault Refusal :=
  .next (takePacket n (· == 2) (fun q p s =>
    let ctx := queueCtx s q
    queueAccess q (feRead ctx (pktVa p) 8) (fun v s =>
      let s := consume q s
      if pktValue p ≤ v then s
      else writeBack q (modHostQueue q (fun x => { x with waiting := some (ctx, pktVa p, pktValue p) }) s)) s) s)

/-- WAIT_REREAD (R232). -/
def execWaitReread (n : Nat) (s : State) : Host.Outcome State Fault Refusal :=
  .next (
    let sl := findSlot s n
    let q := slotQueue sl
    match (findQueue s q).waiting with
    | some (ctx, va, value) => if slotBound sl && !(findQueue s q).stopped then waitRead q ctx va value s else s
    | none => s)

/-- SIGNAL_PACKET: the value written, or added modulo 2^64 (R232). -/
def execSignalPacket (n : Nat) (s : State) : Host.Outcome State Fault Refusal :=
  .next (takePacket n (· == 3) (fun q p s =>
    let ctx := queueCtx s q
    let act : FeM Unit :=
      if pktAdd p then feUpdate ctx (pktVa p) (fun x => (x + pktValue p) % 2 ^ 64)
      else feWrite ctx (pktVa p) (natToBytes 8 (pktValue p))
    queueAccess q act (fun _ s => consume q s) s) s)

/-- FENCE_PACKET: the queue is held until every earlier launch of it has completed (R232). -/
def execFencePacket (n : Nat) (s : State) : Host.Outcome State Fault Refusal :=
  .next (takePacket n (· == 4) (fun q _ s => modHostQueue q (fun x => { x with fenced := true }) (consume q s)) s)

/-- TABLE_PACKET: the timetable of the queue's next launch (R232). -/
def execTablePacket (n : Nat) (s : State) : Host.Outcome State Fault Refusal :=
  .next (takePacket n (· == 5) (fun q p s => modHostQueue q (fun x => { x with table := some (pktVa p) }) (consume q s)) s)

/-! ### Launches begin (R232 to R234) -/

/-- A launch as its record is consumed. -/
def newLaunch (slot : Nat) (queue : Option Nat) (ctx : Nat) (parent : Option Nat) (depth rec : Nat) (table : Option Nat)
    (destroyed : Option Nat) : Launch where
  slot := slot
  queue := queue
  ctx := ctx
  parent := parent
  depth := depth
  record := BitVec.ofNat 1024 rec
  timetable := table
  phase := .prologue
  run := 0
  repeatTo := 0
  runsDone := 0
  buffers := []
  patterns := []
  bays := []
  symmetry := none
  trestle := Trestle.empty
  next := 0
  total := 0
  active := 0
  completed := 0
  killed := 0
  dropped := 0
  firstCause := 0
  firstAt := 0
  cancel := none
  failed := none
  destroyed := destroyed
  deferrals := 0
  admitted := false
  saved := []

/-- A launch entered under the next number, behind the others of its slot. -/
def addLaunch (la : Launch) (s : State) : State :=
  let l := s.fe.nextLaunch
  let s := modSlot la.slot (fun sl => { sl with launches := sl.launches ++ [l] }) s
  { s with launches := keySet l la s.launches, fe := { s.fe with nextLaunch := l + 1 } }

/-- A launch record read: 128 bytes at a VA that is 128-byte aligned. -/
def readRecord (ctx va : Nat) : FeM Nat := do
  feCheck (va % 128 == 0) 4
  feRead ctx va 128

/-- Grid spans of a record (R233). -/
def recordGrid (r : BitVec 1024) : Nat := ((upTo 3).map (recGrid r)).foldl (· * ·) 1

/-- Spans that the walker of a symmetry launch has still to issue (R413). -/
def toIssue (la : Launch) (sy : Symmetry) : Nat :=
  ((upTo ((gridExtents la).foldl (· * ·) 1 - sy.next)).filter fun i => isLeast la sy (sy.next + i)).length

/-- Spans of a launch that has not been checked: its grid's, or those its symmetry descriptor, as it stands, would have issued (R235, R413)
(log 31, DEDUCED). -/
def spansToCome (la : Launch) (s : State) : Nat :=
  if recSymmetry la.record = 0 then recordGrid la.record
  else
    match ((readSymmetry la.ctx la.record).run s).1 with
    | .ok (some sy) => toIssue la sy
    | _ => 0

/-- The launch with a record just read: it waits for its prologue, or is checked; of a queue that is being aborted it starts no span (R256). -/
def beginLaunch (la : Launch) : FeM Launch := do
  if aborted la then return { la with phase := .finishing, dropped := spansToCome la (← get) }
  else if recPrologue la.record ≠ 0 then return la
  else checkLaunch la

/-- A launch consumed: its record is read and it begins; a failure fails the launch with 10:r. What a lock stops leaves `none` (log 27, DEDUCED). -/
def consumeLaunch (mk : Nat → Launch) (ctx va : Nat) (s : State) : Option State × State :=
  match (readRecord ctx va).run s with
  | (.error .wait, s) => (none, s)
  | (.error (.fail r), s) =>
    (some (addLaunch { mk 0 with failed := some (causeOf 10 r), phase := .finishing } (noteError (causeOf 10 r) s)), s)
  | (.ok rec, s) =>
    match (beginLaunch (mk rec)).run s with
    | (.error .wait, s) => (none, s)
    | (.error (.fail r), s) =>
      (some (addLaunch { mk rec with failed := some (causeOf 10 r), phase := .finishing } (noteError (causeOf 10 r) s)), s)
    | (.ok la, s) => (some (settleTrestle s.fe.nextLaunch (addLaunch la s)), s)

/-- LAUNCH_PACKET (R232, R234). -/
def execLaunchPacket (n : Nat) (s : State) : Host.Outcome State Fault Refusal :=
  .next (takePacket n (· == 1) (fun q p s =>
    let ctx := queueCtx s q
    match consumeLaunch (fun rec => newLaunch n (some q) ctx none 1 rec (findQueue s q).table none) ctx (pktVa p) s with
    | (some s, _) => modHostQueue q (fun x => { x with table := none }) (consume q s)
    | (none, s) => s) s)

/-! ### Destroying a queue (R256) -/

/-- The outcome codes of the destroy modes: queue state 2 to 4. -/
def modeOutcome (st : Nat) : Nat := st + 2

/-- The last completion block of a destroyed queue is written: the read index, the state 0, the slot unbound (R256). QDESC's other fields read
0 from then on, which the spec does not say (log 86, DESIGN CHOICE). -/
def endDestroy (q : Nat) (s : State) : State :=
  let x := findQueue s q
  let busy := match queueSlot s q with
    | none => false
    | some n => !(findSlot s n).launches.isEmpty
  if descState x.desc < 2 || busy then s
  else
    let s := writeBack q (modHostQueue q (fun x => { x with readIndex := x.writeIndex }) s)
    let s := match queueSlot s q with
      | none => s
      | some n => modSlot n (fun sl => { sl with slotb := sl.slotb &&& ~~~(0x1FFF : BitVec 64) }) s
    modHostQueue q (fun x => { Queue.reset with readIndex := x.readIndex, writeIndex := x.writeIndex }) s

/-- Spans of a launch that are not dispatched yet: of a symmetry launch those issued, and those the walker has still to issue (R256, R413)
(log 31, DEDUCED). -/
def undispatched (la : Launch) (s : State) : Nat :=
  match la.phase with
  | .running =>
    match la.symmetry with
    | none => la.total - la.next
    | some sy => sy.found.length + toIssue la sy
  | .finishing => 0
  | _ => spansToCome la s

/-- The new spans of a launch that wait in the dies' batches. -/
def batchedNew (s : State) (l : Nat) : Nat := ((s.fe.batches.flatten).filter fun x => x.launch == l && x.saved.isNone).length

/-- The placed spans of an aborted launch that wait for members that will not come start (R256) (log 31, DEDUCED). -/
def startPlaced (l : Nat) (s : State) : State :=
  let sids := (s.spans.filter fun p => p.2.launch == l && onPier p.2).map (·.1)
  match findLaunch s l with
  | none => s
  | some la => sids.foldl (fun acc sid => startUnit la sid acc) s

/-- An aborted launch drops its spans that are not placed; its prologue stops (R256) (log 31, DEDUCED). -/
def abortLaunch (l : Nat) (s : State) : State :=
  match findLaunch s l with
  | none => s
  | some la =>
    let n := undispatched la s + batchedNew s l
    let keep (x : BatchSpan) : Bool := !(x.launch == l && x.saved.isNone)
    let free (en : PrologueEngine) : PrologueEngine := if en.launch = some l then { en with launch := none } else en
    let s := { s with fe := { s.fe with
      batches := s.fe.batches.map (·.filter keep)
      engines := s.fe.engines.map free } }
    startPlaced l (modLaunch s l fun la =>
      { la with
        next := la.total
        symmetry := la.symmetry.map fun sy => { sy with found := [], next := la.total }
        dropped := la.dropped + n
        repeatTo := 0
        phase := if la.phase = .running then .running else .finishing })

/-- The spans of a launch are killed with 10:2, and its bays' items dropped (R256) (log 31, DEDUCED). -/
def killLaunch (l : Nat) (s : State) : State :=
  let sids := (s.spans.filter fun p => p.2.launch == l && p.2.place != .gone).map (·.1)
  let s := sids.foldl (fun acc sid => killSpan sid (causeOf 10 2) acc) s
  let s := { s with fe := { s.fe with batches := s.fe.batches.map (·.filter fun x => x.launch != l) } }
  modLaunch s l fun la => { la with bays := la.bays.map fun b => { b with input := [] } }

/-- A destroy command of a mode, 2 DRAIN, 3 ABORT, 4 ABORT-KILL: taken by an active queue, or where it is stronger than the destruction in
progress (R229, R256). -/
def destroyQueue (q mode : Nat) (s : State) : State :=
  let x := findQueue s q
  if descState x.desc = 0 || mode ≤ descState x.desc then s
  else
    let s := modHostQueue q (fun x => { x with desc := setDescState mode x.desc, waiting := none, fenced := false }) s
    let ls := match queueSlot s q with
      | none => []
      | some n => (findSlot s n).launches
    let s := ls.foldl (fun acc l => modLaunch acc l fun la => { la with destroyed := some (modeOutcome mode) }) s
    let s := if 3 ≤ mode then ls.foldl (fun acc l => abortLaunch l acc) s else s
    let s := if mode = 4 then ls.foldl (fun acc l => killLaunch l acc) s else s
    endDestroy q s

/-- QDESC_DESTROY_DRAIN (R256). -/
def execQdescDestroyDrain (q : Nat) (s : State) : Host.Outcome State Fault Refusal := .next (destroyQueue q 2 s)

/-- QDESC_DESTROY_ABORT (R256). -/
def execQdescDestroyAbort (q : Nat) (s : State) : Host.Outcome State Fault Refusal := .next (destroyQueue q 3 s)

/-- QDESC_DESTROY_ABORT_KILL (R256). -/
def execQdescDestroyAbortKill (q : Nat) (s : State) : Host.Outcome State Fault Refusal := .next (destroyQueue q 4 s)

/-! ### Completion (R235, R236, R292) -/

/-- A launch may complete: nothing of it runs on and its trestle, where it has one, has ended. -/
def mayComplete (s : State) (l : Nat) (la : Launch) : Bool :=
  lastRunOver s l la && (la.trestle.table.isNone || la.trestle.ended)

/-- The outcome and cause of a launch (R236) (log 74, DEDUCED). -/
def launchOutcome (la : Launch) : Nat × Cause :=
  let killed := if la.killed = 0 then 0 else la.firstCause
  match la.destroyed, la.failed, la.cancel with
  | some m, _, _ => (m, killed)
  | none, some c, _ => (2, c)
  | none, none, some _ => (3, 0)
  | none, none, none => if la.killed = 0 then (0, 0) else (1, killed)

/-- Bytes [31:8] of the completion block (R235) (log 27, DEDUCED). -/
def completionBody (la : Launch) : List Byte :=
  let (o, c) := launchOutcome la
  let sat (x : Nat) : Nat := min x 0xFFFFFFFF
  natToBytes 8 (2 ^ 40 * (la.cancel.getD 0 % 4096) + 2 ^ 32 * min la.runsDone 255 + 2 ^ 12 * o + c.toNat) ++
  natToBytes 8 (2 ^ 32 * sat la.dropped + sat la.killed) ++ natToBytes 8 la.completed

/-- The completion block: bytes [31:8], then 1 added to the signal (log 27, DEDUCED). -/
def writeCompletion (la : Launch) : FeM Unit := do
  let va := recDone la.record
  feWrite la.ctx (va + 8) (completionBody la)
  feUpdate la.ctx va fun x => (x + 1) % 2 ^ 64

/-- The launch leaves the machine: its spans, its place in its slot and among its parent's children. -/
def dropLaunch (l : Nat) (la : Launch) (s : State) : State :=
  let s := modSlot la.slot (fun sl => { sl with launches := sl.launches.filter (· ≠ l) }) s
  let spans := (s.spans.filter fun p => p.2.launch != l).map fun p => (p.1, { p.2 with children := p.2.children.filter (· ≠ l) })
  { s with launches := keyErase l s.launches, spans := spans }

/-- What follows a launch's completion: interrupts (R235, R240), the end of its queue's destruction. -/
def afterLaunch (la : Launch) (s : State) : State :=
  let (o, c) := launchOutcome la
  let bad := recDone la.record % 32 ≠ 0
  let s := if bad || (!hwMode s 0 && o ≠ 0 && o ≠ 3) then setSloti la.slot 1 (some (if bad then causeOf 10 0 else c)) s else s
  let s := idleCheck la.slot s
  endDestroy (slotQueue (findSlot s la.slot)) s

/-- A launch whose end cannot be written leaves with a queue error of cause 3:r (R235, R292). -/
def unwritten (l : Nat) (la : Launch) (r : Nat) (s : State) : State :=
  let q := slotQueue (findSlot s la.slot)
  endDestroy q (idleCheck la.slot (queueError q (causeOf 3 r) (dropLaunch l la s)))

/-- LAUNCH_COMPLETE: the completion block is written and the launch leaves; a block that cannot be written is a queue error (R235)
(log 27, DEDUCED). -/
def launchComplete (l : Nat) (s : State) : State :=
  match findLaunch s l with
  | none => s
  | some la =>
    if !mayComplete s l la then s
    else
      let va := recDone la.record
      if va = 0 || va % 32 ≠ 0 then afterLaunch la (dropLaunch l la s)
      else
        match (writeCompletion la).run s with
        | (.ok _, s) => afterLaunch la (dropLaunch l la s)
        | (.error .wait, s) => s
        | (.error (.fail r), s) => unwritten l la r s

/-- LAUNCH_COMPLETE (R235). -/
def execLaunchComplete (l : Nat) (s : State) : Host.Outcome State Fault Refusal := .next (launchComplete l s)

/-- The words of a frame list. -/
def listBytes (l : List Nat) : List Byte := (l.map (natToBytes 4)).flatten

/-- A frame list written back, unless it is empty. -/
def writeList (ctx va : Nat) (l : List Nat) : FeM Unit := if l.isEmpty then return () else feWrite ctx va (listBytes l)

/-- The trestle's write-back: the lists, and the written fields of the header (R283, R292). -/
def writeTrestle (ctx table : Nat) (t : Trestle) : FeM Unit := do
  writeList ctx t.hbmVa t.hbmList
  writeList ctx t.farVa t.farList
  feWrite ctx (table + 8) (natToBytes 4 t.hbmList.length)
  feWrite ctx (table + 24) (natToBytes 4 t.farList.length)
  feWrite ctx (table + 44) (natToBytes 4 t.misses)
  feWrite ctx (table + 48) (natToBytes 8 t.lastMiss ++ natToBytes 8 t.marker)

/-- TRESTLE_LAUNCH_END: entries not started are dropped, moves in progress end, the header and the lists are written; a failed write is a
queue error and the completion block is not written (R292) (log 29, DEDUCED). -/
def trestleEnd (l : Nat) (s : State) : State :=
  match findLaunch s l with
  | none => s
  | some la =>
    match la.trestle.table with
    | none => s
    | some table =>
      if la.trestle.ended || !lastRunOver s l la then s
      else
        let s := modTrestle l (fun t => { t with window := [], next := t.entries, pins := [] }) s
        if !(trestleMoves s l).isEmpty then s
        else
          match (writeTrestle la.ctx table la.trestle).run s with
          | (.ok _, s) => modTrestle l (fun t => { t with ended := true }) s
          | (.error .wait, s) => s
          | (.error (.fail r), s) => unwritten l la r s

/-- TRESTLE_LAUNCH_END (R292). -/
def execTrestleLaunchEnd (l : Nat) (s : State) : Host.Outcome State Fault Refusal := .next (trestleEnd l s)

/-! ### Slots (R240, R241, R255) -/

/-- A slot bound to a queue in hardware mode. -/
def bindSlot (n q : Nat) (s : State) : State :=
  modSlot n (fun sl => { sl with slotb := BitVec.ofNat 64 (0x1000 + q) }) s

/-- A slot unbound; the read index of its queue is written back (R231). -/
def unbindSlot (n : Nat) (s : State) : State :=
  let q := slotQueue (findSlot s n)
  let s := if descState (findQueue s q).desc = 0 then s else writeBack q s
  modSlot n (fun sl => { sl with slotb := 0 }) s

/-- A queue that waits for a slot: active, with unconsumed packets, and not bound (R241, R255) (log 26, DEDUCED). -/
def wantsSlot (s : State) (q : Nat) (x : Queue) : Bool :=
  descState x.desc == 1 && !x.stopped && hasPackets x && (queueSlot s q).isNone

/-- The queue to bind next: the lowest priority number, then round-robin by queue number (R241). -/
def queueToBind (s : State) (skip : List Nat) : Option Nat :=
  let qs := s.fe.queues.filter fun p => wantsSlot s p.1 p.2 && !skip.contains p.1
  match (qs.map fun p => descPriority p.2.desc).foldl (fun (m : Option Nat) x => some (min x (m.getD x))) none with
  | none => none
  | some pr =>
    let last := (s.fe.lastQueue[pr]?).getD 4095
    let same := (qs.filter fun p => descPriority p.2.desc == pr).map (·.1)
    match same.find? (last < ·) with
    | some q => some q
    | none => same.head?

/-- The lowest-numbered free slot. -/
def freeSlot (s : State) : Option Nat := (upTo 128).find? fun n => !slotBound (findSlot s n)

/-- A bound slot whose queue has no unconsumed packet and no launch, the lowest; a queue held in WAIT is no exception (R231, R241). -/
def spareSlot (s : State) : Option Nat :=
  (upTo 128).find? fun n =>
    let sl := findSlot s n
    let x := findQueue s (slotQueue sl)
    slotBound sl && sl.launches.isEmpty && !hasPackets x

/-- A queue bound to a slot, and remembered for the round. -/
def bindQueue (n q : Nat) (s : State) : State :=
  let pr := descPriority (findQueue s q).desc
  modFe (fun fe => { fe with lastQueue := listSet (fun _ => q) pr fe.lastQueue }) (bindSlot n q s)

/-- QUEUE_BIND (R241). -/
def queueBind (s : State) : State :=
  if !hwMode s 0 then s
  else
    match queueToBind s [] with
    | none => s
    | some q =>
      match freeSlot s with
      | some n => bindQueue n q s
      | none =>
        match spareSlot s with
        | some n => bindQueue n q (unbindSlot n s)
        | none => s

/-- QUEUE_BIND (R241). -/
def execQueueBind (s : State) : Host.Outcome State Fault Refusal := .next (queueBind s)

/-- SLOTB_WRITE: ignored in hardware binding mode, with a reserved bit set, and where it rebinds a slot that runs a launch; a queue bound
to another slot is not bound twice (R240) (log 31, DEDUCED). -/
def slotbWrite (n : Nat) (v : BitVec 64) (s : State) : State :=
  let old := findSlot s n
  let rebinds := bitsOf v.toNat 12 0 ≠ bitsOf old.slotb.toNat 12 0
  let twice := v.getLsbD 12 && (upTo 128).any fun m => m != n && slotBound (findSlot s m) && slotQueue (findSlot s m) == bitsOf v.toNat 11 0
  if hwMode s 0 || 128 ≤ n || bitsOf v.toNat 31 14 ≠ 0 || (rebinds && (!old.launches.isEmpty || twice)) then s
  else
    let s := if rebinds && slotBound old && descState (findQueue s (slotQueue old)).desc ≠ 0 then writeBack (slotQueue old) s else s
    idleCheck n (modSlot n (fun sl => { sl with slotb := v }) s)

/-- SLOTB_WRITE (R240). -/
def execSlotbWrite (n : Nat) (v : BitVec 64) (s : State) : Host.Outcome State Fault Refusal := .next (slotbWrite n v s)

/-- SLOTI after a write: the cause bits written 1 are cleared; what becomes of the cause field the spec leaves open, and it goes with the
fault bit (R240) (log 31, DEDUCED). -/
def clearSloti (v old : BitVec 64) : BitVec 64 :=
  let kept := old &&& ~~~(v &&& 0xF)
  if v.getLsbD 1 then kept &&& 0xF else kept

/-- SLOTI_CLEAR: writing 1 to a bit clears it (R240) (log 31, DEDUCED). -/
def execSlotiClear (n : Nat) (v : BitVec 64) (s : State) : Host.Outcome State Fault Refusal :=
  .next (if 128 ≤ n then s else modSlot n (fun sl => { sl with sloti := clearSloti v sl.sloti }) s)

/-- QUANTUM_EXPIRED: in host-assisted mode the slot sets hold and interrupts the host (R240). -/
def execQuantumExpired (n : Nat) (s : State) : Host.Outcome State Fault Refusal :=
  .next (
    let sl := findSlot s n
    if hwMode s 0 || !slotBound sl || bitsOf sl.slotb.toNat 63 32 = 0 || sl.sloti.getLsbD 2 then s
    else setSloti n 2 none (modSlot n (fun sl => { sl with slotb := sl.slotb ||| 0x2000 }) s))

/-- Every bound slot is held in WAIT and no launch runs (R255). -/
def inDeadlock (s : State) : Bool :=
  let bound := (upTo 128).filter fun n => slotBound (findSlot s n)
  !bound.isEmpty && s.launches.isEmpty && bound.all fun n => (findQueue s (slotQueue (findSlot s n))).waiting.isSome

/-- Queues bound to the free slots while one waits that is not among `skip`. -/
def rebind (skip : List Nat) : Nat → State → State
  | 0, s => s
  | n + 1, s =>
    match queueToBind s skip, freeSlot s with
    | some q, some m => rebind skip n (bindQueue m q s)
    | _, _ => s

/-- SLOT_DEADLOCK: in hardware mode the waiting queues give their slots to unbound queues with packets, if there are any; otherwise the
host is interrupted on slot 0 (R255). -/
def slotDeadlock (s : State) : State :=
  if !inDeadlock s then s
  else
    match (if hwMode s 0 then queueToBind s [] else none) with
    | none => setSloti 0 3 none s
    | some _ =>
      let bound := (upTo 128).filter fun n => slotBound (findSlot s n)
      let qs := bound.map fun n => slotQueue (findSlot s n)
      rebind qs 128 (bound.foldl (fun acc n => unbindSlot n acc) s)

/-- SLOT_DEADLOCK (R255). -/
def execSlotDeadlock (s : State) : Host.Outcome State Fault Refusal := .next (slotDeadlock s)

end Sys2Proof.Machine
end

