-- ==== Sys2Proof/Machine/Batches.lean ====
section
/-!
DEFINITION. Arbitration, batches, placement and relaunch (R133, R242, R244 to R248, R251, R267).
-/

namespace Sys2Proof.Machine

/-! ### Reports (R245) -/

/-- DIE_SLOT_REPORT: a die reports its free group slots (R245). -/
def execDieSlotReport (die : Nat) (s : State) : Host.Outcome State Fault Refusal :=
  .next (
    let free := ((upTo 64).map fun i => usageFree (pierUsage s (64 * die + i))).sum
    modFe (fun fe => { fe with reports := listSet (fun _ => free) die fe.reports }) s)

/-- The groups of a span of a bay. -/
def bayGroups (s : State) (l bay : Nat) : Nat := (((findLaunch s l).bind fun la => launchBay la bay).map (·.groups)).getD 0

/-- A die's available group slots: its report less the groups sent and not placed (R245). -/
def dieAvailable (s : State) (die : Nat) : Nat :=
  let sent := (((s.fe.batches[die]?).getD []).map fun x => bayGroups s x.launch x.bay).sum
  (s.fe.reports[die]?).getD 0 - sent

/-- The die with the most available slots of a list, ties to the lower (R245). -/
def bestDie (s : State) (dies : List Nat) : Option Nat :=
  dies.foldl (fun (best : Option Nat) d =>
    match best with
    | none => some d
    | some b => if dieAvailable s b < dieAvailable s d then some d else some b) none

/-! ### Co-resident launches and open sets (R247, R248) -/

/-- A span of a launch is in a batch, or placed and not started. -/
def unstarted (s : State) (l : Nat) : Bool :=
  ((s.fe.batches.flatten).any fun x => x.launch == l) ||
  s.spans.any fun p => p.2.launch == l && (match p.2.place with | .waiting _ => true | _ => false)

/-- The co-resident launches whose batches are being sent or placed. -/
def openCoResident (s : State) : List Nat :=
  (s.launches.filter fun p => coResident p.2 && unstarted s p.1).map (·.1)

/-- The dies that have had a batch of a launch that is not whole. -/
def holdingDies (s : State) (l : Nat) : List Nat :=
  (upTo 4).filter fun d =>
    (((s.fe.batches[d]?).getD []).any fun x => x.launch == l) ||
    s.spans.any fun p => p.2.launch == l && (match p.2.place with | .waiting q => q / 64 == d | _ => false)

/-- The dies that accept a batch of a launch (R247). -/
def openDies (s : State) (l : Nat) : List Nat :=
  (upTo 4).filter fun d => (openCoResident s).all fun c => c == l || !(holdingDies s c).contains d

/-! ### What a launch would start next -/

/-- A span saved at JOIN is a candidate only when its children have completed (R266). -/
def readyToRestore (s : State) (sp : Span) : Bool :=
  sp.killed.isNone && sp.groups.all fun g => g.waits.all fun w =>
    match w.wait with
    | .join cs => cs.all fun c => (findLaunch s c).isNone
    | _ => true

/-- A saved span is in a batch already. -/
def inBatch (s : State) (sid : Nat) : Bool := (s.fe.batches.flatten).any fun x => x.saved == some sid

/-- The saved spans of a span's unit. -/
def savedUnit (s : State) (la : Launch) (sp : Span) : List (Nat × Span) := (unitSpans s la sp).filter fun p => placeSaved p.2.place

/-- The first unit of saved spans of a launch that may be restored, in the order saved (R266). -/
def restorable (s : State) (la : Launch) : Option (List (Nat × Span)) :=
  la.saved.findSome? fun sid =>
    match findSpan s sid with
    | none => none
    | some sp =>
      let us := (savedUnit s la sp).filter fun p => !inBatch s p.1
      if !us.isEmpty && us.all fun p => readyToRestore s p.2 then some us else none

/-- A bay is a candidate for a span start (R251). -/
def bayReady (s : State) (l : Nat) (la : Launch) (b : Nat) : Bool :=
  match launchBay la b with
  | none => false
  | some y =>
    let room := match launchBay la (b + 1) with
      | none => true
      | some z => decide (z.input.length + y.reserve ≤ y.capacity)
    room && (if b = 0 then decide (la.next < la.total)
      else decide (y.batch ≤ y.input.length) || (bayFinished s l la (b - 1) && !y.input.isEmpty))

/-- The input capacity of a bay. -/
def inputCapacity (la : Launch) (b : Nat) : Nat := if b = 0 then 1 else ((launchBay la (b - 1)).map (·.capacity)).getD 1

/-- Items in a bay's input; bay 0 counts as ratio 0. -/
def inputItems (la : Launch) (b : Nat) : Nat := if b = 0 then 0 else ((launchBay la b).map (·.input.length)).getD 0

/-- The bay that starts next: the highest ratio of occupancy to capacity, ties to the later bay (R251). -/
def nextBay (s : State) (l : Nat) (la : Launch) : Option Nat :=
  (upTo la.bays.length).foldl (fun (best : Option Nat) b =>
    if !bayReady s l la b then best
    else
      match best with
      | none => some b
      | some a => if inputItems la a * inputCapacity la b ≤ inputItems la b * inputCapacity la a then some b else some a) none

/-- A launch is a pipeline launch. -/
def isPipeline (la : Launch) : Bool := decide (1 < la.bays.length) || recPipeline la.record != 0

/-- The walker of a symmetry launch has tested every point. -/
def walkerDone (la : Launch) (sy : Symmetry) : Bool := decide ((gridExtents la).foldl (· * ·) 1 ≤ sy.next)

/-- The bay of a launch in which a set was begun and not wholly sent, and how many members are to be sent at once (R248). -/
def openBay (la : Launch) : Option (Nat × Nat) :=
  (upTo la.bays.length).findSome? fun b =>
    let r := ((launchBay la b).map (·.started)).getD 0 % setSize la
    let more := match b, la.symmetry with
      | 0, some sy => sy.found.length
      | 0, none => la.total - la.next
      | _, _ => setSize la
    if r = 0 || more = 0 then none else some (b, min (setSize la - r) more)

/-- The undispatched spans a launch offers, in order, at most `n` of them: each with its bay, its index and its point (R114, R115, R413). A
pipeline launch offers one start, a set of spans where it has sets, or what is left of a set. A later bay's start number at or above the grid's
span count takes the grid point of its remainder, which R115 does not settle (log 88, DESIGN CHOICE). -/
def offered (s : State) (l : Nat) (la : Launch) (n : Nat) : List BatchSpan :=
  match la.symmetry with
  | some sy => ((upTo n).zip sy.found).map fun p => ⟨l, none, 0, sy.issued + p.1, p.2⟩
  | none =>
    if isPipeline la then
      match (openBay la).orElse fun _ => (nextBay s l la).map fun b => (b, setSize la) with
      | none => []
      | some (b, k) =>
        let from_ := if b = 0 then la.next else ((launchBay la b).map (·.started)).getD 0
        let k := if b = 0 then min k (la.total - la.next) else k
        (upTo k).map fun i => ⟨l, none, b, from_ + i, (from_ + i) % max 1 la.total⟩
    else (upTo (min n (la.total - la.next))).map fun i => ⟨l, none, 0, la.next + i, la.next + i⟩

/-! ### Candidates (R231, R242, R253) -/

/-- A launch has spans that are not dispatched. -/
def hasUndispatched (s : State) (l : Nat) (la : Launch) : Bool :=
  la.phase == .running &&
  match la.symmetry with
  | some sy => !sy.found.isEmpty || !walkerDone la sy
  | none => if isPipeline la then !bayFinished s l la (la.bays.length - 1) else decide (la.next < la.total)

/-- A launch of the same slot goes before another: it came earlier, and is of the same queue or a child (R231, R253). -/
def goesAhead (lb la : Launch) : Bool := lb.queue == la.queue || lb.queue.isNone

/-- A launch that goes before has undispatched spans, or runs of its prologue that are not over (R231, R238, R253). -/
def behind (s : State) (l : Nat) (la : Launch) : Bool :=
  (findSlot s la.slot).launches.any fun m =>
    decide (m < l) &&
    match findLaunch s m with
    | none => false
    | some lb =>
      goesAhead lb la &&
      (match lb.phase with
        | .running => hasUndispatched s m lb || runsAgain lb
        | .finishing => false
        | _ => true)

/-- A launch offers something at this decision: saved spans, or new ones in its turn. -/
def isCandidate (s : State) (l : Nat) (la : Launch) : Bool :=
  la.phase == .running && !slotHold (findSlot s la.slot) &&
  ((restorable s la).isSome || (!behind s l la && !(offered s l la 1).isEmpty))

/-- The launches that are candidates, in slot order from slot 0, children of a slot first (log 30, DEDUCED). -/
def candidates (s : State) : List (Nat × Launch) :=
  ((upTo 128).map fun n =>
    let ls := ((findSlot s n).launches).filterMap fun l => (findLaunch s l).map fun la => (l, la)
    let ok := ls.filter fun p => isCandidate s p.1 p.2
    (ok.filter fun p => p.2.queue.isNone) ++ ok.filter fun p => p.2.queue.isSome).flatten

/-- A list turned so that the slots after one come first. -/
def turnAfter (last : Nat) (cs : List (Nat × Launch)) : List (Nat × Launch) :=
  (cs.filter fun p => decide (last < p.2.slot)) ++ cs.filter fun p => decide (p.2.slot ≤ last)

/-- The greatest headroom class of the dies. -/
def maxHeadroom (s : State) : Nat := s.fe.headroom.foldl max 0

/-- A launch fits the headroom, or has been admitted (R243, R244). -/
def fitsPower (s : State) (la : Launch) : Bool := la.admitted || decide (launchEnergy la ≤ maxHeadroom s)

/-- What the arbiter chooses: the launch, and those it defers (R242, R244) (log 30, DEDUCED). -/
def arbitrate (s : State) : Option (Nat × List Nat) :=
  let cs := candidates s
  match cs.foldl (fun (m : Option Nat) c => some (min (launchPriority c.2) (m.getD 8))) none with
  | none => none
  | some pr =>
    let level := turnAfter ((s.fe.lastSlot[pr]?).getD 127) (cs.filter fun c => launchPriority c.2 == pr)
    let fits := level.find? fun c => fitsPower s c.2
    let deferred := if fits.isSome then (level.filter fun x => !fitsPower s x.2 && decide (x.2.deferrals < 16)).map (·.1) else []
    ((level.find? fun c => !c.2.admitted && decide (16 ≤ c.2.deferrals)).orElse fun _ => fits.orElse fun _ => level.head?).map
      fun c => (c.1, deferred)

/-! ### Forming a batch (R245, R247, R248, R266) -/

/-- Whole spans of `g` groups that a batch takes from `l` within `room` groups: whole sets of `k` where a set fits in a batch, else a part
of a set. A last set that is not whole is taken only where `final` says that no more spans follow. -/
def takeSpans (k g room : Nat) (final : Bool) (l : List BatchSpan) : List BatchSpan :=
  let n := if k * g ≤ room then room / (k * g) * k else if 64 < k * g then room / max 1 g else 0
  if l.length ≤ n && !final && k * g ≤ room then l.take (l.length / k * k) else l.take n

/-- The die on which a set has been begun: that of a member in a batch, or placed and not started. -/
def setDie (s : State) (l bay set k : Nat) : Option Nat :=
  let inB := (upTo 4).find? fun d =>
    ((s.fe.batches[d]?).getD []).any fun x =>
      x.launch == l && (match x.saved with
        | none => x.bay == bay && x.index / k == set
        | some sid => ((findSpan s sid).map fun sp => sp.bay == bay && sp.set == set).getD false)
  match inB with
  | some d => some d
  | none =>
    ((s.spans.filter fun p => p.2.launch == l && p.2.bay == bay && p.2.set == set).findSome? fun p =>
      match p.2.place with
      | .waiting pier => some (pier / 64)
      | _ => none)

/-- The dies together cover `total` spans of `g` groups in sets of `k` (R247). -/
def diesCover (s : State) (k g total : Nat) : Bool := setsFit k total ((upTo 4).map fun d => dieAvailable s d / max 1 g)

/-- Sets of these numbers of groups fit dies with this room, each going to the die with the most (R247, R248). -/
def setsPack : List Nat → List Nat → Bool
  | [], _ => true
  | n :: rest, dies =>
    let m := dies.foldl max 0
    decide (n ≤ m) && setsPack rest (eraseOnce (· == m) dies ++ [m - n])

/-- The members of each set among some spans. -/
def bySet (us : List (Nat × Span)) : List (List (Nat × Span)) :=
  ((us.map fun p => (p.2.bay, p.2.set)).eraseDups).map fun k => us.filter fun p => (p.2.bay, p.2.set) == k

/-- A launch whose batches must go on before any other, its slot being without hold: a co-resident one that is not whole, or one with a set
of which only some members have been sent (R242, R247, R248). -/
def forced (s : State) : Option Nat :=
  let ls := s.launches.filter fun p => !slotHold (findSlot s p.2.slot)
  match ls.find? fun p => coResident p.2 && unstarted s p.1 && (hasUndispatched s p.1 p.2 || (restorable s p.2).isSome) with
  | some p => some p.1
  | none =>
    (ls.find? fun p =>
      ((openBay p.2).isSome && hasUndispatched s p.1 p.2 && !(offered s p.1 p.2 1).isEmpty) ||
      (((restorable s p.2).bind (·.head?)).map fun x => (setDie s p.1 x.2.bay x.2.set (setSize p.2)).isSome).getD false).map (·.1)

/-- The new spans of a launch's next batch and the die they go to (log 30, DEDUCED). -/
def newBatch (s : State) (l : Nat) (la : Launch) : Option (Nat × List BatchSpan) :=
  let k := setSize la
  let os := offered s l la 64
  match os.head? with
  | none => none
  | some x =>
    let g := bayGroups s l x.bay
    match openBay la with
    | some (_, openN) =>
      match setDie s l x.bay (x.index / k) k with
      | none => none
      | some d =>
        let n := min openN (min 64 (dieAvailable s d) / max 1 g)
        if n = 0 then none else some (d, os.take n)
    | none =>
      let final := match la.symmetry with
        | some sy => walkerDone la sy
        | none => true
      let need := min k os.length * g
      let ready := final || decide (k ≤ os.length)
      let covered := !coResident la || unstarted s l || diesCover s k g ((knownTotal la 0).getD (2 ^ 64))
      let dies := (openDies s l).filter fun d => decide (need ≤ dieAvailable s d)
      match bestDie s dies with
      | none => none
      | some d =>
        if !ready || !covered then none
        else
          let b := takeSpans (min k os.length) g (min 64 (dieAvailable s d)) final os
          if b.isEmpty then none else some (d, b)

/-- The saved spans of a launch's next batch and the die they go to (R266): members of one set, within 64 groups, all of a set's batches going
to one die; a co-resident launch begins once the dies together cover it (R247, R248) (log 30, DEDUCED). -/
def savedBatch (s : State) (l : Nat) (la : Launch) (us : List (Nat × Span)) : Option (Nat × List BatchSpan) :=
  let groups (us : List (Nat × Span)) : Nat := (us.map fun p => bayGroups s l p.2.bay).sum
  match bySet us with
  | [] => none
  | mine :: others =>
    let sp := (mine.head?).map (·.2)
    let g := (sp.map fun sp => bayGroups s l sp.bay).getD 0
    let covered := !coResident la || unstarted s l || setsPack ((mine :: others).map groups) ((upTo 4).map (dieAvailable s))
    let die := match sp.bind fun sp => setDie s l sp.bay sp.set (setSize la) with
      | some d => if g ≤ dieAvailable s d then some d else none
      | none => bestDie s ((openDies s l).filter fun d => decide (groups mine ≤ dieAvailable s d))
    match die with
    | none => none
    | some d =>
      if !covered then none
      else some (d, (mine.take (min 64 (dieAvailable s d) / max 1 g)).map fun p => ⟨l, some p.1, p.2.bay, p.2.index, 0⟩)

/-- The launch after `n` of the spans it offered have been sent. -/
def sentSpans (la : Launch) (bay n : Nat) : Launch :=
  let la := match la.symmetry with
    | some sy => { la with symmetry := some { sy with found := sy.found.drop n, issued := sy.issued + n } }
    | none => if bay = 0 then { la with next := la.next + n } else la
  { la with bays := listSet (fun b => { b with started := b.started + n }) bay la.bays }

/-- A batch joins those of its die. -/
def sendBatch (die : Nat) (b : List BatchSpan) (s : State) : State :=
  modFe (fun fe => { fe with batches := listSet (fun l => l ++ b) die fe.batches }) s

/-- The chosen launch sends its batch: what is left of a set, then saved spans ahead of new ones (R248, R266). -/
def formBatch (l : Nat) (s : State) : Option State :=
  match findLaunch s l with
  | none => none
  | some la =>
    match (if (openBay la).isSome then none else restorable s la) with
    | some us => (savedBatch s l la us).map fun b => sendBatch b.1 b.2 s
    | none =>
      (newBatch s l la).map fun b =>
        sendBatch b.1 b.2 (modLaunch s l fun la => sentSpans la ((b.2.head?.map (·.bay)).getD 0) b.2.length)

/-- The bookkeeping of a decision: the slot chosen at its priority, admission, deferrals (R242, R244) (log 30, DEDUCED). -/
def noteChoice (l : Nat) (deferred : List Nat) (s : State) : State :=
  match findLaunch s l with
  | none => s
  | some la =>
    let s := modFe (fun fe => { fe with lastSlot := listSet (fun _ => la.slot) (launchPriority la) fe.lastSlot }) s
    let s := modLaunch s l fun la => { la with admitted := la.admitted || decide (16 ≤ la.deferrals) }
    deferred.foldl (fun acc m => modLaunch acc m fun la => { la with deferrals := la.deferrals + 1 }) s

/-- BATCH_DECISION: nothing is decided where no candidate's batch can be sent; a decision that goes on with an open set or co-resident launch
defers nobody (R242, R244, R245) (log 30, DEDUCED). -/
def batchDecision (s : State) : State :=
  match forced s with
  | some l => ((formBatch l s).map (noteChoice l [])).getD s
  | none =>
    match arbitrate s with
    | none => s
    | some (l, deferred) => ((formBatch l s).map (noteChoice l deferred)).getD s

/-- BATCH_DECISION (R245). -/
def execBatchDecision (s : State) : Host.Outcome State Fault Refusal := .next (batchDecision s)

/-! ### Placement (R133, R246) -/

/-- Shapes placed one after the other, each on the first pier it fits (log 33, DEDUCED). -/
def placeAll : List Shape → List Usage → Bool
  | [], _ => true
  | sh :: rest, us =>
    match us.findIdx? fun u => (fitQuadrant u sh).isSome with
    | none => false
    | some i => placeAll rest (listSet (fun u => addUsage u sh ((fitQuadrant u sh).getD 0)) i us)

/-- The shapes whose resources are held free: one span of each bay, past the first, whose input is not empty (R133) (log 33, DEDUCED). -/
def heldShapes (s : State) (but : Nat × Nat) : List Shape :=
  (s.launches.map fun p =>
    ((upTo p.2.bays.length).filter fun b => b != 0 && (p.1, b) != but).filterMap fun b =>
      (p.2.bays[b]?).bind fun y => if y.input.isEmpty then none else some (bayShape y)).flatten

/-- The held resources can still be found (log 33, DEDUCED). -/
def holdsRoom (s : State) (but : Nat × Nat) : Bool :=
  let hs := heldShapes s but
  hs.isEmpty || placeAll hs ((upTo 256).map (pierUsage s))

/-- The head of a die's batches is taken off, and its groups off the die's report, which will count them (R245). -/
def popBatch (die g : Nat) (s : State) : State :=
  modFe (fun fe => { fe with
    batches := listSet (List.drop 1) die fe.batches
    reports := listSet (fun n => n - g) die fe.reports }) s

/-- A new span placed on a pier. -/
def placeNew (die : Nat) (x : BatchSpan) (la : Launch) (b : Bay) (pier quad area : Nat) (s : State) : State :=
  let sh := bayShape b
  let units := (freeUnits s pier).take sh.units
  let grans := (freeGranules s pier).take sh.granules
  let sp := newSpan la x b pier quad s.fe.placements area (areaBytes sh) units grans (freeSlots s pier)
  let sid := s.fe.nextSpan
  let s := popBatch die b.groups (passUnits pier la.ctx units s)
  let s := { s with
    spans := keySet sid sp s.spans
    fe := { s.fe with nextSpan := sid + 1, placements := s.fe.placements + 1 } }
  startUnit la sid (modLaunch s x.launch fun la => { la with active := la.active + 1 })

/-- SPAN_PLACE: the first span of a die's batches, where a pier and a context area are free (R246, R259); a saved span has its own step. -/
def spanPlace (die : Nat) (s : State) : State :=
  match ((s.fe.batches[die]?).getD []).head? with
  | none => s
  | some x =>
    match x.saved, findLaunch s x.launch with
    | none, some la =>
      match launchBay la x.bay with
      | none => s
      | some b =>
        match choosePier s die (bayShape b), findArea s (areaBytes (bayShape b)) with
        | some (pier, quad), some area =>
          let s' := placeNew die x la b pier quad area s
          if holdsRoom s' (x.launch, x.bay) then s' else s
        | _, _ => s
    | _, _ => s

/-- SPAN_PLACE (R246). -/
def execSpanPlace (die : Nat) (s : State) : Host.Outcome State Fault Refusal := .next (spanPlace die s)

/-! ### Relaunch (R267) -/

/-- A machine without a span. -/
def withoutSpan (sid : Nat) (s : State) : State := { s with spans := s.spans.filter fun p => p.1 != sid }

/-- The pier on which a killed span starts again, with its starting quadrant: its own where its shape fits, else another of its die (R117,
R267) (log 34, DESIGN CHOICE). -/
def relaunchPier (sid : Nat) (sp : Span) (b : Bay) (s : State) : Option (Nat × Nat) :=
  let s := withoutSpan sid s
  match fitQuadrant (pierUsage s (spanPier sp)) (bayShape b) with
  | some q => some (spanPier sp, q)
  | none => choosePier s (spanPier sp / 64) (bayShape b)

/-- A span on another pier, at the same stage. -/
def movePlace (p : Nat) : SpanPlace → SpanPlace
  | .waiting _ => .waiting p
  | .running _ => .running p
  | x => x

/-- A span started anew on a pier: on its own with the deck units and granules it holds, on another as one newly resident there (R118, R129,
R198, R267). -/
def relaunchOn (sid p quad : Nat) (sp : Span) (b : Bay) (ctx : Nat) (s : State) : State :=
  let rest := withoutSpan sid s
  let own := p == spanPier sp
  let units := if own then sp.deckUnits else (freeUnits rest p).take (bayShape b).units
  let granules := if own then sp.granules else (freeGranules rest p).take (bayShape b).granules
  let since := if own then sp.since else s.fe.placements
  let s := if own then s else modFe (fun fe => { fe with placements := fe.placements + 1 }) (passUnits p ctx units s)
  modSpan s sid fun sp =>
    { startParts b (takeSlots quad b.groups (freeSlots rest p)) sp with
      place := movePlace p sp.place
      since := since
      deckUnits := units
      granules := granules
      relaunches := sp.relaunches + 1 }

/-- SPAN_RELAUNCH: a fresh start at the same coordinates and bay, once a pier of the die has room and what is held for a pipeline's bays
stays free, or where it draws no more than it held (R117, R133, R267); one killed at its restore starts with its unit (log 34, DESIGN
CHOICE). -/
def execSpanRelaunch (sid : Nat) (s : State) : Host.Outcome State Fault Refusal :=
  .next (match findSpan s sid with
    | some sp =>
      match findLaunch s sp.launch with
      | some la =>
        match launchBay la sp.bay with
        | some b =>
          if onPier sp && spanDrained s sid sp && relaunches s la sp then
            match relaunchPier sid sp b s with
            | none => s
            | some (p, q) =>
              let s' := relaunchOn sid p q sp b la.ctx (settleLeaving sid s)
              if pierUsage s' p == pierUsage s p || holdsRoom s' (sp.launch, sp.bay) then startUnit la sid s' else s
          else s
        | none => s
      | none => s
    | none => s)

end Sys2Proof.Machine
end

