-- ==== Sys2Proof/Machine/Waits.lean ====
section
/-!
DEFINITION. When a group that waits may go on, and when it counts as parked for a pre-emption (R130, R252, R254, R261).
-/

namespace Sys2Proof.Machine

/-! ### The item queues of a pipeline launch (R251, R252) -/

/-- The input of a bay is empty and no more will come. -/
def inputEnded (s : State) (l : Nat) (la : Launch) (b : Nat) : Bool :=
  (((launchBay la b).map (·.input.isEmpty)).getD true) && bayFinished s l la (b - 1)

/-- QPOP of a span's bay may go on: an item is there, or none will come. -/
def popReady (s : State) (sp : Span) : Bool :=
  match findLaunch s sp.launch with
  | none => true
  | some la => !(((launchBay la sp.bay).map (·.input.isEmpty)).getD true) || inputEnded s sp.launch la sp.bay

/-- Free items of the output of a span's bay. -/
def pushRoom (s : State) (sp : Span) : Nat :=
  match findLaunch s sp.launch with
  | none => 0
  | some la => ((launchBay la sp.bay).map (·.capacity)).getD 0 - ((launchBay la (sp.bay + 1)).map (·.input.length)).getD 0

/-- Every launch of a list has completed. -/
def launchesDone (s : State) (cs : List Nat) : Bool := cs.all fun c => (findLaunch s c).isNone

/-! ### Wakes (R130) -/

/-- The condition of a group's wait holds (log 72, DEDUCED). -/
def waitReady (s : State) (sid : Nat) (sp : Span) (g : Group) (w : GroupWait) : Bool :=
  match w.wait with
  | .barrier _ _ _ _ => w.woken
  | .counters ts => countersMet g ts
  | .pop => popReady s sp
  | .push n => decide (n ≤ pushRoom s sp)
  | .join cs => launchesDone s cs
  | .pages rs _ => rs.all (rangeResident s (((findLaunch s sp.launch).map (·.ctx)).getD 0))
  | .pmark _ missed => missed || w.woken
  | .yield => !sp.marked
  | .queues ops ps m => queuesMet s sid ops ps m

/-- A wait is a blocking point (R130), or was one since its span was marked (R261). -/
def blockingWait (g : Group) (w : GroupWait) : Bool :=
  w.parked ||
  match w.wait with
  | .barrier _ _ _ _ | .pop | .push _ | .join _ | .pages _ _ | .yield => true
  | .counters ts => remoteWait g ts
  | .pmark _ _ | .queues _ _ _ => false

/-- A slice is parked: dead, at REGANG, or at a blocking point (R261). -/
def sliceParked (g : Group) (k : Nat) : Bool :=
  match g.slices[k]? with
  | none => true
  | some sl => sl.live == 0 || sl.atRegang || g.waits.any fun w => coversSlice w.slice k && blockingWait g w

/-- A group is parked: it has exited, or each of its slices is parked and no memory instruction of it is (R261). -/
def groupParked (g : Group) : Bool := groupExited g || (g.parked.isEmpty && (upTo 8).all (sliceParked g))

/-- A marked span is fully parked (R261). -/
def spanParked (sp : Span) : Bool :=
  sp.marked && sp.trap.isNone && sp.handler.isNone && sp.killed.isNone && sp.groups.all groupParked

/-- Every live group of a running span is blocked at a blocking point, one of them at JOIN (R254). -/
def joinBlocked (s : State) (sid : Nat) (sp : Span) : Bool :=
  let waits := (sp.groups.filter fun g => !groupExited g).map fun g => (g, g.waits)
  (match sp.place with | .running _ => true | _ => false) && sp.trap.isNone && sp.handler.isNone && sp.killed.isNone &&
  sp.groups.all groupParked && (waits.any fun p => p.2.any fun w => match w.wait with | .join _ => true | _ => false) &&
  waits.all fun p => p.2.all fun w => !waitReady s sid sp p.1 w

end Sys2Proof.Machine
end

