-- ==== Sys2Proof/Machine/Raster.lean ====
section
/-!
DEFINITION. The epipolar raster engine: the instructions that post to its queue (R394 to R398, R403), coverage, depth and view intervals
(R374 to R387), and the steps of the engine (R388, R389, R393).
-/

namespace Sys2Proof.Machine

/-! ### View sets (R374) and the raster state (R376) -/

/-- Fields of a view-set entry. -/
def viewWidth (v : BitVec 256) : Nat := bitsOf v.toNat 13 0 + 1
def viewHeight (v : BitVec 256) : Nat := bitsOf v.toNat 27 14 + 1
def viewViews (v : BitVec 256) : Nat := bitsOf v.toNat 33 28 + 1
def viewRows (v : BitVec 256) : Nat := bitsOf v.toNat 37 34 + 1
def viewCh (v : BitVec 256) : Nat := bitsOf v.toNat 44 38
def viewDepth (v : BitVec 256) : Nat := bitsOf v.toNat 50 45

/-- A view-set entry within its limits, for a launch of `records` buffer records. -/
def viewLegal (v : BitVec 256) (records : Nat) : Bool :=
  bitsOf v.toNat 255 51 == 0 && decide (viewCh v ≤ 2 * (viewViews v - 1)) && decide (viewDepth v < records)

/-- The header's panel count, where the header is legal. -/
def viewCount (header : Nat) : Option Nat :=
  let n := bitsOf header 12 0
  if bitsOf header 255 13 = 0 && 1 ≤ n && n ≤ 4096 then some n else none

/-- The issuer's panel table VA; 0 is none (R233). -/
def curPanelVa (s : State) : Nat := ((curLaunch s).map fun la => recField la.record 127 120).getD 0

/-- The parts of the view-set header. -/
def viewHeader (s : State) : List Part := curRun s .load (curPanelVa s + 4096) 32

/-- Bytes read at issue can be read now (log 43, DEDUCED). -/
def readable (s : State) (ps : List Part) : Bool := allReach ps && !partsPoisoned s ps

/-- Panel `p` is within the table. -/
def viewKnown (s : State) (p : Nat) : Bool :=
  match viewCount (bytesToNat (readParts s (viewHeader s))) with
  | some n => decide (p < n)
  | none => false

/-- The parts of a panel's entry. -/
def viewEntry (s : State) (p : Nat) : List Part := curRun s .load (curPanelVa s + 4128 + 32 * p) 32

/-- What naming panel `p` reads: the header, then the entry of a panel that is within the table. -/
def viewPartsIf (within : Bool) (s : State) (p : Nat) : List Part :=
  viewHeader s ++ (if readable s (viewHeader s) && within then viewEntry s p else [])

/-- What ERSET reads. -/
def viewParts (s : State) (p : Nat) : List Part := viewPartsIf (viewKnown s p) s p

/-- What IVST reads: the panel count is taken as it stands (R403). -/
def panelParts (s : State) (p : Nat) : List Part :=
  viewPartsIf (decide (p < bitsOf (bytesToNat (readParts s (viewHeader s))) 12 0)) s p

/-- What the issuer has still to write of the header and of panels' entries is performed: it reads its own writes (R86). -/
def settlePanels (ps : List Nat) (s : State) : State :=
  let s := settleRead (viewHeader s) s
  settleRead ((ps.map (viewEntry s)).flatten) s

/-- The panel count as the header has it, and a panel's entry, unchecked: what IVST compares with (R403). -/
def viewPanels (s : State) : Nat := bitsOf (bytesToNat (readParts s (viewHeader s))) 12 0
def viewRaw (s : State) (p : Nat) : BitVec 256 := BitVec.ofNat 256 (bytesToNat (readParts s (viewEntry s p)))

/-- The entry of a panel once its parts are reached; none where the table is illegal or has no such panel. -/
def viewOf (s : State) (p : Nat) : Option (BitVec 256) :=
  if viewKnown s p then
    let v := viewRaw s p
    if viewLegal v (curRecords s) then some v else none
  else none

/-- Fields of a raster state word. -/
def rsYLast (w : BitVec 64) : Nat := bitsOf w.toNat 63 50
def rsYFirst (w : BitVec 64) : Nat := bitsOf w.toNat 49 36
def rsRow (w : BitVec 64) : Nat := bitsOf w.toNat 31 28
def rsPanel (w : BitVec 64) : Nat := bitsOf w.toNat 27 16
def rsA (w : BitVec 64) : Nat := 2 ^ bitsOf w.toNat 9 8
def rsB (w : BitVec 64) : Nat := 2 ^ bitsOf w.toNat 7 6

/-- The limits of a raster state word on its own. -/
def rsLegal (w : BitVec 64) : Bool :=
  bitsOf w.toNat 35 32 == 0 && bitsOf w.toNat 15 10 == 0 && bitsOf w.toNat 5 0 == 0 && bitsOf w.toNat 9 8 != 3

/-- Its limits against the panel's entry. -/
def rsFits (w : BitVec 64) (v : BitVec 256) : Bool :=
  decide (rsRow w < viewRows v) && decide (rsYFirst w ≤ rsYLast w) && decide (rsYLast w < viewHeight v)

/-! ### Queue of the engine -/

/-- The raster engine queue of a pier. -/
def rasterQueue (s : State) (pier : Nat) : List RasterEntry := (keyFind pier s.raster).getD []

/-- The queue replaced. -/
def setRasterQueue (pier : Nat) (q : List RasterEntry) (s : State) : State := { s with raster := keySet pier q s.raster }

/-- A primitive is not fully rasterised. -/
def primOpen (p : Primitive) : Bool := decide (p.nextY ≤ rsYLast p.state)

/-- A primitive has been begun (R392). -/
def primBegun (p : Primitive) : Bool := p.nextY != rsYFirst p.state || p.resume.isSome

/-- A span's first primitive not fully rasterised. -/
def openPrim (sp : Span) : Option Primitive := sp.prims.find? primOpen

/-- Entries of the queue that take a place: R8 does not say when an entry frees its place, and a primitive the engine has begun takes none
(log 42, DESIGN CHOICE). -/
def rasterPlaces (s : State) (pier : Nat) : Nat :=
  let q := rasterQueue s pier
  let begun := s.spans.filter fun p => placePier p.2.place == some pier && ((openPrim p.2).map primBegun).getD false
  q.length - begun.length

/-- The queue is full (R8). -/
def rasterFull (s : State) : Bool := decide (16 ≤ rasterPlaces s (curPier s))

/-- An entry posted by the issuing group. -/
def postRaster (op : Nat) (k : RasterKind) (s : State) : State :=
  let pier := curPier s
  setRasterQueue pier (rasterQueue s pier ++ [⟨curSid s, curNum s, op, k⟩]) s

/-- An entry that no counter counts: it takes a number of the group's issue order. -/
def postUncounted (k : RasterKind) (s : State) : State :=
  let op := (curGroup s).opCount
  postRaster op k (modCur s fun g => { g with opCount := op + 1 })

/-- A counted entry. -/
def postCounted (cls : OpClass) (lanes : LaneMask) (k : RasterKind) (s : State) : State :=
  let op := (curGroup s).opCount
  postRaster op k (modCur s (issueOp cls .engine lanes))

/-! ### ERSET, ERPRIM, ERFETCH and ERFLUSH (R395 to R398) -/

/-- ERSET once its reads are made. -/
def postState (e : Enc) (w : BitVec 64) (lanes : LaneMask) (s : State) : State :=
  let p := rsPanel w
  if partsPoisoned s (viewParts s p) then faultPoisoned 3 lanes s
  else
    match viewOf s p with
    | none => faultWith 7 0 lanes s
    | some v =>
      if !rsFits w v then faultWith 7 0 lanes s
      else
        let r := (curRecord s (viewDepth v)).getD 0
        let base := bufBase r + bufAux r
        if base % 8 ≠ 0 then faultWith 3 4 lanes s
        else if rasterFull s then s
        else
          let s := modSpan s (curSid s) fun sp => { sp with raster := some (w, v, base) }
          advance (wordLen e) (postUncounted .set s)

/-- ERSET (R395). -/
def execErset (e : Enc) (s : State) : Host.Outcome State Fault Refusal :=
  runForm { rd := .reg 2 2, ra := .unused, rb := .unused, u := .one, xp := .zero } true e
    (guardedOp e fun s =>
      let lanes := actLanes e s
      let w := BitVec.ofNat 64 (readWords (readG (curGroup s)) e.rd.toNat 2)
      if !rsLegal w || curPanelVa s = 0 then faultWith 7 0 lanes s
      else
        wholeIssue lanes true (fun s => [(0, viewParts s (rsPanel w))]) (postState e w lanes) (settlePanels [rsPanel w] s)) s

/-- Word `k` of a primitive record. -/
def primWord (p : BitVec 512) (k : Nat) : Nat := bitsOf p.toNat (32 * k + 31) (32 * k)

/-- Vertex `i`: x and y in 1/256 pixel, d in 2^-16 pixel per view, w as FP32 (R377). -/
def primX (p : BitVec 512) (i : Nat) : Int := signedOf 32 (primWord p (4 * i))
def primY (p : BitVec 512) (i : Nat) : Int := signedOf 32 (primWord p (4 * i + 1))
def primD (p : BitVec 512) (i : Nat) : Int := signedOf 32 (primWord p (4 * i + 2))
def primW (p : BitVec 512) (i : Nat) : Nat := primWord p (4 * i + 3)
def primSeq (p : BitVec 512) : Nat := primWord p 12
def primId (p : BitVec 512) : Nat := primWord p 13
def primForced (p : BitVec 512) : Bool := p.getLsbD 448

/-- A record within the limits of R377. -/
def primLegal (p : BitVec 512) : Bool :=
  let within (v : Int) : Bool := decide (-(2 ^ 23 : Nat) ≤ v) && decide (v < (2 ^ 23 : Nat))
  (upTo 3).all (fun i => within (primX p i) && within (primY p i) && within (primD p i) &&
    decide (0 < primW p i) && decide (primW p i < 0x7F800000)) &&
  bitsOf p.toNat 511 449 == 0

/-- The form of ERPRIM: rd is 0 for a global record and 1 for a deck record. -/
def formErprim (e : Enc) : Form :=
  { rd := .index 2, ra := if e.rd == 0 then .reg 2 2 else .reg 1 1, rb := .imm, u := .one, mem := some ⟨[0, 1], false, false⟩ }

/-- A record posted, once read and checked (R377, R387, R396). -/
def postPrim (e : Enc) (record : Nat) (lanes : LaneMask) (s : State) : State :=
  let p := BitVec.ofNat 512 record
  match (curSpan s).bind fun sp => sp.raster.map fun r => (sp, r) with
  | none => s
  | some (sp, (w, v, base)) =>
    if !primLegal p then faultWith 7 0 lanes s
    else if 16 ≤ sp.prims.length || rasterFull s then s
    else
      let prim : Primitive := ⟨p, w, v, base, rsYFirst w, [], none⟩
      let s := modSpan s (curSid s) fun sp => { sp with prims := sp.prims ++ [prim] }
      advance (wordLen e) (postUncounted .prim s)

/-- ERPRIM (R396). -/
def execErprim (e : Enc) (s : State) : Host.Outcome State Fault Refusal :=
  runForm (formErprim e) true e (guardedOp e fun s =>
    let lanes := actLanes e s
    let g := curGroup s
    match curSpan s with
    | none => s
    | some sp =>
      if sp.raster.isNone then faultWith 7 2 lanes s
      else if e.rd == 0 then
        let va := globalAddr g e 64 0
        if va % 64 ≠ 0 then faultWith 3 4 lanes s
        else
          wholeIssue lanes true (fun s => [(0, curRun s .load va 64)]) (fun s =>
            let ps := curRun s .load va 64
            if partsPoisoned s ps then faultPoisoned 3 lanes s
            else postPrim e (bytesToNat (readParts s ps)) lanes s) (settleRead (curRun s .load va 64) s)
      else
        let off : Int := ((readLoc g 0 (raLoc e)).toNat : Int) + immMem e * 64
        if off < 0 || (deckSize sp : Int) < off + 64 then faultWith 2 5 lanes s
        else if off % 64 != 0 then faultWith 2 4 lanes s
        else
          let s := settleWrites (fun w => lateOf (curSid s) (curNum s) w && lateIn .deck (deckByteKey sp off.toNat) 64 w) s
          if deckPoisoned s sp off.toNat 64 then killPoisoned (curSid s) s
          else postPrim e (bytesToNat (readDeck s sp off.toNat 64)) lanes s) s

/-- ERFETCH (R397). -/
def execErfetch (e : Enc) (s : State) : Host.Outcome State Fault Refusal :=
  runForm { rd := .reg 6 1, ra := .index 8, rb := .unused, u := .zero } true e (fun s =>
    let lanes := actLanes e s
    if !fullGang e s then faultWith 7 11 lanes s
    else if counter (curGroup s) .ld = 63 || rasterFull s then s
    else advance (wordLen e) (postCounted .ld lanes (.fetch e.ra.toNat (locNum (rdLoc e))) s)) s

/-- ERFLUSH (R398). -/
def execErflush (e : Enc) (s : State) : Host.Outcome State Fault Refusal :=
  runForm { rd := .unused, ra := .unused, rb := .unused, u := .one, xp := .zero } true e
    (guardedOp e fun s => if rasterFull s then s else advance (wordLen e) (postUncounted .flush s)) s

/-! ### Coverage and depth (R378 to R380) -/

/-- A covered sample of a slice. -/
structure Sample where
  v : Nat
  x : Nat
  key : Int
  rank : Nat
  /-- w_s, FP32 -/
  w : Nat
  /-- E_1·w_1, E_2·w_2 and the sum of the three, without their common sign -/
  n1 : Nat
  n2 : Nat
  total : Nat
  deriving DecidableEq, Repr

/-- E(i, j) at a point (R378). -/
def edgeAt (x y : Nat → Int) (i j : Nat) (xs ys : Int) : Int := (x j - x i) * (ys - y i) - (y j - y i) * (xs - x i)

/-- An edge's inward side under the tie rule (R379). -/
def edgeInside (x y : Nat → Int) (i j : Nat) (sign value : Int) : Bool :=
  let nx := sign * (y i - y j)
  let ny := sign * (x j - x i)
  decide (0 < sign * value) || (value == 0 && (decide (0 < nx) || (nx == 0 && decide (0 < ny))))

/-- A vertex's w over 2^-149. -/
def wOver (p : BitVec 512) (i : Nat) : Nat :=
  match floatValue fp32 (primW p i) with
  | .fin _ m e => m * 2 ^ (e + 149).toNat
  | _ => 0

/-- A ratio of naturals rounded to FP32; the rounding sets no sticky flag, R48 and R397 naming no receiver (log 76, DEDUCED). -/
def ratioF32 (a b : Nat) (scale : Int) : Nat :=
  if a = 0 then 0 else (roundNum fp32 .rne (quotient false (a * 2 ^ 400) (scale - 400) false b 0)).1

/-- The sample of pixel (x, y) in view v, where the primitive covers it; its rank is given later (R378 to R380, R382) (log 76, DEDUCED). -/
def sampleAt (p : BitVec 512) (ch a v : Nat) (x y : Nat) : Option Sample :=
  let d : Int := 2 * (v : Int) - ch
  let px (i : Nat) : Int := 512 * primX p i + d * primD p i
  let py (i : Nat) : Int := primY p i
  let xs : Int := 2 ^ 17 * (x : Int) + 2 ^ 16
  let ys : Int := 256 * (y : Int) + 128
  let e0 := edgeAt px py 1 2 xs ys
  let e1 := edgeAt px py 2 0 xs ys
  let e2 := edgeAt px py 0 1 xs ys
  let area := e0 + e1 + e2
  let sign : Int := if area < 0 then -1 else 1
  if area == 0 || !(edgeInside px py 1 2 sign e0 && edgeInside px py 2 0 sign e1 && edgeInside px py 0 1 sign e2) then none
  else
    let n0 := e0.natAbs * wOver p 0
    let n1 := e1.natAbs * wOver p 1
    let n2 := e2.natAbs * wOver p 2
    let total := n0 + n1 + n2
    let nd := sign * (e0 * primD p 0 + e1 * primD p 1 + e2 * primD p 2)
    let ar := sign * area
    let r : Int := ((2 * (x : Int) + 1) * ar * 65536 - d * nd) / (2 * ar * 65536)
    some ⟨v, x, a * (r / a), 0, ratioF32 total area.natAbs (-149), n1, n2, total⟩

/-- The covered samples of a view in a slice, by ascending x, each with its rank within its key (R382). -/
def viewSamples (p : BitVec 512) (view : BitVec 256) (a y v : Nat) : List Sample :=
  (upTo (viewWidth view)).foldl (fun acc x =>
    match sampleAt p (viewCh view) a v x y with
    | none => acc
    | some t => acc ++ [{ t with rank := (acc.filter fun u => u.key == t.key).length }]) []

/-- The covered samples of a slice. -/
def sliceSamples (p : Primitive) (y : Nat) : List Sample :=
  ((upTo (viewViews p.view)).map (viewSamples p.record p.view (rsA p.state) y)).flatten

/-- The address of a depth granule (R375). -/
def granuleVa (base : Nat) (view : BitVec 256) (q y x v : Nat) : Nat :=
  base + 8 * (((q * viewHeight view + y) * viewWidth view + x) * viewViews view + v)

/-- The depth test of a sample with depth `w` and sequence id against a granule (R380). -/
def depthPasses (w seq granule : Nat) : Bool :=
  match numCompare (floatValue fp32 w) (floatValue fp32 (granule % 2 ^ 32)) with
  | none => true
  | some .gt => true
  | some .eq => decide (seq ≤ granule / 2 ^ 32)
  | some .lt => false

/-- The read and the write of a sample's granule. -/
def depthTouch (s : State) (sp : Span) (va : Nat) : List Touch :=
  [touchMem s sp 7 .engineRead va 8, touchMem s sp 7 .engineWrite va 8]

/-- One sample tested at a granule it reaches: whether it passes; its write may be late (R90) (log 80, DESIGN CHOICE). -/
def testSample (owner : Nat × Nat × Nat) (d seq : Nat) (t : Sample) (ps : List Part) (s : State) : State × Bool :=
  if depthPasses t.w seq (bytesToNat (readParts s ps)) then
    (enginePuts owner d false ps (natToBytes 4 t.w ++ natToBytes 4 seq) s, true)
  else (s, false)

/-- The samples that pass, each tested in turn. -/
def testSamples (owner : Nat × Nat × Nat) (d seq : Nat) : List (Sample × List Part) → State → List Sample × State
  | [], s => ([], s)
  | (t, ps) :: rest, s =>
    let (s, ok) := testSample owner d seq t ps s
    let (l, s) := testSamples owner d seq rest s
    (if ok then t :: l else l, s)

/-! ### View intervals (R382 to R387) -/

/-- A sample goes on with an open interval whose last sample is `u`, its steps so far in direction `dir`. -/
def joins (single : Bool) (b : Nat) (u t : Sample) (dir : Int) : Bool :=
  let d : Int := (t.x : Int) - u.x
  !single && t.v == u.v + 1 && t.v % b != 0 && decide (d.natAbs ≤ 1) && (d == 0 || dir == 0 || dir == d)

/-- The samples of one key and rank, by ascending view, cut into intervals; `cur` is the open one, its last sample first. -/
def cutViews (single : Bool) (b : Nat) : List Sample → List Sample → Int → List (List Sample)
  | [], cur, _ => if cur.isEmpty then [] else [cur.reverse]
  | t :: rest, cur, dir =>
    match cur with
    | [] => cutViews single b rest [t] 0
    | u :: _ =>
      if joins single b u t dir then
        let d : Int := (t.x : Int) - u.x
        cutViews single b rest (t :: cur) (if d = 0 then dir else d)
      else cur.reverse :: cutViews single b rest [t] 0

/-- Keys and ranks in order: an insertion that keeps a list rising without repeats. -/
def insertKey (k : Int × Nat) : List (Int × Nat) → List (Int × Nat)
  | [] => [k]
  | j :: rest =>
    if k = j then j :: rest
    else if k.1 < j.1 || (k.1 = j.1 && k.2 < j.2) then k :: j :: rest
    else j :: insertKey k rest

/-- The intervals of a slice in the order of R387: their keys, ranks and samples. -/
def sliceRuns (single : Bool) (b : Nat) (ss : List Sample) : List (Int × Nat × List Sample) :=
  let keys := ss.foldl (fun acc t => insertKey (t.key, t.rank) acc) []
  (keys.map fun k => (cutViews single b (ss.filter fun t => t.key == k.1 && t.rank == k.2) [] 0).map fun r => (k.1, k.2, r)).flatten

/-- The representative sample of an interval (R384) (log 76, DEDUCED). -/
def runRep (ch : Nat) (run : List Sample) : Option Sample :=
  (nearestView ch (run.map (·.v))).bind fun v => run.find? fun t => t.v == v

/-- Views after which x changes. -/
def runSteps : List Sample → List Nat
  | t :: u :: rest => if t.x = u.x then runSteps (u :: rest) else t.v :: runSteps (u :: rest)
  | _ => []

/-- A run moves to lower x. -/
def runFalls : List Sample → Bool
  | t :: u :: rest => decide (u.x < t.x) || runFalls (u :: rest)
  | _ => false

/-- Views as a mask. -/
def maskOfViews (l : List Nat) : Nat := l.foldl (fun acc v => acc + 2 ^ v) 0

/-- The interval of a run, its leader's representative in the fetch record (R384 to R386). -/
def intervalOf (p : Primitive) (y : Nat) (leader : List Sample) (follower : Bool) (k : Int × Nat × List Sample) : Interval :=
  let run := k.2.2
  let first := (run.head?.map (·.v)).getD 0
  let last := (run.getLast?.map (·.v)).getD 0
  let x := (run.head?.map (·.x)).getD 0
  let key16 : Nat := (k.1 % (2 ^ 16 : Nat)).toNat
  let (b1, b2, w, rv) := match runRep (viewCh p.view) leader with
    | none => (0, 0, 0, 0)
    | some t => (ratioF32 t.n1 t.total 0, ratioF32 t.n2 t.total 0, t.w, t.v)
  { y := y, key := k.1, rank := k.2.1, first := first
    words := ivOf (maskOfViews (run.map (·.v))) (maskOfViews (runSteps run)) first last (if follower then 1 else 0)
      (if runFalls run then 1 else 0) x (primSeq p.record)
    fetch := [BitVec.ofNat 32 (2 ^ 28 * rsRow p.state + 2 ^ 16 * rsPanel p.state + y), BitVec.ofNat 32 (primId p.record),
      BitVec.ofNat 32 b1, BitVec.ofNat 32 b2, BitVec.ofNat 32 w, BitVec.ofNat 32 (2 ^ 16 * key16 + rv)] }

/-- The intervals of a slice: with a > 1 the first of a key leads the others of that key (R384). -/
def formIntervals (p : Primitive) (y : Nat) (runs : List (Int × Nat × List Sample)) : List Interval :=
  runs.map fun k =>
    let leader := if rsA p.state = 1 then none else runs.find? fun j => j.1 == k.1
    match leader with
    | none => intervalOf p y k.2.2 false k
    | some j => intervalOf p y j.2.2 (j != k) k

/-- A primitive is rasterised in per-view mode (R383). -/
def perView (p : BitVec 512) : Bool := primForced p || (upTo 3).any fun i => decide (65536 ≤ (primD p i).natAbs)

/-- An interval lies before a resume point in the order of R387 (R392) (log 38, DEDUCED). -/
def beforeResume (r : Option (Nat × Int × Nat × Nat)) (i : Interval) : Bool :=
  match r with
  | none => false
  | some (y, key, rank, first) =>
    decide (i.y < y) || (i.y == y && (decide (i.key < key) || (i.key == key && (decide (i.rank < rank) ||
      (i.rank == rank && decide (i.first < first))))))

/-! ### The engine's steps (R381, R387 to R389, R393) -/

/-- Intervals of a span not yet delivered. -/
def undelivered (sp : Span) : Nat := (sp.prims.map fun p => p.intervals.length).sum

/-- The intervals of a span discarded: a fully rasterised primitive is no longer pending. -/
def dropIntervals (sp : Span) : Span :=
  { sp with prims := (sp.prims.map fun p => { p with intervals := [] }).filter primOpen }

/-- An entry that takes intervals: an ERFETCH or an ERFLUSH. -/
def takesIntervals (x : RasterEntry) : Bool :=
  match x.kind with
  | .fetch _ _ | .flush => true
  | _ => false

/-- What a span's intervals are formed for is to be discarded: the next of its entries that takes intervals is an ERFLUSH, or no group is
left to fetch them (log 42, DESIGN CHOICE). -/
def discards (q : List RasterEntry) (sid : Nat) (sp : Span) : Bool :=
  spanExited sp || ((q.find? fun x => x.sid == sid && takesIntervals x).map fun x => x.kind == .flush).getD false

/-- Rasterisation of a span waits: its 256 places are full, or a completion cause stopped it (R387, R393) (log 42, DESIGN CHOICE). -/
def rasterWaits (s : State) (q : List RasterEntry) (sid : Nat) : Bool :=
  match findSpan s sid with
  | none => false
  | some sp => (isBlocked sp 4 && sp.killed.isNone) || (decide (256 ≤ undelivered sp) && !discards q sid sp)

/-- A span's entries stand still: the first of them is a primitive whose rasterisation waits (R387). -/
def rasterStuck (s : State) (q : List RasterEntry) (sid : Nat) : Bool :=
  rasterWaits s q sid && ((q.find? fun x => x.sid == sid).map fun x => x.kind == .prim).getD false

/-- An ERFETCH may pass earlier entries of its span: 32 intervals stand ready and no earlier entry takes intervals; others than primitives
and ERSETs it passes only where they stand behind a primitive that waits for it (R387) (log 43, DEDUCED). -/
def fetchPasses (s : State) (q mine : List RasterEntry) (sid : Nat) : Bool :=
  ((findSpan s sid).map fun sp => decide (32 ≤ undelivered sp)).getD true && !mine.any takesIntervals &&
    (rasterStuck s q sid || mine.all fun b => b.kind == .prim || b.kind == .set)

/-- The ERSETs and IVSTs of a fully parked span complete before its save, though its primitives wait (R392) (log 43, DEDUCED). -/
def savePasses (s : State) (q mine : List RasterEntry) (sid : Nat) : Bool :=
  ((findSpan s sid).map spanParked).getD false && rasterStuck s q sid && mine.all fun b => b.kind == .prim

/-- Whether an entry may act, given those before it. A span's entries act in posting order (R389), and the wait of one span's rasterisation
delays no other span (R387) (log 43, DEDUCED). -/
def rasterReady (s : State) (q before : List RasterEntry) (x : RasterEntry) : Bool :=
  let mine := before.filter fun b => b.sid == x.sid
  (before.all fun b => b.sid == x.sid || rasterStuck s q b.sid) &&
  match x.kind with
  | .prim => mine.isEmpty && !rasterWaits s q x.sid
  | .fetch _ _ => mine.isEmpty || fetchPasses s q mine x.sid
  | .flush => mine.isEmpty
  | .set | .store _ _ _ _ => mine.isEmpty || savePasses s q mine x.sid

/-- The first entry of a kind that may act, with those before and after it (log 42, DESIGN CHOICE). -/
def rasterPick (s : State) (q : List RasterEntry) (kind : RasterKind → Bool) :
    List RasterEntry → List RasterEntry → Option (List RasterEntry × RasterEntry × List RasterEntry)
  | _, [] => none
  | before, x :: rest =>
    if kind x.kind && rasterReady s q before x then some (before, x, rest) else rasterPick s q kind (before ++ [x]) rest

/-- The entry of a pier's queue that a step serves. -/
def rasterNext (s : State) (pier : Nat) (kind : RasterKind → Bool) : Option (List RasterEntry × RasterEntry × List RasterEntry) :=
  rasterPick s (rasterQueue s pier) kind [] (rasterQueue s pier)

/-- A span's first open primitive rewritten, or removed. -/
def modOpenPrim (f : Primitive → Option Primitive) (sp : Span) : Span :=
  let before := sp.prims.takeWhile fun p => !primOpen p
  match sp.prims.dropWhile fun p => !primOpen p with
  | [] => sp
  | p :: rest => { sp with prims := before ++ (f p).toList ++ rest }

/-- A completion cause of the depth plane, not tied to a group: the undelivered intervals are discarded and rasterisation waits for RTE
(R393) (log 43, DEDUCED). -/
def rasterCause (sid : Nat) (c : Cause) (s : State) : State :=
  completionCause sid none c 0 (some 4) (noteError c (modSpan s sid dropIntervals))

/-- A late write is a depth test's of a pier's engine: its entry is not an operation of a group's counters. -/
def lateTest (s : State) (pier : Nat) (w : Late) : Bool :=
  match w.owner with
  | none => false
  | some (sid, g, op) =>
    ((findSpan s sid).bind fun sp => placePier sp.place) == some pier && ((findGroup s sid g).bind fun x => findOp x op).isNone

/-- The depth tests of a pier's engine are performed: before the engine goes on (R388, R389). -/
def settleTests (pier : Nat) (s : State) : State := settleWrites (lateTest s pier) s

/-- A slice's samples tested where a free bit says so, once its engine has met a fault (R360 of another engine; log 9, DESIGN CHOICE)
(log 43, DEDUCED). -/
def someTested (owner : Nat × Nat × Nat) (seq d : Nat) : Nat → List (Sample × List Part) → State → State
  | _, [], s => s
  | i, (t, ps) :: rest, s =>
    someTested owner seq d (i + 1) rest
      (if !ps.isEmpty && Sys2Proof.Config.freeBit (2 ^ 64 * d + i) then (testSample owner d seq t ps s).1 else s)

/-- What a slice of a primitive comes to. -/
inductive SliceResult where
  | wait (p : Part)
  | fail (c : Cause) (s : State)
  | done (is : List Interval) (s : State)

/-- A slice of a primitive of an entry: every covered sample is tested, then the intervals are formed (R381) (log 42, DESIGN CHOICE). -/
def rasterSlice (sp : Span) (owner : Nat × Nat × Nat) (p : Primitive) (s : State) : SliceResult :=
  let y := p.nextY
  let ss := sliceSamples p y
  let touched := ss.map fun t => (t, depthTouch s sp (granuleVa p.depthBase p.view (rsRow p.state) y t.x t.v))
  let parts := touched.map fun x => (x.1, if (firstStop x.2).isNone then ((x.2.head?).map touchParts).getD [] else [])
  match (firstStop (touched.map (·.2)).flatten).map (turnTouchOf s (.raster (spanPier sp)) 7) with
  | some (.wait part) => .wait part
  | some (.fail c) =>
    let (d, s) := draw s
    .fail c (someTested owner (primSeq p.record) d 0 parts s)
  | _ =>
    let (d, s) := draw (noteTouch sp (spanCtx s sp) (touched.map (·.2)).flatten s)
    let (passed, s) := testSamples owner d (primSeq p.record) parts s
    .done (formIntervals p y (sliceRuns (perView p.record) (rsB p.state) passed)) s

/-- A primitive after a slice, for whose intervals `room` places are free: where they do not all fit, the slice is rasterised again once
ERFETCH has made room, from the next interval on (R387) (log 42, DESIGN CHOICE). -/
def slicedPrim (discard : Bool) (room : Nat) (is : List Interval) (p : Primitive) : Primitive :=
  let new := is.filter fun i => !beforeResume p.resume i
  if discard then { p with nextY := p.nextY + 1, intervals := [] }
  else
    match new.drop room with
    | [] => { p with nextY := p.nextY + 1, intervals := p.intervals ++ new }
    | i :: _ => { p with intervals := p.intervals ++ new.take room, resume := some (i.y, i.key, i.rank, i.first) }

/-- A primitive while it is pending. -/
def stillPending (p : Primitive) : Option Primitive := if primOpen p || !p.intervals.isEmpty then some p else none

/-- The state and the queue after the open primitive of entry `x` has acted. -/
def rasterPrim (pier : Nat) (before : List RasterEntry) (x : RasterEntry) (rest : List RasterEntry) (s : State) : State :=
  let s := settleTests pier s
  match findSpan s x.sid with
  | none => setRasterQueue pier (before ++ rest) s
  | some sp =>
    match openPrim sp with
    | none => setRasterQueue pier (before ++ rest) s
    | some p =>
      let gone (s : State) : State := setRasterQueue pier (before ++ rest) (modSpan s x.sid (modOpenPrim fun _ => none))
      if isBlocked sp 4 then gone s
      else
        match rasterSlice sp (x.sid, x.g, x.op) p s with
        | .wait part => waitAt (.raster pier) s sp part
        | .fail c s => rasterCause x.sid c (gone (endWaits (.raster pier) s))
        | .done is s =>
          let discard := discards (rasterQueue s pier) x.sid sp
          let q := slicedPrim discard (256 - undelivered sp) is p
          let s := modSpan s x.sid fun sp => modOpenPrim (fun _ => stillPending q) (if discard then dropIntervals sp else sp)
          if primOpen q then s else setRasterQueue pier (before ++ rest) s

/-- RASTER_PRIMITIVE: an ERSET takes effect, or a slice of a primitive is rasterised (R381, R387) (log 42, DESIGN CHOICE). -/
def rasterStep (pier : Nat) (s : State) : State :=
  match rasterNext s pier fun k => k == .set || k == .prim with
  | none => s
  | some (before, x, rest) =>
    if x.kind == .set then setRasterQueue pier (before ++ rest) s else rasterPrim pier before x rest s

/-- The next `n` undelivered intervals of a span's primitives taken. -/
def takeIntervals : Nat → List Primitive → List Interval × List Primitive
  | _, [] => ([], [])
  | n, p :: rest =>
    let mine := p.intervals.take n
    let p' := { p with intervals := p.intervals.drop n }
    let (more, rest') := takeIntervals (n - mine.length) rest
    (mine ++ more, if primOpen p' || !p'.intervals.isEmpty then p' :: rest' else rest')

/-- What lane `i` receives (R386). -/
def fetchWrites (iv rd i : Nat) (x : Option Interval) : List OpWrite :=
  let (words, rec) := match x with
    | some t => (t.words, t.fetch)
    | none => (ivEmpty, [0, 0xFFFFFFFF, 0, 0, 0, 0])
  .interval iv i words :: regWrites (.lane rd) i 0 rec

/-- ERFETCH_COMPLETE; the roundings of what it delivers set no sticky flag (R387, R397) (log 76, DEDUCED). -/
def fetchStep (pier : Nat) (s : State) : State :=
  match rasterNext s pier fun k => match k with
    | .fetch _ _ => true
    | _ => false with
  | some (before, ⟨sid, g, op, .fetch iv rd⟩, rest) =>
    let s := setRasterQueue pier (before ++ rest) (settleTests pier s)
    match findSpan s sid with
    | none => s
    | some sp =>
      let (is, prims) := takeIntervals 32 sp.prims
      let s := modSpan s sid fun sp => { sp with prims := prims }
      let ws := ((upTo 32).map fun i => fetchWrites iv rd i is[i]?).flatten
      completeOp sid g op (modGroup s sid g (modOp op fun o => { o with writes := ws }))
  | _ => s

/-- ERFLUSH_COMPLETE (R389, R398). -/
def flushStep (pier : Nat) (s : State) : State :=
  match rasterNext s pier fun k => k == .flush with
  | none => s
  | some (before, x, rest) => setRasterQueue pier (before ++ rest) (modSpan (settleTests pier s) x.sid dropIntervals)

/-! ### IVST (R388, R403) -/

/-- The interval index of an IVST: the XP's rc field, 0 without XP. -/
def ivstIndex (e : Enc) : Nat := rcField e

/-- The form of IVST through the record its rb field names. -/
def formIvst (e : Enc) (s : State) : Form := { formRecord false [0, 2] e s with ra := .reg 1 1, rc := .bits }

/-- Panel, vertical row and y of a slice word (R386). -/
def sliceRow (w : Word) : Nat := w.toNat / 2 ^ 28
def slicePanel (w : Word) : Nat := w.toNat / 2 ^ 16 % 2 ^ 12
def sliceY (w : Word) : Nat := w.toNat % 2 ^ 16

/-- The element of view `v` of an interval in slice `y` (R403). -/
def ivstTexel (r : BitVec 320) (iv : List Word) (y v : Nat) : Texel := borderAll r true (ivPixel iv v) y v

/-- The colour parts of a lane at issue. -/
def ivstParts (s : State) (r : BitVec 320) (iv : List Word) (y : Nat) : List Part :=
  ((viewsOf (ivMask iv)).map fun v =>
    match ivstTexel r iv y v with
    | .at x y z =>
      (if bufEnc r = 2 then curRun s .load (scaleVa r x y z) 1 else []) ++
        runParts s .store ((storeRuns (curPattern s r) r x y z).map (·.2))
    | _ => []).flatten

/-- What a lane of IVST stores, with its number. -/
def ivstItem (e : Enc) (r : BitVec 320) (s : State) (lane : Nat) : StoreItem :=
  let g := curGroup s
  let slice := readLoc g lane (raLoc e)
  { interval := readInterval g (ivstIndex e) lane
    colour := (upTo (elemRegs r)).map fun c => readLoc g lane (locAdd c (rdLoc e))
    slice := slice
    view := viewRaw s (slicePanel slice) }

/-- IVST once its view-set entries are read: the colour addresses are checked and the entry posted. -/
def ivstIssue (e : Enc) (r : BitVec 320) (lanes : LaneMask) (s : State) : State :=
  let ls := laneList lanes
  let slices := ls.map fun l => readLoc (curGroup s) l (raLoc e)
  let items := ls.map (ivstItem e r s)
  if slices.any fun w => partsPoisoned s (panelParts s (slicePanel w)) then faultPoisoned 3 lanes s
  else if slices.any fun w => decide (viewPanels s ≤ slicePanel w) || decide (viewRows (viewRaw s (slicePanel w)) ≤ sliceRow w) then
    faultWith 7 0 lanes s
  else if items.any fun i => (viewsOf (ivMask i.interval)).any fun v => ivstTexel r i.interval (sliceY i.slice) v == .fault then
    faultWith 3 5 lanes s
  else
    wholeIssue lanes false (fun s => (ls.zip items).map fun p => (p.1, ivstParts s r p.2.interval (sliceY p.2.slice))) (fun s =>
      let release := memOrder e == 2 && decide (memScope e ≤ 1)
      advance (wordLen e) (postCounted .st lanes (.store e.rb.toNat release items 0) s)) s

/-- IVST (R403). -/
def execIvst (e : Enc) (s : State) : Host.Outcome State Fault Refusal :=
  runForm (formIvst e s) (!memRp e && decide (ivstIndex e < 8)) e (fun s =>
    let lanes := actLanes e s
    match curRecord s e.rb.toNat with
    | none => s
    | some r =>
      if bufReadOnly r || bufEnc r = 3 then faultWith 3 7 lanes s
      else if lanes != 0 && curPanelVa s = 0 then faultWith 7 0 lanes s
      else if counter (curGroup s) .st = 63 || rasterFull s then s
      else
        wholeIssue lanes false (fun s => (laneList lanes).map fun l => (l, panelParts s (slicePanel (readLoc (curGroup s) l (raLoc e)))))
          (ivstIssue e r lanes) (settlePanels ((laneList lanes).map fun l => slicePanel (readLoc (curGroup s) l (raLoc e))) s)) s

/-- The views an IVST serves, in order. -/
def ivstViews (items : List StoreItem) : List (StoreItem × Nat) :=
  (items.map fun i => (viewsOf (ivMask i.interval)).map fun v => (i, v)).flatten

/-- What one view of an IVST comes to; `true` marks a stop at the depth plane. -/
def ivstView (s : State) (sp : Span) (owner : Nat × Nat × Nat) (d : Nat) (r : BitVec 320) (release : Bool) (i : StoreItem) (v : Nat) :
    Except (Bool × Touch) (State × Flags) :=
  let x := ivPixel i.interval v
  let y := sliceY i.slice
  let store : Except (Bool × Touch) (State × Flags) :=
    match engineStore s sp owner d 3 false r release (ivstTexel r i.interval y v) (listChannel r i.colour) with
    | .ok z => .ok z
    | .error t => .error (false, t)
  if bufOwned r then
    if x < 0 || (viewWidth i.view : Int) ≤ x || viewViews i.view ≤ v then .ok (s, noFlags)
    else
      match touchMem s sp 7 .engineRead (granuleVa (bufBase r + bufAux r) i.view (sliceRow i.slice) y x.toNat v) 8 with
      | .ok ps => if bytesToNat (readParts s ps) / 2 ^ 32 = ivSeq i.interval then store else .ok (s, noFlags)
      | t => .error (true, t)
  else store

/-- The views of an IVST served in order until one is not yet performed or one stops (R90, R94) (log 43, DEDUCED). -/
def ivstRun (sp : Span) (owner : Nat × Nat × Nat) (d : Nat) (r : BitVec 320) (release : Bool) :
    List (StoreItem × Nat) → Nat → Flags → State → State × Flags × Nat × RunEnd
  | [], n, fl, s => (s, fl, n, .over)
  | (i, v) :: rest, n, fl, s =>
    match ivstView s sp owner d r release i v with
    | .ok (s, f) =>
      if hasLate owner s then (s, fl ||| f, n + 1, .paused) else ivstRun sp owner d r release rest (n + 1) (fl ||| f) s
    | .error t => (s, fl, n, .stopped t.1 t.2)

/-- IVST_PERFORM: the views go on, and the operation completes once every granule of its stores is performed (R388, R389, R403). -/
def ivstStep (pier : Nat) (s : State) : State :=
  match rasterNext s pier fun k => match k with
    | .store _ _ _ _ => true
    | _ => false with
  | some (before, ⟨sid, g, op, .store buf release items served⟩, rest) =>
    match findSpan s sid with
    | none => setRasterQueue pier (before ++ rest) s
    | some sp =>
      let r := ((findLaunch s sp.launch).bind fun la => la.buffers[buf]?).getD 0
      let (d, s) := draw (settleWrites (lateOfOp (sid, g, op)) (settleTests pier s))
      let (s, fl, n, stop) := ivstRun sp (sid, g, op) d r release ((ivstViews items).drop served) served noFlags s
      let s := modGroup s sid g (modOp op fun o => { o with flags := o.flags ||| fl })
      let stays (s : State) : State := setRasterQueue pier (before ++ ⟨sid, g, op, .store buf release items n⟩ :: rest) s
      let ends (s : State) : State := completeOp sid g op (setRasterQueue pier (before ++ rest) s)
      match stop with
      | .paused => stays s
      | .over => ends s
      | .stopped depth t =>
        match depth, turnTouchOf s (.raster pier) (if depth then 7 else 3) t with
        | _, .wait p => waitAt (.raster pier) (stays s) sp p
        | true, .fail c => rasterCause sid c (ends (endWaits (.raster pier) s))
        | false, .fail c => ends (modGroup (endWaits (.raster pier) s) sid g (modOp op fun o => { o with cause := some c }))
        | _, _ => ends s
  | _ => s

/-- RASTER_PRIMITIVE. -/
def execRasterPrimitive (pier : Nat) (s : State) : Host.Outcome State Fault Refusal := .next (rasterStep pier s)

/-- ERFETCH_COMPLETE. -/
def execErfetchComplete (pier : Nat) (s : State) : Host.Outcome State Fault Refusal := .next (fetchStep pier s)

/-- IVST_PERFORM. -/
def execIvstPerform (pier : Nat) (s : State) : Host.Outcome State Fault Refusal := .next (ivstStep pier s)

/-- ERFLUSH_COMPLETE. -/
def execErflushComplete (pier : Nat) (s : State) : Host.Outcome State Fault Refusal := .next (flushStep pier s)

end Sys2Proof.Machine
end

