-- ==== Sys2Proof/Machine/Context.lean ====
section
/-!
DEFINITION. The context image as it lies in a span's area (R260, R263, R264, R392): its sections written at a save and read back at a restore.

A byte of the image is none where R260 names what a section holds and gives its bits no place: the save writes a free value there, and the
restore takes those contents from the record of the span (log 10, DESIGN CHOICE).
-/

namespace Sys2Proof.Machine

/-- Bytes of a section of the image. -/
abbrev ImageBytes := List (Option Byte)

/-- Bytes whose places the spec gives. -/
def laidOut (bs : List Byte) : ImageBytes := bs.map some

/-- Bytes whose contents have no places. -/
def unplaced (n : Nat) : ImageBytes := List.replicate n none

/-- The next multiple of `k` from `n` on. -/
def roundUp (k n : Nat) : Nat := (n + k - 1) / k * k

/-- A section brought to a multiple of `k` bytes. -/
def fillTo (k : Nat) (bs : ImageBytes) : ImageBytes := bs ++ unplaced (roundUp k bs.length - bs.length)

/-- Words as bytes, and back. -/
def wordBytes (ws : List Word) : List Byte := (ws.map fun w => natToBytes 4 w.toNat).flatten
def byteWords (bs : List Byte) : List Word := wordsOf (bs.length / 4) (bytesToNat bs)

/-! ### The area (R259) -/

/-- The bytes of an area from `a` on that lie below the end of HBM, of `n`. -/
def areaLow (a n : Nat) : Nat := if a < hbmBytes then min n (hbmBytes - a) else n

/-- Bytes written to an area from address `a` on. -/
def areaPut (a : Nat) (bs : List Byte) (s : State) : State :=
  let n := areaLow a bs.length
  writeMem (areaKey (a + n)) (bs.drop n) (writeMem (areaKey a) (bs.take n) s)

/-- `n` bytes of an area from address `a` on. -/
def areaGet (s : State) (a n : Nat) : List Byte :=
  let k := areaLow a n
  cellRange emptyByte s.mem (areaKey a) k ++ cellRange emptyByte s.mem (areaKey (a + k)) (n - k)

/-- An image's bytes with its unplaced ones free. -/
def freeBytes : Nat → ImageBytes → List Byte
  | _, [] => []
  | d, b :: rest => b.getD ((Sys2Proof.Config.freeWord d).setWidth 8) :: freeBytes (d + 1) rest

/-- An image written to the area. -/
def putImage (a : Nat) (im : ImageBytes) (s : State) : State :=
  areaPut a (freeBytes s.fresh im) { s with fresh := s.fresh + im.length }

/-! ### The fixed sections -/

/-- A reservation's 64 bytes (R260, R320). -/
def resImage (r : Reservation) : List Byte := natToBytes 32 r.record.toNat ++ natToBytes 8 r.streamBase.toNat ++ List.replicate 24 0

/-- A decoder table's 128 bytes; those of one not loaded hold nothing. -/
def tableImage : Option (BitVec 1024) → ImageBytes
  | some t => laidOut (natToBytes 128 t.toNat)
  | none => unplaced 128

/-- The next undelivered interval of a primitive as bits [38:0], with begun in [39] (R392). -/
def resumeBits : Option (Nat × Int × Nat × Nat) → Nat
  | none => 0
  | some (y, key, rank, first) => y % 2 ^ 14 + 2 ^ 14 * (key % (2 ^ 16 : Nat)).toNat + 2 ^ 30 * (rank % 8) + 2 ^ 33 * (first % 64) + 2 ^ 39

/-- The resume point that those bits hold. -/
def resumeOf (n : Nat) : Option (Nat × Int × Nat × Nat) :=
  if n.testBit 39 then some (bitsOf n 13 0, signedOf 16 (bitsOf n 29 14), bitsOf n 32 30, bitsOf n 38 33) else none

/-- A saved primitive's 64 bytes. -/
def primImage (p : Primitive) : List Byte := natToBytes 57 p.record.toNat ++ natToBytes 7 (resumeBits p.resume)

/-- The raster section: header and records, 1,088 bytes (R392). -/
def rasterImage (sp : Span) : List Byte :=
  let (word, valid) := match sp.raster with
    | some (w, _, _) => (w.toNat, 1)
    | none => (0, 0)
  let bs := natToBytes 4 sp.prims.length ++ natToBytes 8 word ++ natToBytes 52 valid ++ (sp.prims.map primImage).flatten
  bs ++ List.replicate (1088 - bs.length) 0

/-! ### The groups -/

/-- The on-chip stack entries of a slice, the oldest first as in a spill block, 512 bytes (R125) (log 10, DESIGN CHOICE). -/
def stackImage (sl : Slice) : ImageBytes :=
  let bs := (sl.stack.reverse.map stackEntryBytes).flatten
  laidOut bs ++ unplaced (512 - bs.length)

/-- The words of the interval registers, by register and then by lane (log 10, DESIGN CHOICE). -/
def intervalWords (g : Group) : List Word := ((upTo 256).map fun i => readInterval g (i / 32) (i % 32)).flatten

/-- A group's bytes: the header, g registers, on-chip stacks, interval registers, and lane registers by register and then by lane (R260)
(log 10, DESIGN CHOICE). -/
def groupImage (g : Group) : ImageBytes :=
  unplaced 256 ++ laidOut (wordBytes (cellRange 0 g.gregs 0 64)) ++ (g.slices.map stackImage).flatten ++
    laidOut (wordBytes (intervalWords g)) ++ laidOut (wordBytes (cellRange 0 g.vregs 0 (32 * g.alloc)))

/-- The bytes of a group. -/
def groupSize (g : Group) : Nat := 10752 + 128 * g.alloc

/-! ### The operand buffer (R264) -/

/-- The dense reservations of a span: valid and in mode 1, so that neither an empty nor a coded one has contents to save (R260, R264, R320). -/
def denseRes (sp : Span) : List Reservation := sp.reservations.filter fun r => resValid r && resMode r == 1

/-- Bytes of the dense reservations. -/
def denseSize (sp : Span) : Nat := 1024 * ((denseRes sp).map resSize).sum

/-- The contents of the dense reservations, by number. -/
def denseImage (s : State) (sp : Span) : List Byte := ((denseRes sp).map fun r => readRes s sp r 0 (1024 * resSize r)).flatten

/-- Contents read back into dense reservations. -/
def putDense (sp : Span) : List Reservation → List Byte → State → State
  | [], _, s => s
  | r :: rest, bs, s => putDense sp rest (bs.drop (1024 * resSize r)) (writeRes sp r 0 (bs.take (1024 * resSize r)) s)

/-! ### The caisson (R263) -/

/-- Room that an entry's descriptor and data take (R263) (log 36, DEDUCED). -/
def caissonSize (n : Nat) : Nat := 16 + roundUp 16 n

/-- A caught remote load: its results are still to be written. -/
def caughtLoad (o : OpRec) : Bool := o.remoteLoad && !o.done

/-- The words a load's results hold. -/
def resultWords : OpWrite → List Word
  | .lane _ _ v => [v]
  | .group _ v => [v]
  | .load _ _ _ count signed size ps => loadWords signed size count (bytesToNat (pieceBytes ps))
  | _ => []

/-- A result with its words read back, and the words left. -/
def readResult (w : OpWrite) (ws : List Word) : OpWrite × List Word :=
  match w with
  | .lane r l _ => (.lane r l ((ws.head?).getD 0), ws.drop 1)
  | .group r _ => (.group r ((ws.head?).getD 0), ws.drop 1)
  | .load grp r l count _ _ _ => (.load grp r l count false (4 * count) [.got (wordBytes (ws.take count))], ws.drop count)
  | w => (w, ws)

/-- Results with their words read back. -/
def readResults : List OpWrite → List Word → List OpWrite
  | [], _ => []
  | w :: rest, ws =>
    let (w, ws) := readResult w ws
    w :: readResults rest ws

/-- Words that a result takes. -/
def resultCount : OpWrite → Nat
  | .lane _ _ _ => 1
  | .group _ _ => 1
  | .load _ _ _ count _ _ _ => count
  | _ => 0

/-- Bytes a remote load's results take. -/
def loadBytes (o : OpRec) : Nat := 4 * (o.writes.map resultCount).sum

/-- The caisson's bytes for the remote loads, caught first (R263) (log 36, DEDUCED). -/
def loadsSize (sp : Span) : Nat :=
  ((sp.groups.map fun g => ((g.ops.filter caughtLoad).map fun o => caissonSize (loadBytes o)).sum)).sum

/-- An entry: its descriptor and its data, padded to 16 bytes. -/
def entryImage (bs : List Byte) : ImageBytes := unplaced 16 ++ fillTo 16 (laidOut bs)

/-- The caisson: the remote loads by group and issue order, then the caught transfers. -/
def caissonImage (sp : Span) (im : SavedImage) : ImageBytes :=
  (sp.groups.map fun g => ((g.ops.filter caughtLoad).map fun o => entryImage (wordBytes (o.writes.map resultWords).flatten)).flatten).flatten ++
    (im.caisson.map fun e => entryImage e.2.data.flatten).flatten

/-- A list of bytes cut into parts of the lengths of `ls`. -/
def cutLike : List (List Byte) → List Byte → List (List Byte)
  | [], _ => []
  | l :: ls, bs => bs.take l.length :: cutLike ls (bs.drop l.length)

/-- Remote loads with their data read back from address `a` on, and the address after them. -/
def readLoads (s : State) : Nat → List OpRec → List OpRec × Nat
  | a, [] => ([], a)
  | a, o :: rest =>
    if caughtLoad o then
      let ws := byteWords (areaGet s (a + 16) (loadBytes o))
      let (os, b) := readLoads s (a + caissonSize (loadBytes o)) rest
      ({ o with writes := readResults o.writes ws } :: os, b)
    else
      let (os, b) := readLoads s a rest
      (o :: os, b)

/-- The groups with their remote loads read back, and the address after them. -/
def readGroupLoads (s : State) : Nat → List Group → List Group × Nat
  | a, [] => ([], a)
  | a, g :: rest =>
    let (os, b) := readLoads s a g.ops
    let (gs, c) := readGroupLoads s b rest
    ({ g with ops := os } :: gs, c)

/-- Caught transfers with their data read back. -/
def readCaught (s : State) : Nat → List (Nat × TransferEntry) → List (Nat × TransferEntry)
  | _, [] => []
  | a, (q, t) :: rest =>
    let n := (t.data.map (·.length)).sum
    (q, { t with data := cutLike t.data (areaGet s (a + 16) n) }) :: readCaught s (a + caissonSize n) rest

/-! ### The whole image (R260) -/

/-- Where the deck's section begins, past the five fixed ones and the tag table. -/
def deckAt (sp : Span) : Nat := 7744 + roundUp 64 (8 * sp.tags.length)

/-- Where the operand buffer's, the caisson's and the groups' sections begin. -/
def denseAt (sp : Span) : Nat := deckAt sp + deckSize sp
def caissonAt (sp : Span) : Nat := denseAt sp + denseSize sp
def groupsAt (sp : Span) (im : SavedImage) : Nat := roundUp 64 (caissonAt sp + im.caissonBytes)

/-- The bytes of a span's image. -/
def imageLength (sp : Span) (im : SavedImage) : Nat := groupsAt sp im + (sp.groups.map groupSize).sum

/-- The image of a span, in the order of R260. -/
def imageOf (s : State) (sp : Span) (im : SavedImage) : ImageBytes :=
  unplaced 512 ++ laidOut ((sp.reservations.map resImage).flatten) ++ (sp.tables.map tableImage).flatten ++ laidOut (rasterImage sp) ++
    unplaced 4096 ++ fillTo 64 (unplaced (8 * sp.tags.length)) ++ laidOut (readDeck s sp 0 (deckSize sp)) ++ laidOut (denseImage s sp) ++
    fillTo 64 (caissonImage sp im) ++ (sp.groups.map groupImage).flatten

/-! ### Read back (R266 step 1) -/

/-- A reservation read back. -/
def readReservation (s : State) (a : Nat) : Reservation :=
  let bs := areaGet s a 40
  ⟨BitVec.ofNat 256 (bytesToNat (bs.take 32)), BitVec.ofNat 57 (bytesToNat (bs.drop 32))⟩

/-- The decoder tables read back. -/
def readTables (s : State) (a : Nat) (ts : Tables) : Tables :=
  mapFrom (fun k t => t.map fun _ => BitVec.ofNat 1024 (bytesToNat (areaGet s (a + 128 * k) 128))) 0 ts

/-- The raster state read back; its view-set entry and depth base are those of the record. -/
def readRaster (s : State) (a : Nat) (old : Option (BitVec 64 × BitVec 256 × Nat)) : Option (BitVec 64 × BitVec 256 × Nat) :=
  let h := bytesToNat (areaGet s a 13)
  if bitsOf h 103 96 = 0 then none else some (BitVec.ofNat 64 (bitsOf h 95 32), (old.map (·.2)).getD (0, 0))

/-- The pending primitives read back. -/
def readPrims (s : State) (a : Nat) (ps : List Primitive) : List Primitive :=
  mapFrom (fun k p =>
    let n := bytesToNat (areaGet s (a + 64 * (k + 1)) 64)
    { p with record := BitVec.ofNat 512 (bitsOf n 455 0), resume := resumeOf (bitsOf n 511 456) }) 0
    (ps.take (bytesToNat (areaGet s a 4)))

/-- A slice's on-chip stack read back. -/
def readStack (s : State) (a : Nat) (sl : Slice) : Slice :=
  { sl with stack := ((upTo sl.stack.length).map fun i => stackEntryOf (areaGet s (a + 16 * i) 16)).reverse }

/-- A group's registers written from the words of an image: interval registers of six words each. -/
def putIntervals : Nat → List Word → Group → Group
  | 0, _, g => g
  | n + 1, ws, g => putIntervals n ws (writeInterval (n / 32) (n % 32) ((ws.drop (6 * n)).take 6) g)

/-- A group read back. -/
def readGroupImage (s : State) (a : Nat) (g : Group) : Group :=
  let words (o n : Nat) : List Word := byteWords (areaGet s (a + o) n)
  putIntervals 256 (words 4608 6144)
    { g with
      gregs := cellSetRange 0 [] 0 (words 256 256)
      vregs := cellSetRange 0 [] 0 (words 10752 (128 * g.alloc))
      slices := mapFrom (fun k sl => readStack s (a + 512 + 512 * k) sl) 0 g.slices }

/-- The groups read back, the first at address `a`. -/
def readGroups (s : State) : Nat → List Group → List Group
  | _, [] => []
  | a, g :: rest => readGroupImage s a g :: readGroups s (a + groupSize g) rest

/-- The reservations of a span read back. -/
def readReservations (s : State) (sp : Span) : Span :=
  { sp with reservations := mapFrom (fun k _ => readReservation s (sp.areaBase + 512 + 64 * k)) 0 sp.reservations }

/-- A span read back from its area; what the image gives no place stays as in the record. -/
def readSpanImage (s : State) (im : SavedImage) (sp : Span) : Span :=
  let sp := readReservations s sp
  let a := sp.areaBase
  { sp with
    tables := readTables s (a + 1536) sp.tables
    raster := readRaster s (a + 2560) sp.raster
    prims := readPrims s (a + 2560) sp.prims
    groups := readGroups s (a + groupsAt sp im) (readGroupLoads s (a + caissonAt sp) sp.groups).1 }

/-- The caught transfers read back; `sp` has its reservations read back. -/
def readCaisson (s : State) (im : SavedImage) (sp : Span) : List (Nat × TransferEntry) :=
  readCaught s (readGroupLoads s (sp.areaBase + caissonAt sp) sp.groups).2 im.caisson

/-- The deck and the dense reservations of a span read back onto its pier. -/
def readStores (sp : Span) (s : State) : State :=
  let s := storeDeck sp 0 (areaGet s (sp.areaBase + deckAt sp) (deckSize sp)) s
  putDense sp (denseRes sp) (areaGet s (sp.areaBase + denseAt sp) (denseSize sp)) s

end Sys2Proof.Machine
end

