-- ==== Sys2Proof/Machine/Preempt.lean ====
section
/-!
DEFINITION. Pre-emption: requests, the save of a span, its timeout and its restore (R249, R257 to R266, R361 to R363, R392).
-/

namespace Sys2Proof.Machine

/-! ### Requests (R249, R257, R258) -/

/-- A span runs on a pier, and some group of it lives. -/
def isRunning (sp : Span) : Bool :=
  (match sp.place with | .running _ => true | _ => false) && sp.killed.isNone && !spanExited sp

/-- A running span and the others of its unit are marked; a marked one is not marked again (R257) (log 74, DEDUCED). -/
def requestSpan (sid : Nat) (s : State) : State :=
  match findSpan s sid with
  | none => s
  | some sp =>
    match findLaunch s sp.launch with
    | none => s
    | some la =>
      ((unitSpans s la sp).filter fun p => isRunning p.2 && !p.2.marked).foldl
        (fun acc p => modSpan acc p.1 fun x => { x with marked := true, timedOut := false, groups := x.groups.map markWaits }) s

/-- The running spans of a launch, latest placed first (log 74, DEDUCED). -/
def runningOf (s : State) (ls : List Nat) : List Nat :=
  let sps := s.spans.filter fun p => ls.contains p.2.launch && isRunning p.2
  (sps.mergeSort fun a b => decide (b.2.since ≤ a.2.since)).map (·.1)

/-- PREEMPT_REQUEST: every running span of every launch of the slot is requested (R258). -/
def preemptRequest (v : BitVec 64) (s : State) : State :=
  let n := v.toNat
  if bitsOf n 63 16 ≠ 0 || bitsOf n 14 7 ≠ 0 then s
  else
    let s := modFe (fun fe => { fe with preempt := BitVec.ofNat 64 (n % 128) }) s
    if !v.getLsbD 15 then s
    else
      (runningOf s (findSlot s (n % 128)).launches).foldl
        (fun acc sid => modSpan (requestSpan sid acc) sid fun x => { x with byHost := true }) s

/-- What PREEMPT reads: the slot addressed last, and whether a request written to it has not finished its save (R258). -/
def preemptValue (s : State) : BitVec 64 :=
  let slot := s.fe.preempt.toNat % 128
  let open_ := s.spans.any fun p => p.2.marked && p.2.byHost && (findSlot s slot).launches.contains p.2.launch
  BitVec.ofNat 64 (slot + (if open_ then 2 ^ 15 else 0))

/-- PREEMPT_REQUEST (R258). -/
def execPreemptRequest (v : BitVec 64) (s : State) : Host.Outcome State Fault Refusal := .next (preemptRequest v s)

/-- The spans of a launch's next batch fit on one die (R249). -/
def batchFits (s : State) (l : Nat) (la : Launch) : Bool :=
  let os := match restorable s la with
    | some us => us.map fun (p : Nat × Span) => (⟨l, some p.1, p.2.bay, p.2.index, 0⟩ : BatchSpan)
    | none => offered s l la 64
  match os.head? with
  | none => true
  | some x =>
    match launchBay la x.bay with
    | none => true
    | some b =>
      let n := min os.length (max (setSize la) (64 / max 1 b.groups))
      (upTo 4).any fun d => placeAll (List.replicate n (bayShape b)) ((upTo 64).map fun i => pierUsage s (64 * d + i))

/-- Requests sent to the victims in order until the resources they free fit a batch (log 74, DEDUCED). -/
def requestUntil (l : Nat) (la : Launch) : List Nat → State → State
  | [], s => s
  | sid :: rest, s =>
    if batchFits { s with spans := s.spans.filter fun p => !p.2.marked } l la then s else requestUntil l la rest (requestSpan sid s)

/-- STARVATION_PREEMPT: a candidate that waits without placement has spans of the running launches of the greatest priority number
requested, where that number is above its own (R249). -/
def starvationPreempt (l : Nat) (s : State) : State :=
  match findLaunch s l with
  | none => s
  | some la =>
    if !hwMode s 0 || !isCandidate s l la then s
    else
      let run := s.launches.filter fun p => !(runningOf s [p.1]).isEmpty
      let top := run.foldl (fun m p => max m (launchPriority p.2)) 0
      if top ≤ launchPriority la then s
      else
        let victims := (run.filter fun p => launchPriority p.2 == top).map (·.1)
        requestUntil l la (runningOf s victims) s

/-- STARVATION_PREEMPT (R249). -/
def execStarvationPreempt (l : Nat) (s : State) : Host.Outcome State Fault Refusal := .next (starvationPreempt l s)

/-- A span is wholly parked: its groups are, and its image entries, which complete before the save, are over (R265, R420). -/
def wholeParked (s : State) (sid : Nat) (sp : Span) : Bool := spanParked sp && (queueOps s sid sp 1).isEmpty

/-- PREEMPT_TIMEOUT: a span not parked in time sets SLOTI bit 1 with 10:26, once for a request; a co-resident launch counts as one (R265,
R420). -/
def preemptTimeout (sid : Nat) (s : State) : State :=
  match findSpan s sid with
  | none => s
  | some sp =>
    match findLaunch s sp.launch with
    | none => s
    | some la =>
      if !sp.marked || sp.timedOut || wholeParked s sid sp then s
      else
        let all := if coResident la then (unitSpans s la sp).map (·.1) else [sid]
        setSloti la.slot 1 (some (causeOf 10 26)) (all.foldl (fun acc x => modSpan acc x fun y => { y with timedOut := true }) s)

/-- PREEMPT_TIMEOUT (R265). -/
def execPreemptTimeout (sid : Nat) (s : State) : Host.Outcome State Fault Refusal := .next (preemptTimeout sid s)

/-! ### The save (R262 to R264, R392) -/

/-- A transfer entry may be caught in the caisson: a begun copy into the deck or the operand buffer that has written nothing yet. -/
def catchable (t : TransferEntry) : Bool :=
  match t.kind with
  | .copy ps =>
    t.cause.isNone && ((t.early.map fun e => !e.2).getD true) && ps.all fun p => match p.dst with | .mem _ => false | _ => true
  | _ => false

/-- An operation of a group stands in the way of the save: neither an engine's nor over, nor a remote load that the caisson catches. -/
def holdsSave (o : OpRec) : Bool :=
  o.kind != .engine && !o.done &&
    !(o.remoteLoad && o.ready && o.writes.all fun w => match w with | .peer _ _ _ _ => false | _ => true)

/-- Steps 1 to 4 are over: the span has no entry in the matrix FIFO or the image queue, none but primitives in the raster queue, no local
operation under way, no more remote loads than the caisson holds, and no begun transfer but those it catches (R262, R263)
(log 36, DEDUCED). -/
def drainedForSave (s : State) (sid : Nat) (sp : Span) : Bool :=
  let pier := spanPier sp
  (queueOps s sid sp 0).isEmpty && (queueOps s sid sp 1).isEmpty &&
  (rasterQueue s pier).all (fun x => x.sid != sid || x.kind == .prim) &&
  sp.groups.all (fun g => !g.ops.any holdsSave) && decide (loadsSize sp ≤ 65536) &&
  sp.queues.all fun q => q.all fun t => !t.started || catchable t

/-- A begun MCAST stands in some queue of a span (R361). -/
def castBegun (sp : Span) : Bool :=
  sp.queues.any fun q => q.any fun t => t.started && (match t.kind with | .mcast _ _ => true | _ => false)

/-- Pieces and their data cut after `n` bytes. -/
def cutPieces : Nat → List Piece → List (List Byte) → List (Piece × List Byte) × List Piece
  | _, [], _ => ([], [])
  | n, p :: ps, ds =>
    let d := (ds.head?).getD []
    if p.len ≤ n then
      let (a, b) := cutPieces (n - p.len) ps (ds.drop 1)
      ((p, d) :: a, b)
    else if n = 0 then ([], p :: ps)
    else
      let move (x : Place) : Place :=
        match x with
        | .mem va => .mem (va + n)
        | .deck sid off => .deck sid (off + n)
        | .buffer sid r off => .buffer sid r (off + n)
      ([({ p with len := n }, d.take n)], { p with src := move p.src, dst := move p.dst, len := p.len - n } :: ps)

/-- A begun copy caught within `room` bytes: the caught part, and the entry of what was not read (R263) (log 36, DEDUCED). -/
def catchEntry (room : Nat) (t : TransferEntry) : Option TransferEntry × Option TransferEntry :=
  match t.kind with
  | .copy ps =>
    let (a, b) := cutPieces ((room - 16) / 16 * 16) ps t.data
    let again (ps : List Piece) : TransferEntry := { t with kind := .copy ps, started := false, data := [], early := none, readPorts := [] }
    if a.isEmpty then (none, some (again ps))
    else
      (some { t with kind := .copy (a.map (·.1)), data := a.map (·.2), early := none, readPorts := [] },
        if b.isEmpty then none else some (again b))
  | _ => (none, some t)

/-- The queues with their begun heads caught in order: the caisson's entries, its bytes, the queues that stay (log 36, DEDUCED). -/
def catchQueues : Nat → Nat → List (List TransferEntry) → List (Nat × TransferEntry) × Nat × List (List TransferEntry)
  | _, used, [] => ([], used, [])
  | q, used, l :: rest =>
    match l with
    | t :: more =>
      if t.started then
        let (c, left) := catchEntry (65536 - used) t
        let size := match c with
          | none => 0
          | some x => caissonSize (x.data.map (·.length)).sum
        let (cs, used, qs) := catchQueues (q + 1) (used + size) rest
        ((match c with | none => [] | some x => [(q, x)]) ++ cs, used,
          ((match left with | none => [] | some x => [x]) ++ more) :: qs)
      else
        let (cs, used, qs) := catchQueues (q + 1) used rest
        (cs, used, l :: qs)
    | [] =>
      let (cs, used, qs) := catchQueues (q + 1) used rest
      (cs, used, [] :: qs)

/-- A primitive as the image keeps it: a begun one is begun again, with its undelivered intervals to come from its resume point (R392)
(log 38, DEDUCED). -/
def savePrim (p : Primitive) : Primitive :=
  if !primBegun p then p
  else
    let fresh := (p.nextY, -(2 ^ 15 : Int), 0, 0)
    let at_ := match p.intervals.head? with
      | some v => (v.y, v.key, v.rank, v.first)
      | none =>
        match p.resume with
        | some r => if p.nextY ≤ r.1 then r else fresh
        | none => fresh
    { p with nextY := rsYFirst p.state, intervals := [], resume := some at_ }

/-- What the save reads holds uncorrectable data: the deck, the dense reservations, or a storage of a group (R199, R216, R335)
(log 39, DEDUCED) (log 67, DESIGN CHOICE). -/
def savePoisoned (s : State) (sp : Span) : Bool :=
  deckPoisoned s sp 0 (deckSize sp) || ((denseRes sp).any fun r => resPoisoned s sp r 0 (1024 * resSize r)) ||
    sp.groups.any fun g => !g.struck.isEmpty

/-- A span as its record holds it while it is saved: off its pier, its request over. -/
def savedRecord (im : SavedImage) (qs : List (List TransferEntry)) (sp : Span) : Span :=
  let clear (g : Group) : Group :=
    let unpark (w : GroupWait) : GroupWait := { w with parked := false }
    { modSlices g (upTo 8) (fun sl => { sl with blocks := [] }) with
      waits := g.waits.map unpark
      savedWaits := g.savedWaits.map unpark }
  { sp with
    place := .saved im
    marked := false
    timedOut := false
    byHost := false
    queues := qs
    prims := sp.prims.map savePrim
    groups := sp.groups.map clear }

/-- A span's image is written into its context area and its pier resources are freed (R262 steps 5 to 7) (log 10, DESIGN CHOICE). -/
def saveSpan (sid : Nat) (s0 : State) : State :=
  let s0 := settleLeaving sid s0
  let s := match findSpan s0 sid with
    | none => s0
    | some sp => sp.groups.foldl (fun acc g => settleLoads sid g.num acc) s0
  match findSpan s sid with
  | none => s
  | some sp =>
    if savePoisoned s sp then killPoisoned sid s
    else
      let pier := spanPier sp
      let (cs, used, qs) := catchQueues 0 (loadsSize sp) sp.queues
      let im : SavedImage := ⟨cs, used⟩
      let image := imageOf s { sp with prims := sp.prims.map savePrim } im
      let s := setRasterQueue pier ((rasterQueue s pier).filter fun x => x.sid != sid) s
      let s := (upTo 4).foldl (fun acc q => endWaits (.transfer sid q) acc) s
      let s := modSpan (putImage sp.areaBase image s) sid (savedRecord im qs)
      modLaunch s sp.launch fun la => { la with saved := la.saved ++ [sid] }

/-- The unit of a span can be saved: each of its spans that runs is parked and drained, and no other has begun an MCAST (R262, R361). -/
def unitDrained (s : State) (us : List (Nat × Span)) : Bool :=
  us.all fun p => if isRunning p.2 then spanParked p.2 && drainedForSave s p.1 p.2 else !castBegun p.2

/-- SPAN_SAVE: a span that a JOIN blocks is requested with its unit (R254); a unit whose spans are all parked and drained is saved, one span
at a time (R248, R262) (log 36, DEDUCED). -/
def spanSave (sid : Nat) (s : State) : State :=
  match findSpan s sid with
  | none => s
  | some sp0 =>
    let s := if !sp0.marked && joinBlocked s sid sp0 then requestSpan sid s else s
    match findSpan s sid, findLaunch s sp0.launch with
    | some sp, some la =>
      let us := unitSpans s la sp
      if sp.marked && isRunning sp && unitDrained s us then
        (us.filter fun p => isRunning p.2).foldl (fun acc p => saveSpan p.1 acc) s
      else s
    | _, _ => s

/-- SPAN_SAVE (R262). -/
def execSpanSave (sid : Nat) (s : State) : Host.Outcome State Fault Refusal := .next (spanSave sid s)

/-! ### The restore (R266) -/

/-- Some granule of a span's image in its context area is uncorrectable (R266) (log 39, DEDUCED) (log 10, DESIGN CHOICE). -/
def imagePoisoned (s : State) (sp : Span) (im : SavedImage) : Bool :=
  let n := imageLength sp im
  let k := areaLow sp.areaBase n
  let meets (a n : Nat) (g : Nat) : Bool := decide (areaKey a < 8 * g + 8) && decide (8 * g < areaKey a + n)
  s.poison.any fun c => meets sp.areaBase k c.1 || meets (sp.areaBase + k) (n - k) c.1

/-- The address of line `j` of a coded reservation's tile in memory (R306). -/
def tileLineVa (r : Reservation) (j : Nat) : Nat := r.streamBase.toNat + 64 * tileOffset (resEntry r) + 64 * j

/-- Whether line `j` of a tile carries the restart flag, as memory stands; else what stops its read. A line at a multiple of the stride must
carry it (R304). -/
def restartAt (s : State) (sp : Span) (r : Reservation) (j : Nat) : Except (Option Cause) Bool :=
  match turnTouch s sp (tileLineVa r j) 64 with
  | .wait _ => .error none
  | .fail c => .error (some c)
  | .kill => .error (some (causeOf 11 25))
  | .ok ps =>
    if lineRestart (bytesToNat (readParts s ps)) then .ok true
    else if j % 2 ^ tileStride (resEntry r) = 0 then .error (some (causeOf 5 18))
    else .ok false

/-- The last line at or before line `j` whose restart flag is set; else the cause that ends the search, or none where a move lock makes it
wait (R266 step 3). -/
def restartLine (s : State) (sp : Span) (r : Reservation) : Nat → Except (Option Cause) Nat
  | 0 => (restartAt s sp r 0).map fun _ => 0
  | j + 1 =>
    match restartAt s sp r (j + 1) with
    | .error c => .error c
    | .ok true => .ok (j + 1)
    | .ok false => restartLine s sp r j

/-- Decoding again from restart line `j` comes to the saved position; the reason of source 5 otherwise (log 38, DEDUCED). -/
def refetchFault (tables : Tables) (r : Reservation) (j : Nat) (line : Nat → Nat) : Option Nat :=
  let e := resEntry r
  let i := lineIndex (line j)
  if resPos r < i then some 18
  else
    match codedTake tables e line (2 * tileLines e + 3) ⟨j, 0, i⟩ (resPos r - i) with
    | .error x => some x
    | .ok (_, p) => if (resPos r == i && resConsumed r == 0) || (p.line == resLine r && p.used == resConsumed r) then none else some 18

/-- A coded reservation's lines fetched again from memory as it stands, from the restart line on (R266 step 3, R336); what stops the fetch
is a cause, unless a move lock makes it wait (log 38, DEDUCED). -/
def refetchRes (sid k : Nat) (s : State) : Option (State × Option Cause) :=
  match findSpan s sid with
  | none => some (s, none)
  | some sp =>
    let r := spanRes sp k
    if !resValid r || resMode r ≠ 2 then some (s, none)
    else
      match restartLine s sp r (resLine r) with
      | .error none => none
      | .error (some c) => some (s, some c)
      | .ok j =>
        match turnTouch s sp (tileLineVa r j) (64 * (tileLines (resEntry r) - j)) with
        | .wait _ => none
        | .fail c => some (s, some c)
        | .kill => some (s, some (causeOf 11 25))
        | .ok ps =>
          let s := writeRes sp r (64 * j) (readParts s ps) s
          some (s, (refetchFault sp.tables r j (resLineBits s sp r)).map (causeOf 5))

/-- Every coded reservation refetched, whatever another met, with the first cause met (R266, R336). -/
def refetchAll (sid : Nat) : Nat → State → Option (State × Option Cause)
  | 0, s => some (s, none)
  | n + 1, s =>
    match refetchAll sid n s with
    | none => none
    | some (s, c) => (refetchRes sid n s).map fun r => (r.1, c.orElse fun _ => r.2)

/-- An operation caught in the caisson has a remainder among the transfer entries (R362). -/
def hasRemainder (sid q : Nat) (t : TransferEntry) (s : State) : Bool :=
  ((findSpan s sid).map fun sp => ((sp.queues[q]?).getD []).any fun x => x.g == t.g && x.op == t.op).getD false

/-- An entry of the caisson drained: its destination is written, and an operation without a remainder completes (R266 step 4). -/
def drainEntry (sid : Nat) (e : Nat × TransferEntry) (s : State) : State :=
  let (q, t) := e
  match t.kind with
  | .copy ps =>
    let s := (ps.zip t.data).foldl (fun acc p => writePlace [] p.2 p.1.dst acc) s
    if hasRemainder sid q t s then s
    else
      let s := match t.barrier with
        | none => s
        | some k => engineArrive sid k s
      completeOp sid t.g t.op s
  | _ => s

/-- An entry of a killed span's caisson dropped: an operation without a remainder ends (R224, R266) (log 37, DEDUCED). -/
def dropCaught (sid : Nat) (e : Nat × TransferEntry) (s : State) : State :=
  let (q, t) := e
  if hasRemainder sid q t s then s
  else
    let s := match t.barrier with
      | none => s
      | some k => dropPend sid k s
    completeOp sid t.g t.op s

/-- The remote loads caught in the caisson complete (log 37, DEDUCED). -/
def drainLoads (sid : Nat) (s : State) : State :=
  match findSpan s sid with
  | none => s
  | some sp =>
    (sp.groups.map fun g => (g.ops.filter caughtLoad).map fun o => (g.num, o.id)).flatten.foldl
      (fun acc x => completeOp sid x.1 x.2 (decodeErrors sid x.1 x.2 acc)) s

/-- The primitives not fully rasterised are posted to the new pier's raster queue (R266 step 2). -/
def repostPrims (sid pier : Nat) (s : State) : State :=
  match findSpan s sid with
  | none => s
  | some sp =>
    let op := (sp.groups.head?.map (·.opCount)).getD 0
    let n := (sp.prims.filter primOpen).length
    let es : List RasterEntry := (upTo n).map fun i => ⟨sid, 0, op + i, .prim⟩
    setRasterQueue pier (rasterQueue s pier ++ es) (modGroup s sid 0 fun g => { g with opCount := op + n })

/-- A saved span placed on a pier: it waits there until its unit is whole (log 10, DESIGN CHOICE) (log 37, DEDUCED). -/
def placeSavedSpan (sid : Nat) (sp : Span) (ctx pier quad : Nat) (s : State) : State :=
  let units := (freeUnits s pier).take sp.deckUnits.length
  let grans := (freeGranules s pier).take sp.granules.length
  let slots := takeSlots quad sp.groups.length (freeSlots s pier)
  let s := passUnits pier ctx units s
  let s := modSpan s sid fun x =>
    { x with
      place := .waiting pier
      deckUnits := units
      granules := grans
      groups := (x.groups.zip slots).map fun p => { p.1 with slot := p.2 }
      since := s.fe.placements }
  modLaunch (modFe (fun fe => { fe with placements := fe.placements + 1 }) s) sp.launch fun la =>
    { la with saved := la.saved.filter (· ≠ sid) }

/-- The reserved bits of a restored reservation record are 0; otherwise the span is killed with 11:31 (R320) (log 39, DEDUCED). -/
def recordsLegal (sp : Span) : Bool := sp.reservations.all fun r => bitsOf r.record.toNat 19 3 == 0

/-- A span whose image cannot be restored is killed: what its caisson held is dropped, and its queues run on (R182, R266). -/
def killRestored (sid : Nat) (cause : Cause) (caisson : List (Nat × TransferEntry)) (s : State) : State :=
  caisson.foldl (fun acc e => dropCaught sid e acc) (drainLoads sid (killSpan sid cause s))

/-- Steps 1 to 4 of a restore, on the pier the span has been placed on; no answer while a move lock holds a refetch (R266). -/
def readBack (sid : Nat) (im : SavedImage) (s : State) : Option State :=
  match findSpan s sid with
  | none => some s
  | some sp0 =>
    if imagePoisoned s sp0 im then some (killRestored sid (causeOf 11 25) im.caisson (noteError (causeOf 11 25) s))
    else
      let sp := readSpanImage s im sp0
      let s := modSpan s sid fun _ => sp
      if !recordsLegal sp then some (killRestored sid (causeOf 11 31) im.caisson s)
      else
        let caisson := readCaisson s im (readReservations s sp0)
        (refetchAll sid 16 (repostPrims sid (spanPier sp) (readStores sp s))).map fun (s, c) =>
          let s := caisson.foldl (fun acc e => drainEntry sid e acc) (drainLoads sid s)
          match c with
          | none => s
          | some c => completionCause sid none c 0 none (noteError c s)

/-- SPAN_RESTORE: the saved span at the head of a die's batches is placed and restored, where the resources held for a pipeline's bays stay
free (R133, R266). -/
def spanRestore (sid : Nat) (s : State) : State :=
  match (upTo 4).find? fun d => (((s.fe.batches[d]?).getD []).head?.bind (·.saved)) == some sid, findSpan s sid with
  | some die, some sp =>
    match sp.place, findLaunch s sp.launch with
    | .saved im, some la =>
      match launchBay la sp.bay with
      | none => s
      | some b =>
        match choosePier s die (bayShape b) with
        | none => s
        | some (pier, quad) =>
          let s1 := placeSavedSpan sid sp la.ctx pier quad (popBatch die b.groups s)
          if !holdsRoom s1 (sp.launch, sp.bay) then s
          else
            match readBack sid im s1 with
            | none => s
            | some s2 => startUnit la sid s2
    | _, _ => s
  | _, _ => s

/-- SPAN_RESTORE (R266). -/
def execSpanRestore (sid : Nat) (s : State) : Host.Outcome State Fault Refusal := .next (spanRestore sid s)

end Sys2Proof.Machine
end

