-- ==== Sys2Proof/Machine/Prologue.lean ====
section
/-!
DEFINITION. Prologues, the items of a pipeline launch, child launches, and the words that are no instruction (R74, R80, R237, R238, R252 to
R254).
-/

namespace Sys2Proof.Machine

/-! ### Prologue engines (R237, R238) -/

/-- The registers a prologue finds: the record's words 0 to 15, then the run number. -/
def prologueGroup (la : Launch) : Group :=
  let g := Group.start 0 0 8 (BitVec.ofNat 57 (recPrologue la.record))
  writeG 16 (BitVec.ofNat 32 la.run) (writeGs 0 (wordsOf 16 (la.record.toNat % 2 ^ 512)) g)

/-- A launch that goes before has a prologue that has not started (R231, R253). -/
def prologueBehind (s : State) (l : Nat) (la : Launch) : Bool :=
  (findSlot s la.slot).launches.any fun m =>
    decide (m < l) && ((findLaunch s m).map fun lb => goesAhead lb la && lb.phase == .prologue && lb.run == 0).getD false

/-- The lowest-numbered prologue engine without a prologue. -/
def freeEngine (s : State) : Option Nat :=
  (upTo 4).find? fun e => ((s.fe.engines[e]?).map fun en => en.launch.isNone).getD false

/-- PROLOGUE_START: a launch's prologue starts on a free engine, in packet order. -/
def prologueStart (l : Nat) (s : State) : State :=
  match findLaunch s l, freeEngine s with
  | some la, some e =>
    if la.phase ≠ .prologue || (la.run == 0 && prologueBehind s l la) then s
    else
      let en : PrologueEngine := ⟨some l, prologueGroup la, 0⟩
      modLaunch (modFe (fun fe => { fe with engines := listSet (fun _ => en) e fe.engines }) s) l fun la =>
        { la with phase := .inPrologue e }
  | _, _ => s

/-- PROLOGUE_START (R237). -/
def execPrologueStart (l : Nat) (s : State) : Host.Outcome State Fault Refusal := .next (prologueStart l s)

/-- PROLOGUE_INSTRUCTION_LIMIT: an engine that has executed 4,096 instructions fails its launch (R237). -/
def execPrologueInstructionLimit (e : Nat) (s : State) : Host.Outcome State Fault Refusal :=
  .next (
    match s.fe.engines[e]? with
    | none => s
    | some en =>
      match en.launch with
      | none => s
      | some l => if en.count < 4096 then s else failLaunch l (causeOf 10 26) s)

/-- PROLOGUE_RERUN: a run asked for by PREPEAT is over and the next begins; the spans of the run, all ended, are no members of its sets (R114,
R238) (log 14, DEDUCED). -/
def prologueRerun (l : Nat) (s : State) : State :=
  match findLaunch s l with
  | none => s
  | some la =>
    if runOver s l la && runsAgain la then
      modLaunch { s with spans := s.spans.filter fun p => p.2.launch != l } l fun la => { la with phase := .prologue, run := la.run + 1 }
    else s

/-- PROLOGUE_RERUN (R238). -/
def execPrologueRerun (l : Nat) (s : State) : Host.Outcome State Fault Refusal := .next (prologueRerun l s)

/-- A launch's engine is free again. -/
def releaseEngine (e : Nat) (s : State) : State :=
  modFe (fun fe => { fe with engines := listSet (fun en => { en with launch := none }) e fe.engines }) s

/-- The record with words 0 to 15 as the prologue leaves them. -/
def writtenRecord (g : Group) (r : BitVec 1024) : BitVec 1024 :=
  BitVec.ofNat 1024 (r.toNat / 2 ^ 512 * 2 ^ 512 + readWords (readG g) 0 16)

/-- PEND and PREPEAT n, PEND being n = 0: the record is written back and checked; the launch's spans are dispatched, or it fails; a further
run follows where g16 < n (R234, R238) (log 14, DEDUCED). -/
def endPrologue (n : Nat) (s : State) : State :=
  match s.issuer with
  | .prologue e =>
    match (s.fe.engines[e]?).bind (·.launch) with
    | none => s
    | some l =>
      match findLaunch s l with
      | none => s
      | some la =>
        let la := { la with
          record := writtenRecord (curGroup s) la.record
          repeatTo := if (readG (curGroup s) 16).toNat < n then la.run + 1 else 0
          runsDone := la.runsDone + 1 }
        match (checkLaunch la).run s with
        | (.error .wait, s) => s
        | (.error (.fail r), s) => failLaunch l (causeOf 10 r) (noteError (causeOf 10 r) (modLaunch s l fun _ => la))
        | (.ok la, s) => settleTrestle l (releaseEngine e (modLaunch s l fun _ => la))
  | _ => faultWith 0 2 (gangLanes s) s

/-- PCANCEL: the launch completes and starts no span (R238). -/
def cancelLaunch (code : Nat) (s : State) : State :=
  match s.issuer with
  | .prologue e =>
    match (s.fe.engines[e]?).bind (·.launch) with
    | none => s
    | some l =>
      releaseEngine e (modLaunch s l fun la =>
        { la with cancel := some code, runsDone := la.runsDone + 1, phase := .finishing })
  | _ => faultWith 0 2 (gangLanes s) s

/-- On a pier an instruction that ends a prologue faults whatever its guard; on an engine a false guard leaves the prologue going on
(R238). -/
def endGuarded (e : Enc) (body : State → State) (s : State) : State :=
  match s.issuer with
  | .prologue _ => guardedOp e body s
  | _ => faultWith 0 2 (actLanes e s) s

/-- PEND (R238). -/
def execPend (e : Enc) (s : State) : Host.Outcome State Fault Refusal :=
  runForm { rd := .unused, ra := .unused, rb := .unused, u := .one, prologue := true } true e (endGuarded e (endPrologue 0)) s

/-- PCANCEL (R238). -/
def execPcancel (e : Enc) (s : State) : Host.Outcome State Fault Refusal :=
  runForm { rd := .unused, ra := .imm, rb := .imm, xp := .layoutB, u := .one, prologue := true } (immRj e < 4096) e
    (endGuarded e (cancelLaunch (immRj e))) s

/-- PREPEAT (R238). -/
def execPrepeat (e : Enc) (s : State) : Host.Outcome State Fault Refusal :=
  runForm { rd := .unused, ra := .imm, rb := .imm, xp := .layoutB, u := .one, prologue := true }
    (decide (1 ≤ immRj e) && decide (immRj e < 4096)) e (endGuarded e (endPrologue (immRj e))) s

/-! ### Items (R252) -/

/-- The form of QPOP and QPUSH: an aligned pair. -/
def formItem : Form := { rd := .reg 2 2, ra := .unused, rb := .unused, mem := some ⟨[0], false, false⟩ }

/-- An instruction that acts on an item queue: with no active lane it only goes on; it is legal only where the bay has the queue, and only
for a gang that holds every live slice (log 17, DEDUCED). -/
def itemBody (e : Enc) (legal : Launch → Nat → Bool) (body : Span → List Nat → State → State) (s : State) : State :=
  guardedOp e (notInHandler fun s =>
    let lanes := actLanes e s
    match curSpan s, curLaunch s with
    | some sp, some la =>
      if !legal la sp.bay then faultWith 0 2 lanes s
      else needWholeFor (actLanes e) (fun s => if lanes == 0 then advance (wordLen e) s else body sp (accessLanes e.u lanes) s) s
    | _, _ => s) s

/-- A bay's queue of items changed. -/
def modInput (l b : Nat) (f : List (BitVec 64) → List (BitVec 64)) (s : State) : State :=
  modLaunch s l fun la => { la with bays := listSet (fun y => { y with input := f y.input }) b la.bays }

/-- An item written to a register pair in a lane. -/
def writeItem (rd : Loc) (lane : Nat) (v : BitVec 64) (g : Group) : Group :=
  match rd with
  | .lane r => writeVs r lane (wordsOf 2 v.toNat) g
  | .grp r => writeGs r (wordsOf 2 v.toNat) g

/-- The end code. -/
def endCode : BitVec 64 := 0xFFFFFFFFFFFFFFFF

/-- Each lane takes the next item, and the end code beyond the items present. -/
def popInto (rd : Loc) (items : List (BitVec 64)) : List Nat → Group → Group
  | [], g => g
  | l :: rest, g => popInto rd items.tail rest (writeItem rd l (items.head?.getD endCode) g)

/-- QPOP in a bay with an input (log 17, DEDUCED). -/
def popBody (e : Enc) (sp : Span) (lanes : List Nat) (s : State) : State :=
  if !popReady s sp then blockOn .pop s
  else
    let items := (((findLaunch s sp.launch).bind fun la => launchBay la sp.bay).map (·.input)).getD []
    let s := modInput sp.launch sp.bay (List.drop lanes.length) s
    endWait (wordLen e) (modCur s (popInto (rdLoc e) (items.take lanes.length) lanes))

/-- A pipeline launch, and a bay of it after the first or before the last. -/
def hasInput (la : Launch) (b : Nat) : Bool := recPipeline la.record != 0 && b != 0
def hasOutput (la : Launch) (b : Nat) : Bool := recPipeline la.record != 0 && decide (b + 1 < la.bays.length)

/-- QPOP (R252). -/
def execQpop (e : Enc) (s : State) : Host.Outcome State Fault Refusal :=
  runForm formItem true e (itemBody e hasInput (popBody e)) s

/-- QPUSH in a bay with an output (log 17, DEDUCED). -/
def pushBody (e : Enc) (sp : Span) (lanes : List Nat) (s : State) : State :=
  if pushRoom s sp < lanes.length then blockOn (.push lanes.length) s
  else
    let items := lanes.map fun l => BitVec.ofNat 64 (readLocs (curGroup s) l 2 (rdLoc e))
    endWait (wordLen e) (modInput sp.launch (sp.bay + 1) (fun q => q ++ items) s)

/-- QPUSH (R252). -/
def execQpush (e : Enc) (s : State) : Host.Outcome State Fault Refusal :=
  runForm formItem true e (itemBody e hasOutput (pushBody e)) s

/-! ### Children (R253, R254) -/

/-- The children of a slot that have spans not dispatched. -/
def waitingChildren (s : State) (slot : Nat) : Nat :=
  ((findSlot s slot).launches.filter fun l =>
    match findLaunch s l with
    | none => false
    | some la =>
      la.queue.isNone &&
      (match la.phase with
        | .running => hasUndispatched s l la
        | .finishing => false
        | _ => true)).length

/-- The record's address: the pair and the offset in records. -/
def spawnVa (e : Enc) (s : State) : Nat := globalAddr (curGroup s) e 128 0

/-- The child is entered, and the number of children not complete is the result (log 16, DEDUCED). -/
def spawnBody (e : Enc) (sp : Span) (la : Launch) (s : State) : State :=
  let va := spawnVa e s
  let l := s.fe.nextLaunch
  let mk (rec : Nat) : Launch := newLaunch la.slot none la.ctx (some (curSid s)) (la.depth + 1) rec none la.destroyed
  match consumeLaunch mk la.ctx va s with
  | (none, s) => s
  | (some s, _) =>
    let n := min (sp.children.length + 1) 65535
    let s := modCurSpan s fun sp => { sp with children := sp.children ++ [l] }
    advance (wordLen e) (modCur s (writeG (locNum (rdLoc e)) (BitVec.ofNat 32 n)))

/-- SPAWN (R253) (log 16, DEDUCED). -/
def execSpawn (e : Enc) (s : State) : Host.Outcome State Fault Refusal :=
  runForm { rd := .reg 1 1, ra := .reg 2 2, rb := .imm, u := .one, mem := some ⟨[0], false, false⟩ } true e
    (guardedOp e (notInHandler (needWhole fun s =>
      match curSpan s, curLaunch s with
      | some sp, some la =>
        if spawnVa e s % 128 ≠ 0 then faultWith 3 4 (gangLanes s) s
        else if 8 ≤ la.depth then faultWith 10 2 (gangLanes s) s
        else if 256 ≤ waitingChildren s la.slot then s
        else spawnBody e sp la s
      | _, _ => s))) s

/-- The children JOIN waits for: those of its first issue, or the span's at this one. -/
def joinChildren (w : Option GroupWait) (sp : Span) : List Nat :=
  match w.map GroupWait.wait with
  | some (.join cs) => cs
  | _ => sp.children

/-- JOIN (R254). -/
def execJoin (e : Enc) (s : State) : Host.Outcome State Fault Refusal :=
  runForm { rd := .unused, ra := .unused, rb := .unused, u := .one } true e
    (guardedOp e (notInHandler (needWhole fun s =>
      match curSpan s with
      | none => s
      | some sp =>
        let cs := joinChildren (curWait s) sp
        if launchesDone s cs then endWait (wordLen e) s else blockOn (.join cs) s))) s

/-! ### Words that are no instruction (R74, R80) -/

/-- XP where none may stand: prefix misuse; it has no guard of its own, so all the active lanes of the gang are recorded (R74, R220)
(log 51, DEDUCED). -/
def execXp (_payload : BitVec 22) (s : State) : Host.Outcome State Fault Refusal := .next (faultWith 0 1 (gangLanes s) s)

/-- A word of a reserved opcode faults 0:0 (R80); in a prologue a word with U = 0 faults 10:2 first (R237) (log 15, DEDUCED). -/
def execReservedOpcodeWord (_op : BitVec 9) (e : Enc) (s : State) : Host.Outcome State Fault Refusal :=
  match s.issuer with
  | .prologue _ => .next (if e.u then faultWith 0 0 0 s else faultWith 10 2 0 s)
  | _ => .next (faultWith 0 0 (actLanes e s) s)

end Sys2Proof.Machine
end

