-- ==== Sys2Proof/Machine/Dispatch.lean ====
section
/-!
DEFINITION. One arm per instruction: the meaning each constructor has.
-/

namespace Sys2Proof.Machine

/-- The effect of an instruction or step on the state. -/
def exec (i : Instr) (s : State) : Host.Outcome State Fault Refusal :=
  match i with
  | .lsuOpComplete sid g op => Sys2Proof.Machine.execLsuOpComplete sid g op s
  | .gatherReturn sid g op errors => Sys2Proof.Machine.execGatherReturn sid g op errors s
  | .conversionOpComplete sid g op => Sys2Proof.Machine.execConversionOpComplete sid g op s
  | .decodeOpComplete sid g op => Sys2Proof.Machine.execDecodeOpComplete sid g op s
  | .matrixEntryStart pier => Sys2Proof.Machine.execMatrixEntryStart pier s
  | .matrixEntryComplete pier => Sys2Proof.Machine.execMatrixEntryComplete pier s
  | .transferOpStart sid q => Sys2Proof.Machine.execTransferOpStart sid q s
  | .transferOpComplete sid q => Sys2Proof.Machine.execTransferOpComplete sid q s
  | .mcastComplete sid q => Sys2Proof.Machine.execMcastComplete sid q s
  | .peerWriteAck sid g op port => Sys2Proof.Machine.execPeerWriteAck sid g op port s
  | .peerErrorResponse sid g op lane reason => Sys2Proof.Machine.execPeerErrorResponse sid g op lane reason s
  | .peerAccessIngress kind offset data => Sys2Proof.Machine.execPeerAccessIngress kind offset data s
  | .rasterPrimitive pier => Sys2Proof.Machine.execRasterPrimitive pier s
  | .erfetchComplete pier => Sys2Proof.Machine.execErfetchComplete pier s
  | .ivstPerform pier => Sys2Proof.Machine.execIvstPerform pier s
  | .erflushComplete pier => Sys2Proof.Machine.execErflushComplete pier s
  | .imageEntryComplete pier => Sys2Proof.Machine.execImageEntryComplete pier s
  | .walkerTestPoint launch => Sys2Proof.Machine.execWalkerTestPoint launch s
  | .haltSkidExpire sid g => Sys2Proof.Machine.execHaltSkidExpire sid g s
  | .handlerEntry sid => Sys2Proof.Machine.execHandlerEntry sid s
  | .groupSlotFree sid g => Sys2Proof.Machine.execGroupSlotFree sid g s
  | .spanExitCounted sid => Sys2Proof.Machine.execSpanExitCounted sid s
  | .spanKillReport sid => Sys2Proof.Machine.execSpanKillReport sid s
  | .spanRelaunch sid => Sys2Proof.Machine.execSpanRelaunch sid s
  | .qdescCreate q w => Sys2Proof.Machine.execQdescCreate q w s
  | .qdescDestroyDrain q => Sys2Proof.Machine.execQdescDestroyDrain q s
  | .qdescDestroyAbort q => Sys2Proof.Machine.execQdescDestroyAbort q s
  | .qdescDestroyAbortKill q => Sys2Proof.Machine.execQdescDestroyAbortKill q s
  | .doorbellWrite q v => Sys2Proof.Machine.execDoorbellWrite q v s
  | .queueBind => Sys2Proof.Machine.execQueueBind s
  | .launchPacket slot => Sys2Proof.Machine.execLaunchPacket slot s
  | .waitPacket slot => Sys2Proof.Machine.execWaitPacket slot s
  | .waitReread slot => Sys2Proof.Machine.execWaitReread slot s
  | .signalPacket slot => Sys2Proof.Machine.execSignalPacket slot s
  | .fencePacket slot => Sys2Proof.Machine.execFencePacket slot s
  | .tablePacket slot => Sys2Proof.Machine.execTablePacket slot s
  | .nopPacket slot => Sys2Proof.Machine.execNopPacket slot s
  | .prologueStart launch => Sys2Proof.Machine.execPrologueStart launch s
  | .prologueInstructionLimit engine => Sys2Proof.Machine.execPrologueInstructionLimit engine s
  | .prologueRerun launch => Sys2Proof.Machine.execPrologueRerun launch s
  | .launchComplete launch => Sys2Proof.Machine.execLaunchComplete launch s
  | .slotbWrite slot v => Sys2Proof.Machine.execSlotbWrite slot v s
  | .slotiClear slot v => Sys2Proof.Machine.execSlotiClear slot v s
  | .quantumExpired slot => Sys2Proof.Machine.execQuantumExpired slot s
  | .dieSlotReport die => Sys2Proof.Machine.execDieSlotReport die s
  | .batchDecision => Sys2Proof.Machine.execBatchDecision s
  | .spanPlace die => Sys2Proof.Machine.execSpanPlace die s
  | .powerRefresh => Sys2Proof.Machine.execPowerRefresh s
  | .starvationPreempt launch => Sys2Proof.Machine.execStarvationPreempt launch s
  | .slotDeadlock => Sys2Proof.Machine.execSlotDeadlock s
  | .preemptRequest v => Sys2Proof.Machine.execPreemptRequest v s
  | .spanSave sid => Sys2Proof.Machine.execSpanSave sid s
  | .preemptTimeout sid => Sys2Proof.Machine.execPreemptTimeout sid s
  | .spanRestore sid => Sys2Proof.Machine.execSpanRestore sid s
  | .tlbinvStart v => Sys2Proof.Machine.execTlbinvStart v s
  | .tlbinvComplete => Sys2Proof.Machine.execTlbinvComplete s
  | .replayRetry v => Sys2Proof.Machine.execReplayRetry v s
  | .replayCancel v => Sys2Proof.Machine.execReplayCancel v s
  | .faultqWrite v => Sys2Proof.Machine.execFaultqWrite v s
  | .hwFaultService context page => Sys2Proof.Machine.execHwFaultService context page s
  | .pageMoveStart move => Sys2Proof.Machine.execPageMoveStart move s
  | .pageMoveComplete move => Sys2Proof.Machine.execPageMoveComplete move s
  | .mapoutRequest v => Sys2Proof.Machine.execMapoutRequest v s
  | .layerFailingReport stack layer => Sys2Proof.Machine.execLayerFailingReport stack layer s
  | .mapoutCommit => Sys2Proof.Machine.execMapoutCommit s
  | .spareWrite v => Sys2Proof.Machine.execSpareWrite v s
  | .viaductLineEvict die line => Sys2Proof.Machine.execViaductLineEvict die line s
  | .trestleMoveStart launch => Sys2Proof.Machine.execTrestleMoveStart launch s
  | .pmarkApply sid g => Sys2Proof.Machine.execPmarkApply sid g s
  | .trestleLaunchEnd launch => Sys2Proof.Machine.execTrestleLaunchEnd launch s
  | .flitReceive port seq crcOk => Sys2Proof.Machine.execFlitReceive port seq crcOk s
  | .flitReplay port => Sys2Proof.Machine.execFlitReplay port s
  | .flitAck port seq => Sys2Proof.Machine.execFlitAck port seq s
  | .linkRetrain port => Sys2Proof.Machine.execLinkRetrain port s
  | .portDown port => Sys2Proof.Machine.execPortDown port s
  | .hostCxlMemAccess write tier pa data => Sys2Proof.Machine.execHostCxlMemAccess write tier pa data s
  | .evqWrite v => Sys2Proof.Machine.execEvqWrite v s
  | .privilegedRegisterWrite offset v => Sys2Proof.Machine.execPrivilegedRegisterWrite offset v s
  | .coldBoot slotA slotB => Sys2Proof.Machine.execColdBoot slotA slotB s
  | .recoveryImage image => Sys2Proof.Machine.execRecoveryImage image s
  | .warmReset checks => Sys2Proof.Machine.execWarmReset checks s
  | .spdmRequest request => Sys2Proof.Machine.execSpdmRequest request s
  | .thermalThrottle die above => Sys2Proof.Machine.execThermalThrottle die above s
  | .thermalTrip die => Sys2Proof.Machine.execThermalTrip die s
  | .reservedOpcodeWord op e => Sys2Proof.Machine.execReservedOpcodeWord op e s
  | .linkRetrained port => Sys2Proof.Machine.execLinkRetrained port s
  | .mappedOutLayerClear stack layer => Sys2Proof.Machine.execMappedOutLayerClear stack layer s
  | .xp payload => Sys2Proof.Machine.execXp payload s
  | .compactMov c => Sys2Proof.Machine.execCompactMov c s
  | .compactAddS32 c => Sys2Proof.Machine.execCompactAddS32 c s
  | .compactSubS32 c => Sys2Proof.Machine.execCompactSubS32 c s
  | .compactAnd c => Sys2Proof.Machine.execCompactAnd c s
  | .compactOr c => Sys2Proof.Machine.execCompactOr c s
  | .compactXor c => Sys2Proof.Machine.execCompactXor c s
  | .compactShl c => Sys2Proof.Machine.execCompactShl c s
  | .compactShrZ32 c => Sys2Proof.Machine.execCompactShrZ32 c s
  | .compactAddi c => Sys2Proof.Machine.execCompactAddi c s
  | .compactLi c => Sys2Proof.Machine.execCompactLi c s
  | .compactFaddF32 c => Sys2Proof.Machine.execCompactFaddF32 c s
  | .compactFsubF32 c => Sys2Proof.Machine.execCompactFsubF32 c s
  | .compactFmulF32 c => Sys2Proof.Machine.execCompactFmulF32 c s
  | .compactFminF32 c => Sys2Proof.Machine.execCompactFminF32 c s
  | .compactFmaxF32 c => Sys2Proof.Machine.execCompactFmaxF32 c s
  | .compactMulloB32 c => Sys2Proof.Machine.execCompactMulloB32 c s
  | .addS32 e => Sys2Proof.Machine.execAddS32 e s
  | .addsS32 e => Sys2Proof.Machine.execAddsS32 e s
  | .subS32 e => Sys2Proof.Machine.execSubS32 e s
  | .subsS32 e => Sys2Proof.Machine.execSubsS32 e s
  | .mulloB32 e => Sys2Proof.Machine.execMulloB32 e s
  | .mulhiS32 e => Sys2Proof.Machine.execMulhiS32 e s
  | .mulhiZ32 e => Sys2Proof.Machine.execMulhiZ32 e s
  | .madB32 e => Sys2Proof.Machine.execMadB32 e s
  | .divS32 e => Sys2Proof.Machine.execDivS32 e s
  | .divZ32 e => Sys2Proof.Machine.execDivZ32 e s
  | .remS32 e => Sys2Proof.Machine.execRemS32 e s
  | .remZ32 e => Sys2Proof.Machine.execRemZ32 e s
  | .minS32 e => Sys2Proof.Machine.execMinS32 e s
  | .maxS32 e => Sys2Proof.Machine.execMaxS32 e s
  | .minZ32 e => Sys2Proof.Machine.execMinZ32 e s
  | .maxZ32 e => Sys2Proof.Machine.execMaxZ32 e s
  | .and e => Sys2Proof.Machine.execAnd e s
  | .or e => Sys2Proof.Machine.execOr e s
  | .xor e => Sys2Proof.Machine.execXor e s
  | .andn e => Sys2Proof.Machine.execAndn e s
  | .shl e => Sys2Proof.Machine.execShl e s
  | .shrZ32 e => Sys2Proof.Machine.execShrZ32 e s
  | .shrS32 e => Sys2Proof.Machine.execShrS32 e s
  | .rotl e => Sys2Proof.Machine.execRotl e s
  | .addi e => Sys2Proof.Machine.execAddi e s
  | .shli e => Sys2Proof.Machine.execShli e s
  | .shriZ32 e => Sys2Proof.Machine.execShriZ32 e s
  | .shriS32 e => Sys2Proof.Machine.execShriS32 e s
  | .andi e => Sys2Proof.Machine.execAndi e s
  | .li e => Sys2Proof.Machine.execLi e s
  | .lih e => Sys2Proof.Machine.execLih e s
  | .not e => Sys2Proof.Machine.execNot e s
  | .neg e => Sys2Proof.Machine.execNeg e s
  | .absS32 e => Sys2Proof.Machine.execAbsS32 e s
  | .clzB32 e => Sys2Proof.Machine.execClzB32 e s
  | .ctzB32 e => Sys2Proof.Machine.execCtzB32 e s
  | .popcB32 e => Sys2Proof.Machine.execPopcB32 e s
  | .brevB32 e => Sys2Proof.Machine.execBrevB32 e s
  | .bfxZ32 e => Sys2Proof.Machine.execBfxZ32 e s
  | .bfxS32 e => Sys2Proof.Machine.execBfxS32 e s
  | .bfi e => Sys2Proof.Machine.execBfi e s
  | .prmt e => Sys2Proof.Machine.execPrmt e s
  | .ilv2 e => Sys2Proof.Machine.execIlv2 e s
  | .ilv3 e => Sys2Proof.Machine.execIlv3 e s
  | .dlv2 e => Sys2Proof.Machine.execDlv2 e s
  | .dlv3 e => Sys2Proof.Machine.execDlv3 e s
  | .clzxB32 e => Sys2Proof.Machine.execClzxB32 e s
  | .clzB64 e => Sys2Proof.Machine.execClzB64 e s
  | .addB64 e => Sys2Proof.Machine.execAddB64 e s
  | .subB64 e => Sys2Proof.Machine.execSubB64 e s
  | .adda e => Sys2Proof.Machine.execAdda e s
  | .mulwS32 e => Sys2Proof.Machine.execMulwS32 e s
  | .icmpS32 e => Sys2Proof.Machine.execIcmpS32 e s
  | .icmpZ32 e => Sys2Proof.Machine.execIcmpZ32 e s
  | .sel e => Sys2Proof.Machine.execSel e s
  | .plop e => Sys2Proof.Machine.execPlop e s
  | .p2r e => Sys2Proof.Machine.execP2r e s
  | .r2p e => Sys2Proof.Machine.execR2p e s
  | .mov e => Sys2Proof.Machine.execMov e s
  | .movl e => Sys2Proof.Machine.execMovl e s
  | .movs e => Sys2Proof.Machine.execMovs e s
  | .movsw e => Sys2Proof.Machine.execMovsw e s
  | .ccnt e => Sys2Proof.Machine.execCcnt e s
  | .nop e => Sys2Proof.Machine.execNop e s
  | .faddF32 e => Sys2Proof.Machine.execFaddF32 e s
  | .fsubF32 e => Sys2Proof.Machine.execFsubF32 e s
  | .fmulF32 e => Sys2Proof.Machine.execFmulF32 e s
  | .ffmaF32 e => Sys2Proof.Machine.execFfmaF32 e s
  | .fminF32 e => Sys2Proof.Machine.execFminF32 e s
  | .fmaxF32 e => Sys2Proof.Machine.execFmaxF32 e s
  | .fcmpF32 e => Sys2Proof.Machine.execFcmpF32 e s
  | .fabsF32 e => Sys2Proof.Machine.execFabsF32 e s
  | .fnegF32 e => Sys2Proof.Machine.execFnegF32 e s
  | .fdivF32 e => Sys2Proof.Machine.execFdivF32 e s
  | .frcpF32 e => Sys2Proof.Machine.execFrcpF32 e s
  | .fsqrtF32 e => Sys2Proof.Machine.execFsqrtF32 e s
  | .frsqF32 e => Sys2Proof.Machine.execFrsqF32 e s
  | .fexp2F32 e => Sys2Proof.Machine.execFexp2F32 e s
  | .flog2F32 e => Sys2Proof.Machine.execFlog2F32 e s
  | .fsinpiF32 e => Sys2Proof.Machine.execFsinpiF32 e s
  | .fcospiF32 e => Sys2Proof.Machine.execFcospiF32 e s
  | .frndF32 e => Sys2Proof.Machine.execFrndF32 e s
  | .hadd2F16 e => Sys2Proof.Machine.execHadd2F16 e s
  | .hadd2Bf16 e => Sys2Proof.Machine.execHadd2Bf16 e s
  | .hmul2F16 e => Sys2Proof.Machine.execHmul2F16 e s
  | .hmul2Bf16 e => Sys2Proof.Machine.execHmul2Bf16 e s
  | .hfma2F16 e => Sys2Proof.Machine.execHfma2F16 e s
  | .hfma2Bf16 e => Sys2Proof.Machine.execHfma2Bf16 e s
  | .daddF64 e => Sys2Proof.Machine.execDaddF64 e s
  | .dmulF64 e => Sys2Proof.Machine.execDmulF64 e s
  | .dfmaF64 e => Sys2Proof.Machine.execDfmaF64 e s
  | .dcmpF64 e => Sys2Proof.Machine.execDcmpF64 e s
  | .cvtF32S32 e => Sys2Proof.Machine.execCvtF32S32 e s
  | .cvtF32Z32 e => Sys2Proof.Machine.execCvtF32Z32 e s
  | .cvtS32F32 e => Sys2Proof.Machine.execCvtS32F32 e s
  | .cvtZ32F32 e => Sys2Proof.Machine.execCvtZ32F32 e s
  | .cvtF16x2F32 e => Sys2Proof.Machine.execCvtF16x2F32 e s
  | .cvtBf16x2F32 e => Sys2Proof.Machine.execCvtBf16x2F32 e s
  | .cvtF32F16 e => Sys2Proof.Machine.execCvtF32F16 e s
  | .cvtF32Bf16 e => Sys2Proof.Machine.execCvtF32Bf16 e s
  | .cvtF64F32 e => Sys2Proof.Machine.execCvtF64F32 e s
  | .cvtF32F64 e => Sys2Proof.Machine.execCvtF32F64 e s
  | .cvtT8x4F32 e => Sys2Proof.Machine.execCvtT8x4F32 e s
  | .cvtT6x16F32 e => Sys2Proof.Machine.execCvtT6x16F32 e s
  | .cvtF32T8 e => Sys2Proof.Machine.execCvtF32T8 e s
  | .cvtF32T6 e => Sys2Proof.Machine.execCvtF32T6 e s
  | .scalexT8 e => Sys2Proof.Machine.execScalexT8 e s
  | .scalexT6 e => Sys2Proof.Machine.execScalexT6 e s
  | .cvtN8x4F32 e => Sys2Proof.Machine.execCvtN8x4F32 e s
  | .cvtF32N8 e => Sys2Proof.Machine.execCvtF32N8 e s
  | .shflIdx e => Sys2Proof.Machine.execShflIdx e s
  | .shflXor e => Sys2Proof.Machine.execShflXor e s
  | .shflUp e => Sys2Proof.Machine.execShflUp e s
  | .shflDown e => Sys2Proof.Machine.execShflDown e s
  | .voteAny e => Sys2Proof.Machine.execVoteAny e s
  | .voteAll e => Sys2Proof.Machine.execVoteAll e s
  | .ballot e => Sys2Proof.Machine.execBallot e s
  | .matchLanes e => Sys2Proof.Machine.execMatchLanes e s
  | .reduceAddS32 e => Sys2Proof.Machine.execReduceAddS32 e s
  | .reduceMinS32 e => Sys2Proof.Machine.execReduceMinS32 e s
  | .reduceMaxS32 e => Sys2Proof.Machine.execReduceMaxS32 e s
  | .reduceAddF32 e => Sys2Proof.Machine.execReduceAddF32 e s
  | .scanAddS32 e => Sys2Proof.Machine.execScanAddS32 e s
  | .scanAddF32 e => Sys2Proof.Machine.execScanAddF32 e s
  | .xclr e => Sys2Proof.Machine.execXclr e s
  | .xaccF32 e => Sys2Proof.Machine.execXaccF32 e s
  | .xmacF32 e => Sys2Proof.Machine.execXmacF32 e s
  | .xaccX320 e => Sys2Proof.Machine.execXaccX320 e s
  | .xrndF32 e => Sys2Proof.Machine.execXrndF32 e s
  | .xred e => Sys2Proof.Machine.execXred e s
  | .bra e => Sys2Proof.Machine.execBra e s
  | .brd e => Sys2Proof.Machine.execBrd e s
  | .reconv e => Sys2Proof.Machine.execReconv e s
  | .regang e => Sys2Proof.Machine.execRegang e s
  | .part e => Sys2Proof.Machine.execPart e s
  | .jmpr e => Sys2Proof.Machine.execJmpr e s
  | .call e => Sys2Proof.Machine.execCall e s
  | .callr e => Sys2Proof.Machine.execCallr e s
  | .ret e => Sys2Proof.Machine.execRet e s
  | .exit e => Sys2Proof.Machine.execExit e s
  | .barInit e => Sys2Proof.Machine.execBarInit e s
  | .barArv e => Sys2Proof.Machine.execBarArv e s
  | .barWait e => Sys2Proof.Machine.execBarWait e s
  | .barSync e => Sys2Proof.Machine.execBarSync e s
  | .barQry e => Sys2Proof.Machine.execBarQry e s
  | .waitc e => Sys2Proof.Machine.execWaitc e s
  | .waitr e => Sys2Proof.Machine.execWaitr e s
  | .yield e => Sys2Proof.Machine.execYield e s
  | .fence e => Sys2Proof.Machine.execFence e s
  | .qfence e => Sys2Proof.Machine.execQfence e s
  | .trap e => Sys2Proof.Machine.execTrap e s
  | .bkpt e => Sys2Proof.Machine.execBkpt e s
  | .rte e => Sys2Proof.Machine.execRte e s
  | .ldZ8 e => Sys2Proof.Machine.execLdZ8 e s
  | .ldS8 e => Sys2Proof.Machine.execLdS8 e s
  | .ldZ16 e => Sys2Proof.Machine.execLdZ16 e s
  | .ldS16 e => Sys2Proof.Machine.execLdS16 e s
  | .ldB32 e => Sys2Proof.Machine.execLdB32 e s
  | .ldB64 e => Sys2Proof.Machine.execLdB64 e s
  | .ldB128 e => Sys2Proof.Machine.execLdB128 e s
  | .stB8 e => Sys2Proof.Machine.execStB8 e s
  | .stB16 e => Sys2Proof.Machine.execStB16 e s
  | .stB32 e => Sys2Proof.Machine.execStB32 e s
  | .stB64 e => Sys2Proof.Machine.execStB64 e s
  | .stB128 e => Sys2Proof.Machine.execStB128 e s
  | .lddB32 e => Sys2Proof.Machine.execLddB32 e s
  | .lddB64 e => Sys2Proof.Machine.execLddB64 e s
  | .lddB128 e => Sys2Proof.Machine.execLddB128 e s
  | .stdB32 e => Sys2Proof.Machine.execStdB32 e s
  | .stdB64 e => Sys2Proof.Machine.execStdB64 e s
  | .stdB128 e => Sys2Proof.Machine.execStdB128 e s
  | .gldZ8 e => Sys2Proof.Machine.execGldZ8 e s
  | .gldB16 e => Sys2Proof.Machine.execGldB16 e s
  | .gldB32 e => Sys2Proof.Machine.execGldB32 e s
  | .gldB64 e => Sys2Proof.Machine.execGldB64 e s
  | .atomAddS32 e => Sys2Proof.Machine.execAtomAddS32 e s
  | .atomMinS32 e => Sys2Proof.Machine.execAtomMinS32 e s
  | .atomMaxS32 e => Sys2Proof.Machine.execAtomMaxS32 e s
  | .atomAndB32 e => Sys2Proof.Machine.execAtomAndB32 e s
  | .atomOrB32 e => Sys2Proof.Machine.execAtomOrB32 e s
  | .atomXorB32 e => Sys2Proof.Machine.execAtomXorB32 e s
  | .atomXchgB32 e => Sys2Proof.Machine.execAtomXchgB32 e s
  | .atomCasB32 e => Sys2Proof.Machine.execAtomCasB32 e s
  | .atomCasB64 e => Sys2Proof.Machine.execAtomCasB64 e s
  | .atomAddF32 e => Sys2Proof.Machine.execAtomAddF32 e s
  | .atomXadd e => Sys2Proof.Machine.execAtomXadd e s
  | .atomBump e => Sys2Proof.Machine.execAtomBump e s
  | .tagl e => Sys2Proof.Machine.execTagl e s
  | .tagi e => Sys2Proof.Machine.execTagi e s
  | .tage e => Sys2Proof.Machine.execTage e s
  | .cctl e => Sys2Proof.Machine.execCctl e s
  | .bld e => Sys2Proof.Machine.execBld e s
  | .bst e => Sys2Proof.Machine.execBst e s
  | .smpNear e => Sys2Proof.Machine.execSmpNear e s
  | .smpBil e => Sys2Proof.Machine.execSmpBil e s
  | .smpEpb e => Sys2Proof.Machine.execSmpEpb e s
  | .vdec e => Sys2Proof.Machine.execVdec e s
  | .vdecq e => Sys2Proof.Machine.execVdecq e s
  | .ldt e => Sys2Proof.Machine.execLdt e s
  | .obres e => Sys2Proof.Machine.execObres e s
  | .obrel e => Sys2Proof.Machine.execObrel e s
  | .obld e => Sys2Proof.Machine.execObld e s
  | .obldt e => Sys2Proof.Machine.execObldt e s
  | .obq e => Sys2Proof.Machine.execObq e s
  | .mmaT8 e => Sys2Proof.Machine.execMmaT8 e s
  | .mmaT6 e => Sys2Proof.Machine.execMmaT6 e s
  | .mmaS8 e => Sys2Proof.Machine.execMmaS8 e s
  | .mmaBf16 e => Sys2Proof.Machine.execMmaBf16 e s
  | .mmaF16 e => Sys2Proof.Machine.execMmaF16 e s
  | .mmaT8s e => Sys2Proof.Machine.execMmaT8s e s
  | .mmaT6s e => Sys2Proof.Machine.execMmaT6s e s
  | .mmaxT8 e => Sys2Proof.Machine.execMmaxT8 e s
  | .mmaxT6 e => Sys2Proof.Machine.execMmaxT6 e s
  | .mmaxS8 e => Sys2Proof.Machine.execMmaxS8 e s
  | .xfixF32 e => Sys2Proof.Machine.execXfixF32 e s
  | .cpy4 e => Sys2Proof.Machine.execCpy4 e s
  | .cpy8 e => Sys2Proof.Machine.execCpy8 e s
  | .cpy16 e => Sys2Proof.Machine.execCpy16 e s
  | .cpyb e => Sys2Proof.Machine.execCpyb e s
  | .bins e => Sys2Proof.Machine.execBins e s
  | .mcast e => Sys2Proof.Machine.execMcast e s
  | .cpyp e => Sys2Proof.Machine.execCpyp e s
  | .erset e => Sys2Proof.Machine.execErset e s
  | .erprim e => Sys2Proof.Machine.execErprim e s
  | .erfetch e => Sys2Proof.Machine.execErfetch e s
  | .erflush e => Sys2Proof.Machine.execErflush e s
  | .ivmov e => Sys2Proof.Machine.execIvmov e s
  | .ivld e => Sys2Proof.Machine.execIvld e s
  | .ivrep e => Sys2Proof.Machine.execIvrep e s
  | .ivpos e => Sys2Proof.Machine.execIvpos e s
  | .ivcnt e => Sys2Proof.Machine.execIvcnt e s
  | .ivmask e => Sys2Proof.Machine.execIvmask e s
  | .ivsplit e => Sys2Proof.Machine.execIvsplit e s
  | .ivst e => Sys2Proof.Machine.execIvst e s
  | .imst e => Sys2Proof.Machine.execImst e s
  | .imstx e => Sys2Proof.Machine.execImstx e s
  | .symq e => Sys2Proof.Machine.execSymq e s
  | .pmark e => Sys2Proof.Machine.execPmark e s
  | .smwait e => Sys2Proof.Machine.execSmwait e s
  | .resq e => Sys2Proof.Machine.execResq e s
  | .spawn e => Sys2Proof.Machine.execSpawn e s
  | .join e => Sys2Proof.Machine.execJoin e s
  | .qpop e => Sys2Proof.Machine.execQpop e s
  | .qpush e => Sys2Proof.Machine.execQpush e s
  | .pend e => Sys2Proof.Machine.execPend e s
  | .pcancel e => Sys2Proof.Machine.execPcancel e s
  | .prepeat e => Sys2Proof.Machine.execPrepeat e s

end Sys2Proof.Machine
end

