-- ==== Sys2Proof/WellFormed.lean ====
section
/-!
DEFINITION. Which terms of `Instr` stand for something the spec has: a WAITC without a prefix, a reserved opcode that is
reserved, and steps that name a unit that exists.
-/

namespace Sys2Proof

/-- The reserved opcode values of R80, as inclusive ranges. -/
def reservedRanges : List (Nat × Nat) :=
  [(0x040, 0x07F), (0x0C2, 0x0FF), (0x117, 0x17F), (0x1AE, 0x1AF), (0x1C0, 0x1C7), (0x1CF, 0x1D7), (0x1E4, 0x1E7),
   (0x1EB, 0x1EF), (0x1F3, 0x1F7)]

/-- A reserved opcode value (R80). -/
def reservedOpcode (op : BitVec 9) : Bool := reservedRanges.any fun r => r.1 ≤ op.toNat && op.toNat ≤ r.2

/-- A well-formed instruction or step. The code side: WAITC takes no XP (R74) and a reserved opcode is one of R80. The steps
name a pier of 256 (R6), a span queue of 4 (R8), a host queue of 4,096 (R229), a hardware slot of 128 (R240), a prologue engine of
4 (R6), a causeway port of 16 (R6), a die of 4, a stack of 8 and one of its 16 layers, a tier of 3 (R268), a boot image choice,
and bytes that fit the access (R425, R431). -/
def wellFormed : Instr → Bool
  | .waitc e => e.xp.isNone
  | .reservedOpcodeWord op _ => reservedOpcode op
  | .matrixEntryStart pier => pier < 256
  | .matrixEntryComplete pier => pier < 256
  | .rasterPrimitive pier => pier < 256
  | .erfetchComplete pier => pier < 256
  | .ivstPerform pier => pier < 256
  | .erflushComplete pier => pier < 256
  | .imageEntryComplete pier => pier < 256
  | .transferOpStart _ q => q < 4
  | .transferOpComplete _ q => q < 4
  | .mcastComplete _ q => q < 4
  | .qdescCreate q _ => q < 4096
  | .qdescDestroyDrain q => q < 4096
  | .qdescDestroyAbort q => q < 4096
  | .qdescDestroyAbortKill q => q < 4096
  | .doorbellWrite q _ => q < 4096
  | .launchPacket slot => slot < 128
  | .waitPacket slot => slot < 128
  | .waitReread slot => slot < 128
  | .signalPacket slot => slot < 128
  | .fencePacket slot => slot < 128
  | .tablePacket slot => slot < 128
  | .nopPacket slot => slot < 128
  | .slotbWrite slot _ => slot < 128
  | .slotiClear slot _ => slot < 128
  | .quantumExpired slot => slot < 128
  | .prologueInstructionLimit engine => engine < 4
  | .dieSlotReport die => die < 4
  | .spanPlace die => die < 4
  | .viaductLineEvict die _ => die < 4
  | .thermalThrottle die _ => die < 4
  | .thermalTrip die => die < 4
  | .layerFailingReport stack layer => stack < 8 && layer < 16
  | .mappedOutLayerClear stack layer => stack < 8 && layer < 16
  | .flitReceive port _ _ => port < 16
  | .flitReplay port => port < 16
  | .flitAck port _ => port < 16
  | .linkRetrain port => port < 16
  | .linkRetrained port => port < 16
  | .portDown port => port < 16
  | .hostCxlMemAccess _ tier _ _ => tier < 3
  | _ => true

end Sys2Proof
end

