-- ==== Sys2Proof/Decode.lean ====
section
/-!
DEFINITION. Decoding of code bytes (R61 to R82) and the encoder beside it.

`decode` is total: every halfword with bit 0 clear is a compact form (R77), every 32-bit word carries an opcode of the
map (R79) or a reserved one (R80), and an XP that may not stand where it stands is the step `xp` (R74). It refuses only a list
of bytes that ends before the word does. Whether the fields of a word are legal is no affair of the decoder: R81's checks
stand in `Machine/Operands.lean`.
-/

namespace Sys2Proof

/-- Why the decoder gives no instruction. -/
inductive DecodeError where
  /-- the bytes end before the instruction word does -/
  | truncated
  /-- the bytes given are no whole number of halfwords at an even offset (R61) -/
  | misaligned
  deriving DecidableEq, Repr

/-- The halfword of two bytes, the first the less significant (R61). -/
def halfOf (lo hi : Byte) : BitVec 16 := hi ++ lo

/-- A 32-bit word is {second halfword, first halfword} (R61). -/
def wordOf (first second : BitVec 16) : BitVec 32 := second ++ first

/-- Bit 0 of the first halfword: set for a 32-bit word (R61). -/
def isLong (h : BitVec 16) : Bool := h.getLsbD 0

/-- The 9-bit opcode field [9:1] of a first halfword (R64). -/
def opcodeField (h : BitVec 16) : BitVec 9 := h.extractLsb' 1 9

/-- The fields of a 32-bit word above its opcode (R64). -/
def encFields (w : BitVec 32) (xp : Option (BitVec 22)) : Enc where
  xp := xp
  rb := w.extractLsb' 26 6
  ra := w.extractLsb' 20 6
  rd := w.extractLsb' 14 6
  guard := w.extractLsb' 11 3
  u := w.getLsbD 10

/-- The fields of a compact word (R77). -/
def cmpFields (h : BitVec 16) : Cmp where
  rs := h.extractLsb' 11 5
  rd := h.extractLsb' 6 5
  g1 := h.getLsbD 5

/-- What stands in the code, before it is given its instruction: a 32-bit word with its prefix's payload, a compact
halfword, or an XP that may not stand where it stands. -/
inductive Shape where
  | word (op : BitVec 9) (e : Enc)
  | compact (op4 : BitVec 4) (c : Cmp)
  | xp (payload : BitVec 22)
  deriving DecidableEq, Repr


/-- The compact forms by op4 (R78). -/
noncomputable def compactTable : List (Nat × (Cmp → Instr)) :=
  [(0, .compactMov), (1, .compactAddS32), (2, .compactSubS32), (3, .compactAnd),
   (4, .compactOr), (5, .compactXor), (6, .compactShl), (7, .compactShrZ32),
   (8, .compactAddi), (9, .compactLi), (10, .compactFaddF32), (11, .compactFsubF32),
   (12, .compactFmulF32), (13, .compactFminF32), (14, .compactFmaxF32), (15, .compactMulloB32)]

/-- The opcodes of integer, bit, predicate and move (R79). -/
noncomputable def integerOps : List (Nat × (Enc → Instr)) :=
  [(0x000, .addS32), (0x001, .addsS32), (0x002, .subS32), (0x003, .subsS32),
   (0x004, .mulloB32), (0x005, .mulhiS32), (0x006, .mulhiZ32), (0x007, .madB32),
   (0x008, .divS32), (0x009, .divZ32), (0x00A, .remS32), (0x00B, .remZ32),
   (0x00C, .minS32), (0x00D, .maxS32), (0x00E, .minZ32), (0x00F, .maxZ32),
   (0x010, .and), (0x011, .or), (0x012, .xor), (0x013, .andn),
   (0x014, .shl), (0x015, .shrZ32), (0x016, .shrS32), (0x017, .rotl),
   (0x018, .addi), (0x019, .shli), (0x01A, .shriZ32), (0x01B, .shriS32),
   (0x01C, .andi), (0x01D, .li), (0x01E, .lih), (0x01F, .not),
   (0x020, .neg), (0x021, .absS32), (0x022, .clzB32), (0x023, .ctzB32),
   (0x024, .popcB32), (0x025, .brevB32), (0x026, .bfxZ32), (0x027, .bfxS32),
   (0x028, .bfi), (0x029, .prmt), (0x02A, .ilv2), (0x02B, .ilv3),
   (0x02C, .dlv2), (0x02D, .dlv3), (0x02E, .clzxB32), (0x02F, .clzB64),
   (0x030, .addB64), (0x031, .subB64), (0x032, .adda), (0x033, .mulwS32),
   (0x034, .icmpS32), (0x035, .icmpZ32), (0x036, .sel), (0x037, .plop),
   (0x038, .p2r), (0x039, .r2p), (0x03A, .mov), (0x03B, .movl),
   (0x03C, .movs), (0x03D, .movsw), (0x03E, .ccnt), (0x03F, .nop)]

/-- The opcodes of floating point, conversion, cross-lane and exact sums (R79). -/
noncomputable def floatOps : List (Nat × (Enc → Instr)) :=
  [(0x080, .faddF32), (0x081, .fsubF32), (0x082, .fmulF32), (0x083, .ffmaF32),
   (0x084, .fminF32), (0x085, .fmaxF32), (0x086, .fcmpF32), (0x087, .fabsF32),
   (0x088, .fnegF32), (0x089, .fdivF32), (0x08A, .frcpF32), (0x08B, .fsqrtF32),
   (0x08C, .frsqF32), (0x08D, .fexp2F32), (0x08E, .flog2F32), (0x08F, .fsinpiF32),
   (0x090, .fcospiF32), (0x091, .frndF32), (0x092, .hadd2F16), (0x093, .hadd2Bf16),
   (0x094, .hmul2F16), (0x095, .hmul2Bf16), (0x096, .hfma2F16), (0x097, .hfma2Bf16),
   (0x098, .daddF64), (0x099, .dmulF64), (0x09A, .dfmaF64), (0x09B, .dcmpF64),
   (0x09C, .cvtF32S32), (0x09D, .cvtF32Z32), (0x09E, .cvtS32F32), (0x09F, .cvtZ32F32),
   (0x0A0, .cvtF16x2F32), (0x0A1, .cvtBf16x2F32), (0x0A2, .cvtF32F16), (0x0A3, .cvtF32Bf16),
   (0x0A4, .cvtF64F32), (0x0A5, .cvtF32F64), (0x0A6, .cvtT8x4F32), (0x0A7, .cvtT6x16F32),
   (0x0A8, .cvtF32T8), (0x0A9, .cvtF32T6), (0x0AA, .scalexT8), (0x0AB, .scalexT6),
   (0x0AC, .cvtN8x4F32), (0x0AD, .cvtF32N8), (0x0AE, .shflIdx), (0x0AF, .shflXor),
   (0x0B0, .shflUp), (0x0B1, .shflDown), (0x0B2, .voteAny), (0x0B3, .voteAll),
   (0x0B4, .ballot), (0x0B5, .matchLanes), (0x0B6, .reduceAddS32), (0x0B7, .reduceMinS32),
   (0x0B8, .reduceMaxS32), (0x0B9, .reduceAddF32), (0x0BA, .scanAddS32), (0x0BB, .scanAddF32),
   (0x0BC, .xclr), (0x0BD, .xaccF32), (0x0BE, .xmacF32), (0x0BF, .xaccX320),
   (0x0C0, .xrndF32), (0x0C1, .xred)]

/-- The opcodes of control flow, barriers, waits and traps (R79). -/
noncomputable def controlOps : List (Nat × (Enc → Instr)) :=
  [(0x100, .bra), (0x101, .brd), (0x102, .reconv), (0x103, .regang),
   (0x104, .part), (0x105, .jmpr), (0x106, .call), (0x107, .callr),
   (0x108, .ret), (0x109, .exit), (0x10A, .barInit), (0x10B, .barArv),
   (0x10C, .barWait), (0x10D, .barSync), (0x10E, .barQry), (0x10F, .waitc),
   (0x110, .waitr), (0x111, .yield), (0x112, .fence), (0x113, .qfence),
   (0x114, .trap), (0x115, .bkpt), (0x116, .rte)]

/-- The opcodes of global, deck, gather, atomics and tag table (R79). -/
noncomputable def memoryOps : List (Nat × (Enc → Instr)) :=
  [(0x180, .ldZ8), (0x181, .ldS8), (0x182, .ldZ16), (0x183, .ldS16),
   (0x184, .ldB32), (0x185, .ldB64), (0x186, .ldB128), (0x187, .stB8),
   (0x188, .stB16), (0x189, .stB32), (0x18A, .stB64), (0x18B, .stB128),
   (0x18C, .lddB32), (0x18D, .lddB64), (0x18E, .lddB128), (0x18F, .stdB32),
   (0x190, .stdB64), (0x191, .stdB128), (0x192, .gldZ8), (0x193, .gldB16),
   (0x194, .gldB32), (0x195, .gldB64), (0x196, .atomAddS32), (0x197, .atomMinS32),
   (0x198, .atomMaxS32), (0x199, .atomAndB32), (0x19A, .atomOrB32), (0x19B, .atomXorB32),
   (0x19C, .atomXchgB32), (0x19D, .atomCasB32), (0x19E, .atomCasB64), (0x19F, .atomAddF32),
   (0x1A0, .atomXadd), (0x1A1, .atomBump), (0x1A2, .tagl), (0x1A3, .tagi),
   (0x1A4, .tage), (0x1A5, .cctl)]

/-- The opcodes of the conversion stage (R79). -/
noncomputable def conversionOps : List (Nat × (Enc → Instr)) :=
  [(0x1A6, .bld), (0x1A7, .bst), (0x1A8, .smpNear), (0x1A9, .smpBil),
   (0x1AA, .smpEpb), (0x1AB, .vdec), (0x1AC, .vdecq), (0x1AD, .ldt)]

/-- The opcodes of the matrix engine (R79). -/
noncomputable def matrixOps : List (Nat × (Enc → Instr)) :=
  [(0x1B0, .obres), (0x1B1, .obrel), (0x1B2, .obld), (0x1B3, .obldt),
   (0x1B4, .obq), (0x1B5, .mmaT8), (0x1B6, .mmaT6), (0x1B7, .mmaS8),
   (0x1B8, .mmaBf16), (0x1B9, .mmaF16), (0x1BA, .mmaT8s), (0x1BB, .mmaT6s),
   (0x1BC, .mmaxT8), (0x1BD, .mmaxT6), (0x1BE, .mmaxS8), (0x1BF, .xfixF32)]

/-- The opcodes of the transfer engine (R79). -/
noncomputable def transferOps : List (Nat × (Enc → Instr)) :=
  [(0x1C8, .cpy4), (0x1C9, .cpy8), (0x1CA, .cpy16), (0x1CB, .cpyb),
   (0x1CC, .bins), (0x1CD, .mcast), (0x1CE, .cpyp)]

/-- The opcodes of the raster engine and interval registers (R79). -/
noncomputable def rasterOps : List (Nat × (Enc → Instr)) :=
  [(0x1D8, .erset), (0x1D9, .erprim), (0x1DA, .erfetch), (0x1DB, .erflush),
   (0x1DC, .ivmov), (0x1DD, .ivld), (0x1DE, .ivrep), (0x1DF, .ivpos),
   (0x1E0, .ivcnt), (0x1E1, .ivmask), (0x1E2, .ivsplit), (0x1E3, .ivst)]

/-- The opcodes of image unit, trestle and front end (R79). -/
noncomputable def tierOps : List (Nat × (Enc → Instr)) :=
  [(0x1E8, .imst), (0x1E9, .imstx), (0x1EA, .symq), (0x1F0, .pmark),
   (0x1F1, .smwait), (0x1F2, .resq), (0x1F8, .spawn), (0x1F9, .join),
   (0x1FA, .qpop), (0x1FB, .qpush), (0x1FC, .pend), (0x1FD, .pcancel),
   (0x1FE, .prepeat)]

/-- The opcode map (R79). -/
noncomputable def opTable : List (Nat × (Enc → Instr)) :=
  integerOps ++ floatOps ++ controlOps ++ memoryOps ++ conversionOps ++ matrixOps ++ transferOps ++ rasterOps ++ tierOps

/-- The instruction of a word with a 9-bit opcode other than XP: the map's, or a reserved one (R79, R80). -/
noncomputable def instrOf (op : BitVec 9) (e : Enc) : Instr :=
  match Machine.keyFind op.toNat opTable with
  | some mk => mk e
  | none => .reservedOpcodeWord op e

/-- The compact instruction of an op4 (R78). -/
noncomputable def compactOf (op4 : BitVec 4) (c : Cmp) : Instr :=
  match Machine.keyFind op4.toNat compactTable with
  | some mk => mk c
  | none => .compactMov c

/-- The instruction of what stands in the code. -/
noncomputable def instrOfShape : Shape → Instr
  | .word op e => instrOf op e
  | .compact op4 c => compactOf op4 c
  | .xp p => .xp p

/-- The opcode of XP (R71). -/
def xpOpcode : BitVec 9 := 0x1FF

/-- The opcode of WAITC, which takes no XP (R68, R74). -/
def waitcOpcode : BitVec 9 := 0x10F

/-- The 22 payload bits [31:10] of an XP word (R71). -/
def xpPayload (w : BitVec 32) : BitVec 22 := w.extractLsb' 10 22

/-- Decodes the word after an XP at block offset `off` (R71, R74): the extended word, or the misuse of the prefix. -/
def decodeAfterXp (off : Nat) (payload : BitVec 22) (rest : List Byte) : Except DecodeError (Shape × Nat) :=
  if off + 8 > 64 then .ok (.xp payload, 4)
  else
    match rest with
    | b0 :: b1 :: rest' =>
      let h0 := halfOf b0 b1
      if !isLong h0 then .ok (.xp payload, 4)
      else if opcodeField h0 = xpOpcode then .ok (.xp payload, 4)
      else if opcodeField h0 = waitcOpcode then .ok (.xp payload, 4)
      else
        match rest' with
        | b2 :: b3 :: _ =>
          .ok (.word (opcodeField h0) (encFields (wordOf h0 (halfOf b2 b3)) (some payload)), 8)
        | _ => .error .truncated
    | _ => .error .truncated

/-- Decodes the instruction at the head of `bytes`, which begin at offset `off` of a 64-byte fetch block (R61, R62, R74);
with it, its length in bytes. -/
def decodeShape (off : Nat) (bytes : List Byte) : Except DecodeError (Shape × Nat) :=
  if off % 2 = 1 then .error .misaligned
  else
  match bytes with
  | b0 :: b1 :: rest =>
    let h0 := halfOf b0 b1
    if !isLong h0 then .ok (.compact (h0.extractLsb' 1 4) (cmpFields h0), 2)
    else
      match rest with
      | b2 :: b3 :: rest' =>
        let w := wordOf h0 (halfOf b2 b3)
        if opcodeField h0 = xpOpcode then decodeAfterXp off (xpPayload w) rest'
        else .ok (.word (opcodeField h0) (encFields w none), 4)
      | _ => .error .truncated
  | _ => .error .truncated

/-- Decodes the instruction at the head of `bytes`, at offset `off` of a fetch block; with it, its length in bytes. -/
noncomputable def decode (off : Nat) (bytes : List Byte) : Except DecodeError (Instr × Nat) :=
  match decodeShape off bytes with
  | .ok (sh, n) => .ok (instrOfShape sh, n)
  | .error err => .error err

/-! ### The encoder -/

/-- The 32-bit word of an opcode and its fields (R64). -/
def packWord (op : BitVec 9) (e : Enc) : BitVec 32 :=
  e.rb ++ e.ra ++ e.rd ++ e.guard ++ BitVec.ofBool e.u ++ op ++ (1 : BitVec 1)

/-- The XP word of a payload (R71). -/
def packXp (payload : BitVec 22) : BitVec 32 := payload ++ xpOpcode ++ (1 : BitVec 1)

/-- The compact halfword of op4 and its fields (R77). -/
def packCompact (op4 : BitVec 4) (c : Cmp) : BitVec 16 :=
  c.rs ++ c.rd ++ BitVec.ofBool c.g1 ++ op4 ++ (0 : BitVec 1)

/-- A halfword's bytes, the less significant first. -/
def halfBytes (h : BitVec 16) : List Byte := [h.extractLsb' 0 8, h.extractLsb' 8 8]

/-- A word's bytes, the least significant first. -/
def wordBytes (w : BitVec 32) : List Byte := halfBytes (w.extractLsb' 0 16) ++ halfBytes (w.extractLsb' 16 16)

/-- The opcode and fields of an instruction (R78 to R80); a step of an engine, of the front end, of the host or of the keystone has no
encoding. -/
def shapeOf : Instr → Option Shape
  | .addS32 e => some (.word 0x000 e)
  | .addsS32 e => some (.word 0x001 e)
  | .subS32 e => some (.word 0x002 e)
  | .subsS32 e => some (.word 0x003 e)
  | .mulloB32 e => some (.word 0x004 e)
  | .mulhiS32 e => some (.word 0x005 e)
  | .mulhiZ32 e => some (.word 0x006 e)
  | .madB32 e => some (.word 0x007 e)
  | .divS32 e => some (.word 0x008 e)
  | .divZ32 e => some (.word 0x009 e)
  | .remS32 e => some (.word 0x00A e)
  | .remZ32 e => some (.word 0x00B e)
  | .minS32 e => some (.word 0x00C e)
  | .maxS32 e => some (.word 0x00D e)
  | .minZ32 e => some (.word 0x00E e)
  | .maxZ32 e => some (.word 0x00F e)
  | .and e => some (.word 0x010 e)
  | .or e => some (.word 0x011 e)
  | .xor e => some (.word 0x012 e)
  | .andn e => some (.word 0x013 e)
  | .shl e => some (.word 0x014 e)
  | .shrZ32 e => some (.word 0x015 e)
  | .shrS32 e => some (.word 0x016 e)
  | .rotl e => some (.word 0x017 e)
  | .addi e => some (.word 0x018 e)
  | .shli e => some (.word 0x019 e)
  | .shriZ32 e => some (.word 0x01A e)
  | .shriS32 e => some (.word 0x01B e)
  | .andi e => some (.word 0x01C e)
  | .li e => some (.word 0x01D e)
  | .lih e => some (.word 0x01E e)
  | .not e => some (.word 0x01F e)
  | .neg e => some (.word 0x020 e)
  | .absS32 e => some (.word 0x021 e)
  | .clzB32 e => some (.word 0x022 e)
  | .ctzB32 e => some (.word 0x023 e)
  | .popcB32 e => some (.word 0x024 e)
  | .brevB32 e => some (.word 0x025 e)
  | .bfxZ32 e => some (.word 0x026 e)
  | .bfxS32 e => some (.word 0x027 e)
  | .bfi e => some (.word 0x028 e)
  | .prmt e => some (.word 0x029 e)
  | .ilv2 e => some (.word 0x02A e)
  | .ilv3 e => some (.word 0x02B e)
  | .dlv2 e => some (.word 0x02C e)
  | .dlv3 e => some (.word 0x02D e)
  | .clzxB32 e => some (.word 0x02E e)
  | .clzB64 e => some (.word 0x02F e)
  | .addB64 e => some (.word 0x030 e)
  | .subB64 e => some (.word 0x031 e)
  | .adda e => some (.word 0x032 e)
  | .mulwS32 e => some (.word 0x033 e)
  | .icmpS32 e => some (.word 0x034 e)
  | .icmpZ32 e => some (.word 0x035 e)
  | .sel e => some (.word 0x036 e)
  | .plop e => some (.word 0x037 e)
  | .p2r e => some (.word 0x038 e)
  | .r2p e => some (.word 0x039 e)
  | .mov e => some (.word 0x03A e)
  | .movl e => some (.word 0x03B e)
  | .movs e => some (.word 0x03C e)
  | .movsw e => some (.word 0x03D e)
  | .ccnt e => some (.word 0x03E e)
  | .nop e => some (.word 0x03F e)
  | .faddF32 e => some (.word 0x080 e)
  | .fsubF32 e => some (.word 0x081 e)
  | .fmulF32 e => some (.word 0x082 e)
  | .ffmaF32 e => some (.word 0x083 e)
  | .fminF32 e => some (.word 0x084 e)
  | .fmaxF32 e => some (.word 0x085 e)
  | .fcmpF32 e => some (.word 0x086 e)
  | .fabsF32 e => some (.word 0x087 e)
  | .fnegF32 e => some (.word 0x088 e)
  | .fdivF32 e => some (.word 0x089 e)
  | .frcpF32 e => some (.word 0x08A e)
  | .fsqrtF32 e => some (.word 0x08B e)
  | .frsqF32 e => some (.word 0x08C e)
  | .fexp2F32 e => some (.word 0x08D e)
  | .flog2F32 e => some (.word 0x08E e)
  | .fsinpiF32 e => some (.word 0x08F e)
  | .fcospiF32 e => some (.word 0x090 e)
  | .frndF32 e => some (.word 0x091 e)
  | .hadd2F16 e => some (.word 0x092 e)
  | .hadd2Bf16 e => some (.word 0x093 e)
  | .hmul2F16 e => some (.word 0x094 e)
  | .hmul2Bf16 e => some (.word 0x095 e)
  | .hfma2F16 e => some (.word 0x096 e)
  | .hfma2Bf16 e => some (.word 0x097 e)
  | .daddF64 e => some (.word 0x098 e)
  | .dmulF64 e => some (.word 0x099 e)
  | .dfmaF64 e => some (.word 0x09A e)
  | .dcmpF64 e => some (.word 0x09B e)
  | .cvtF32S32 e => some (.word 0x09C e)
  | .cvtF32Z32 e => some (.word 0x09D e)
  | .cvtS32F32 e => some (.word 0x09E e)
  | .cvtZ32F32 e => some (.word 0x09F e)
  | .cvtF16x2F32 e => some (.word 0x0A0 e)
  | .cvtBf16x2F32 e => some (.word 0x0A1 e)
  | .cvtF32F16 e => some (.word 0x0A2 e)
  | .cvtF32Bf16 e => some (.word 0x0A3 e)
  | .cvtF64F32 e => some (.word 0x0A4 e)
  | .cvtF32F64 e => some (.word 0x0A5 e)
  | .cvtT8x4F32 e => some (.word 0x0A6 e)
  | .cvtT6x16F32 e => some (.word 0x0A7 e)
  | .cvtF32T8 e => some (.word 0x0A8 e)
  | .cvtF32T6 e => some (.word 0x0A9 e)
  | .scalexT8 e => some (.word 0x0AA e)
  | .scalexT6 e => some (.word 0x0AB e)
  | .cvtN8x4F32 e => some (.word 0x0AC e)
  | .cvtF32N8 e => some (.word 0x0AD e)
  | .shflIdx e => some (.word 0x0AE e)
  | .shflXor e => some (.word 0x0AF e)
  | .shflUp e => some (.word 0x0B0 e)
  | .shflDown e => some (.word 0x0B1 e)
  | .voteAny e => some (.word 0x0B2 e)
  | .voteAll e => some (.word 0x0B3 e)
  | .ballot e => some (.word 0x0B4 e)
  | .matchLanes e => some (.word 0x0B5 e)
  | .reduceAddS32 e => some (.word 0x0B6 e)
  | .reduceMinS32 e => some (.word 0x0B7 e)
  | .reduceMaxS32 e => some (.word 0x0B8 e)
  | .reduceAddF32 e => some (.word 0x0B9 e)
  | .scanAddS32 e => some (.word 0x0BA e)
  | .scanAddF32 e => some (.word 0x0BB e)
  | .xclr e => some (.word 0x0BC e)
  | .xaccF32 e => some (.word 0x0BD e)
  | .xmacF32 e => some (.word 0x0BE e)
  | .xaccX320 e => some (.word 0x0BF e)
  | .xrndF32 e => some (.word 0x0C0 e)
  | .xred e => some (.word 0x0C1 e)
  | .bra e => some (.word 0x100 e)
  | .brd e => some (.word 0x101 e)
  | .reconv e => some (.word 0x102 e)
  | .regang e => some (.word 0x103 e)
  | .part e => some (.word 0x104 e)
  | .jmpr e => some (.word 0x105 e)
  | .call e => some (.word 0x106 e)
  | .callr e => some (.word 0x107 e)
  | .ret e => some (.word 0x108 e)
  | .exit e => some (.word 0x109 e)
  | .barInit e => some (.word 0x10A e)
  | .barArv e => some (.word 0x10B e)
  | .barWait e => some (.word 0x10C e)
  | .barSync e => some (.word 0x10D e)
  | .barQry e => some (.word 0x10E e)
  | .waitc e => some (.word 0x10F e)
  | .waitr e => some (.word 0x110 e)
  | .yield e => some (.word 0x111 e)
  | .fence e => some (.word 0x112 e)
  | .qfence e => some (.word 0x113 e)
  | .trap e => some (.word 0x114 e)
  | .bkpt e => some (.word 0x115 e)
  | .rte e => some (.word 0x116 e)
  | .ldZ8 e => some (.word 0x180 e)
  | .ldS8 e => some (.word 0x181 e)
  | .ldZ16 e => some (.word 0x182 e)
  | .ldS16 e => some (.word 0x183 e)
  | .ldB32 e => some (.word 0x184 e)
  | .ldB64 e => some (.word 0x185 e)
  | .ldB128 e => some (.word 0x186 e)
  | .stB8 e => some (.word 0x187 e)
  | .stB16 e => some (.word 0x188 e)
  | .stB32 e => some (.word 0x189 e)
  | .stB64 e => some (.word 0x18A e)
  | .stB128 e => some (.word 0x18B e)
  | .lddB32 e => some (.word 0x18C e)
  | .lddB64 e => some (.word 0x18D e)
  | .lddB128 e => some (.word 0x18E e)
  | .stdB32 e => some (.word 0x18F e)
  | .stdB64 e => some (.word 0x190 e)
  | .stdB128 e => some (.word 0x191 e)
  | .gldZ8 e => some (.word 0x192 e)
  | .gldB16 e => some (.word 0x193 e)
  | .gldB32 e => some (.word 0x194 e)
  | .gldB64 e => some (.word 0x195 e)
  | .atomAddS32 e => some (.word 0x196 e)
  | .atomMinS32 e => some (.word 0x197 e)
  | .atomMaxS32 e => some (.word 0x198 e)
  | .atomAndB32 e => some (.word 0x199 e)
  | .atomOrB32 e => some (.word 0x19A e)
  | .atomXorB32 e => some (.word 0x19B e)
  | .atomXchgB32 e => some (.word 0x19C e)
  | .atomCasB32 e => some (.word 0x19D e)
  | .atomCasB64 e => some (.word 0x19E e)
  | .atomAddF32 e => some (.word 0x19F e)
  | .atomXadd e => some (.word 0x1A0 e)
  | .atomBump e => some (.word 0x1A1 e)
  | .tagl e => some (.word 0x1A2 e)
  | .tagi e => some (.word 0x1A3 e)
  | .tage e => some (.word 0x1A4 e)
  | .cctl e => some (.word 0x1A5 e)
  | .bld e => some (.word 0x1A6 e)
  | .bst e => some (.word 0x1A7 e)
  | .smpNear e => some (.word 0x1A8 e)
  | .smpBil e => some (.word 0x1A9 e)
  | .smpEpb e => some (.word 0x1AA e)
  | .vdec e => some (.word 0x1AB e)
  | .vdecq e => some (.word 0x1AC e)
  | .ldt e => some (.word 0x1AD e)
  | .obres e => some (.word 0x1B0 e)
  | .obrel e => some (.word 0x1B1 e)
  | .obld e => some (.word 0x1B2 e)
  | .obldt e => some (.word 0x1B3 e)
  | .obq e => some (.word 0x1B4 e)
  | .mmaT8 e => some (.word 0x1B5 e)
  | .mmaT6 e => some (.word 0x1B6 e)
  | .mmaS8 e => some (.word 0x1B7 e)
  | .mmaBf16 e => some (.word 0x1B8 e)
  | .mmaF16 e => some (.word 0x1B9 e)
  | .mmaT8s e => some (.word 0x1BA e)
  | .mmaT6s e => some (.word 0x1BB e)
  | .mmaxT8 e => some (.word 0x1BC e)
  | .mmaxT6 e => some (.word 0x1BD e)
  | .mmaxS8 e => some (.word 0x1BE e)
  | .xfixF32 e => some (.word 0x1BF e)
  | .cpy4 e => some (.word 0x1C8 e)
  | .cpy8 e => some (.word 0x1C9 e)
  | .cpy16 e => some (.word 0x1CA e)
  | .cpyb e => some (.word 0x1CB e)
  | .bins e => some (.word 0x1CC e)
  | .mcast e => some (.word 0x1CD e)
  | .cpyp e => some (.word 0x1CE e)
  | .erset e => some (.word 0x1D8 e)
  | .erprim e => some (.word 0x1D9 e)
  | .erfetch e => some (.word 0x1DA e)
  | .erflush e => some (.word 0x1DB e)
  | .ivmov e => some (.word 0x1DC e)
  | .ivld e => some (.word 0x1DD e)
  | .ivrep e => some (.word 0x1DE e)
  | .ivpos e => some (.word 0x1DF e)
  | .ivcnt e => some (.word 0x1E0 e)
  | .ivmask e => some (.word 0x1E1 e)
  | .ivsplit e => some (.word 0x1E2 e)
  | .ivst e => some (.word 0x1E3 e)
  | .imst e => some (.word 0x1E8 e)
  | .imstx e => some (.word 0x1E9 e)
  | .symq e => some (.word 0x1EA e)
  | .pmark e => some (.word 0x1F0 e)
  | .smwait e => some (.word 0x1F1 e)
  | .resq e => some (.word 0x1F2 e)
  | .spawn e => some (.word 0x1F8 e)
  | .join e => some (.word 0x1F9 e)
  | .qpop e => some (.word 0x1FA e)
  | .qpush e => some (.word 0x1FB e)
  | .pend e => some (.word 0x1FC e)
  | .pcancel e => some (.word 0x1FD e)
  | .prepeat e => some (.word 0x1FE e)
  | .xp p => some (.xp p)
  | .compactMov c => some (.compact 0 c)
  | .compactAddS32 c => some (.compact 1 c)
  | .compactSubS32 c => some (.compact 2 c)
  | .compactAnd c => some (.compact 3 c)
  | .compactOr c => some (.compact 4 c)
  | .compactXor c => some (.compact 5 c)
  | .compactShl c => some (.compact 6 c)
  | .compactShrZ32 c => some (.compact 7 c)
  | .compactAddi c => some (.compact 8 c)
  | .compactLi c => some (.compact 9 c)
  | .compactFaddF32 c => some (.compact 10 c)
  | .compactFsubF32 c => some (.compact 11 c)
  | .compactFmulF32 c => some (.compact 12 c)
  | .compactFminF32 c => some (.compact 13 c)
  | .compactFmaxF32 c => some (.compact 14 c)
  | .compactMulloB32 c => some (.compact 15 c)
  | .lsuOpComplete _ _ _ => none
  | .gatherReturn _ _ _ _ => none
  | .conversionOpComplete _ _ _ => none
  | .decodeOpComplete _ _ _ => none
  | .matrixEntryStart _ => none
  | .matrixEntryComplete _ => none
  | .transferOpStart _ _ => none
  | .transferOpComplete _ _ => none
  | .mcastComplete _ _ => none
  | .peerWriteAck _ _ _ _ => none
  | .peerErrorResponse _ _ _ _ _ => none
  | .peerAccessIngress _ _ _ => none
  | .rasterPrimitive _ => none
  | .erfetchComplete _ => none
  | .ivstPerform _ => none
  | .erflushComplete _ => none
  | .imageEntryComplete _ => none
  | .walkerTestPoint _ => none
  | .haltSkidExpire _ _ => none
  | .handlerEntry _ => none
  | .groupSlotFree _ _ => none
  | .spanExitCounted _ => none
  | .spanKillReport _ => none
  | .spanRelaunch _ => none
  | .qdescCreate _ _ => none
  | .qdescDestroyDrain _ => none
  | .qdescDestroyAbort _ => none
  | .qdescDestroyAbortKill _ => none
  | .doorbellWrite _ _ => none
  | .queueBind => none
  | .launchPacket _ => none
  | .waitPacket _ => none
  | .waitReread _ => none
  | .signalPacket _ => none
  | .fencePacket _ => none
  | .tablePacket _ => none
  | .nopPacket _ => none
  | .prologueStart _ => none
  | .prologueInstructionLimit _ => none
  | .prologueRerun _ => none
  | .launchComplete _ => none
  | .slotbWrite _ _ => none
  | .slotiClear _ _ => none
  | .quantumExpired _ => none
  | .dieSlotReport _ => none
  | .batchDecision => none
  | .spanPlace _ => none
  | .powerRefresh => none
  | .starvationPreempt _ => none
  | .slotDeadlock => none
  | .preemptRequest _ => none
  | .spanSave _ => none
  | .preemptTimeout _ => none
  | .spanRestore _ => none
  | .tlbinvStart _ => none
  | .tlbinvComplete => none
  | .replayRetry _ => none
  | .replayCancel _ => none
  | .faultqWrite _ => none
  | .hwFaultService _ _ => none
  | .pageMoveStart _ => none
  | .pageMoveComplete _ => none
  | .mapoutRequest _ => none
  | .layerFailingReport _ _ => none
  | .mapoutCommit => none
  | .spareWrite _ => none
  | .viaductLineEvict _ _ => none
  | .trestleMoveStart _ => none
  | .pmarkApply _ _ => none
  | .trestleLaunchEnd _ => none
  | .flitReceive _ _ _ => none
  | .flitReplay _ => none
  | .flitAck _ _ => none
  | .linkRetrain _ => none
  | .portDown _ => none
  | .hostCxlMemAccess _ _ _ _ => none
  | .evqWrite _ => none
  | .privilegedRegisterWrite _ _ => none
  | .coldBoot _ _ => none
  | .recoveryImage _ => none
  | .warmReset _ => none
  | .spdmRequest _ => none
  | .thermalThrottle _ _ => none
  | .thermalTrip _ => none
  | .reservedOpcodeWord op e => some (.word op e)
  | .linkRetrained _ => none
  | .mappedOutLayerClear _ _ => none

/-- The bytes of what stands in the code, the XP before the word it extends (R61, R71). -/
def shapeBytes : Shape → List Byte
  | .word op e =>
    match e.xp with
    | none => wordBytes (packWord op e)
    | some p => wordBytes (packXp p) ++ wordBytes (packWord op e)
  | .compact op4 c => halfBytes (packCompact op4 c)
  | .xp p => wordBytes (packXp p)

/-- The bytes of a well-formed instruction as code; a step has none. -/
def encode (i : Instr) : List Byte :=
  match shapeOf i with
  | some sh => shapeBytes sh
  | none => []

/-- The opcodes of the compact operations on two registers, each with its op4 (R78). -/
def compactOps : List (BitVec 9 × BitVec 4) :=
  [(0x000, 1), (0x002, 2), (0x010, 3), (0x011, 4), (0x012, 5), (0x014, 6), (0x015, 7), (0x080, 10), (0x081, 11), (0x082, 12), (0x084, 13),
   (0x085, 14), (0x004, 15)]

/-- The source field of the compact word that does what a 32-bit word does, with its op4: one of the sixteen compact operations with rd = ra,
its second register in v0 to v31 or its immediate in −16 to 15 (R28, R78). -/
def compactSource (op : BitVec 9) (e : Enc) : Option (BitVec 4 × BitVec 5) :=
  let register (r : BitVec 6) : Option (BitVec 5) := if r < 32 then some (r.setWidth 5) else none
  let immediate (v : Int) : Option (BitVec 5) := if -16 ≤ v ∧ v ≤ 15 then some (BitVec.ofInt 5 v) else none
  if op = 0x03A then (register e.ra).map (0, ·)
  else if op = 0x01D then (immediate (e.rb ++ e.ra).toInt).map (9, ·)
  else if e.rd ≠ e.ra then none
  else if op = 0x018 then (immediate e.rb.toInt).map (8, ·)
  else (compactOps.find? (·.1 = op)).bind fun p => (register e.rb).map (p.2, ·)

/-- The form onkas writes for an instruction: under `.compact on` a 16-bit word where the instruction has one and its destination lies in v0
to v31, its guard is none or p1, and it has neither U nor a prefix; else, and always under `.compact off`, 32 bits (R28). -/
def assembled (compact : Bool) : Shape → Shape
  | .word op e =>
    if compact ∧ e.xp = none ∧ e.u = false ∧ e.guard ≤ 1 ∧ e.rd < 32 then
      match compactSource op e with
      | some (op4, rs) => .compact op4 ⟨rs, e.rd.setWidth 5, e.guard = 1⟩
      | none => .word op e
    else .word op e
  | sh => sh

/-- What the decoder reads from an instruction whose bits are `w` as the opcode table numbers them: the words stand in memory
little-endian, the first at the lowest address (R61), every bit above `nbits` zero, at the start of a fetch block. -/
noncomputable def decodeTableWord (nbits w : Nat) : Option Instr :=
  if nbits = 0 then none
  else
    match decode 0 (Machine.natToBytes 8 (w % 2 ^ nbits)) with
    | .ok (i, _) => some i
    | .error _ => none

end Sys2Proof
end

