-- ==== Sys2Proof/Machine/Fetch.lean ====
section
/-!
DEFINITION. Fetching the instruction of the issuing gang or prologue (R61 to R63, R75, R280).
-/

namespace Sys2Proof.Machine

/-- What a fetch comes to: the bytes from the pc on with the blocks then held, or the access that stops it. -/
inductive Code where
  | bytes (bs : List Byte) (blocks : List CodeBlock)
  | stop (p : Part)
  deriving DecidableEq, Repr

/-- The pier whose translations and copies a fetch uses; a prologue engine uses none. -/
def fetchPier (s : State) : Option Nat :=
  match s.issuer with
  | .gang _ _ _ => some (curPier s)
  | _ => none

/-- The blocks the issuing gang holds: those of its first slice. -/
def heldBlocks (s : State) : List CodeBlock :=
  match curSlices s with
  | k :: _ => (((curGroup s).slices[k]?).map (·.blocks)).getD []
  | [] => []

/-- The offset of the issuing gang's pc in its block. -/
def codeOffset (s : State) : Nat := (curPc s).toNat % 64

/-- The bytes left in a block begin a word that ends in the next one: a 32-bit word other than XP at offset 62 (R62). -/
def straddles (bs : List Byte) : Bool :=
  match bs with
  | [b0, b1] => isLong (halfOf b0 b1) && opcodeField (halfOf b0 b1) != xpOpcode
  | _ => false

/-- The code at the issuing gang's pc. Two bytes of an XP at offset 62 say that it is misused (R74); zeros stand for the rest of it. -/
def fetchCode (s : State) : Code :=
  let va := (curPc s).toNat / 64 * 64
  let held := heldBlocks s
  match fetchBlock s (fetchPier s) (curCtx s) held va with
  | .stop p => .stop p
  | .ok b =>
    let bs := b.bytes.drop (codeOffset s)
    if straddles bs then
      match fetchBlock s (fetchPier s) (curCtx s) held (va + 64) with
      | .stop p => .stop p
      | .ok c => .bytes (bs ++ c.bytes) [b, c]
    else .bytes (if bs.length = 2 then bs ++ [0, 0] else bs) [b]

/-- A parked fetch: it has no operation and no lanes. -/
def isFetchPark (p : Parked) : Bool := p.op.isNone && p.lanes == 0

/-- The issuing gang holds these blocks, and its fetch waits no more (log 55, DESIGN CHOICE). -/
def holdBlocks (bs : List CodeBlock) (s : State) : State :=
  let held := heldBlocks s
  let s := bs.foldl (fun acc b => noteFetch (fetchPier s) (curCtx s) held b acc) s
  let s := setMyParked ((myParked s).filter fun p => !isFetchPark p) s
  modCur s fun g => modSlices g (curSlices s) fun sl => { sl with blocks := bs }

/-- A fetch from a page the host owns waits in any launch (R280). -/
def fetchReplays (p : Part) (s : State) : Bool :=
  match p.at_ with
  | .hostOwned _ => true
  | _ => curReplay s

/-- A fetch that meets a fault traps with 3:r, or 0:8 where the block is not executable; otherwise it parks; no guard
can be read, so a trap records all the active lanes of the gang (R178, R220, R280) (log 51, DEDUCED). -/
def stopFetch (p : Part) (s : State) : State :=
  match firstFault (fetchReplays p s) [p] with
  | some r => faultWith (if r = 8 then 0 else 3) r (gangLanes s) (setMyParked [] s)
  | none =>
    let place := faultPlace s (curCtx s) p.va
    let s := setMyParked [⟨issuerSlice s, 0, none, parkCause p, place.1, place.2 / 4096, parkLock p, false, false, none, none⟩] s
    postPart (curCtx s) (curPier s) p s

/-- A parked fetch that is cancelled. -/
def fetchCancelled (s : State) : Option Cause := ((myParked s).find? fun p => isFetchPark p && p.cancel).map (·.cause)

end Sys2Proof.Machine
end

