-- ==== Sys2Proof/Machine/Schedule.lean ====
section
/-!
DEFINITION. Who moves in a step: which gang a quadrant issues (R128 to R130), the instructions of a prologue engine (R237), and the steps of
the other agents that are due when nobody is named (log 3).
-/

namespace Sys2Proof.Machine

/-- What runs the instruction decoded from what stands in the code. -/
abbrev Runner := Sys2Proof.Shape → State → Host.Outcome State Fault Refusal

/-! ### Ready gangs (R129, R130, R218, R261) -/

/-- A slice of a group is parted. -/
def groupParted (g : Group) : Bool := g.slices.any fun sl => sliceLive sl && sl.part.isSome

/-- The wait of a gang or parted slice lets it issue; in a skid a blocking point holds it (R218) (log 12, DEDUCED). -/
def waitOpen (s : State) (sid : Nat) (sp : Span) (g : Group) (slice : Option Nat) : Bool :=
  match waitOf g slice with
  | none => true
  | some w => waitReady s sid sp g w && !(g.skid.isSome && blockingWait g w)

/-- The parked accesses of a gang or parted slice let it issue: there are none, or some may retry or are cancelled; in a skid they hold it
(log 12, DEDUCED). -/
def parkOpen (g : Group) (slice : Option Nat) : Bool :=
  let ps := g.parked.filter fun p => p.slice == slice
  ps.isEmpty || (g.skid.isNone && ps.any fun p => p.retry || p.cancel)

/-- A slice waits at REGANG. -/
def atRegang (g : Group) (slice : Option Nat) : Bool :=
  match slice with
  | none => false
  | some k => ((g.slices[k]?).map (·.atRegang)).getD false

/-- A gang or parted slice can issue. -/
def gangReady (s : State) (sid : Nat) (sp : Span) (g : Group) (slice : Option Nat) : Bool :=
  !atRegang g slice && waitOpen s sid sp g slice && parkOpen g slice &&
  !(gangSlices g slice).isEmpty && ((gangSlices g slice).all fun k => ((g.slices[k]?).map sliceLive).getD false)

/-- An answer to PMARK is awaited: no slice of the group goes on (R287). -/
def awaitsMark (g : Group) : Bool :=
  g.waits.any fun w =>
    match w.wait with
    | .pmark _ missed => !missed && !w.woken
    | _ => false

/-- A group may issue at all: its span runs, it has not stopped, its skid is not used up, and it is not parked for a pre-emption
(log 13, DEDUCED). -/
def groupOpen (sp : Span) (g : Group) : Bool :=
  (match sp.place with | .running _ => true | _ => false) && sp.killed.isNone && !g.freed && !groupExited g && !g.halted &&
  (match g.skid with | none => true | some n => decide (n < 8)) &&
  !(sp.marked && sp.handler.isNone && sp.trap.isNone && groupParked g) && !awaitsMark g

/-- The parted slices in the order they are served: round-robin after the last one. -/
def sliceOrder (last : Nat) : List Nat := (upTo 8).map fun i => (last + 1 + i) % 8

/-- The gangs of a group that can issue, in the order they are served. -/
def readyGangs (s : State) (sid : Nat) (sp : Span) (g : Group) : List (Option Nat) :=
  if !groupOpen sp g then []
  else if groupParted g then ((sliceOrder g.lastSlice).map some).filter (gangReady s sid sp g)
  else [none].filter (gangReady s sid sp g)

/-! ### An issue -/

/-- An instruction of the issuing gang: fetched, decoded and run. -/
def runFetched (run : Runner) (s : State) : Host.Outcome State Fault Refusal :=
  match fetchCancelled s with
  | some c => .next (faultWith (c.toNat / 32) (c.toNat % 32) (gangLanes s) (setMyParked [] s))
  | none =>
    match fetchCode s with
    | .stop p => .next (stopFetch p s)
    | .bytes bs blocks =>
      match decodeShape (codeOffset s) bs with
      | .ok (sh, _) => run sh (holdBlocks blocks s)
      | .error _ => .fault .shortFetch

/-- The opcodes of the transfers of control, which may leave their group as it was: BRA, BRD, JMPR, CALL, CALLR, RET. -/
def jumpCode (s : State) : Bool :=
  match fetchCode s with
  | .bytes bs _ =>
    match decodeShape (codeOffset s) bs with
    | .ok (.word op _, _) => [0x100, 0x101, 0x105, 0x106, 0x107, 0x108].contains op.toNat
    | _ => false
  | .stop _ => false

/-- A group without the code blocks it holds. -/
def forgetBlocks (g : Group) : Group := modSlices g (upTo 8) fun sl => { sl with blocks := [] }

/-- An issue got somewhere: the group is no more as it was, its code blocks apart, or the instruction is a transfer of control. Where
neither holds, the issue has stalled (R9, R12) (log 12, DEDUCED). -/
def wentOn (s s' : State) (sid n : Nat) : Bool :=
  (findGroup s' sid n).map forgetBlocks != (findGroup s sid n).map forgetBlocks || jumpCode s

/-- A storage of a group holds an uncorrectable error (R216). -/
def groupStruck (s : State) (sid n : Nat) : Bool := ((findGroup s sid n).map fun g => !g.struck.isEmpty).getD false

/-- The instruction at the issuing gang's pc reads and writes registers alone, or is an ERSET or ERPRIM: it does not order a plain store
before what a raster engine then does (R88, R389) (log 80, DESIGN CHOICE). -/
def quietCode (s : State) : Bool :=
  match fetchCode s with
  | .bytes bs _ =>
    match decodeShape (codeOffset s) bs with
    | .ok (.word op _, _) => decide (op.toNat < 0x100) || op == 0x1D8 || op == 0x1D9
    | .ok (.compact _ _, _) => true
    | _ => false
  | .stop _ => false

/-- A gang about to issue: what its group's earlier instructions have still to perform is performed first, unless the instruction does not
ask for it (R86, R90). -/
def issuing (sid n : Nat) (slice : Option Nat) (s : State) : State :=
  let s := { s with issuer := .gang sid n slice }
  if quietCode s then s else settleGroup sid n s

/-- An issue of a gang; an uncorrectable error in one of its group's storages kills the span (R216) (log 67, DESIGN CHOICE). -/
def runIssue (run : Runner) (sid n : Nat) (s : State) : Host.Outcome State Fault Refusal :=
  if groupStruck s sid n then .next (killPoisoned sid s) else runFetched run s

/-- The issue of a gang would go on: the gang can issue (R129) (log 12, DEDUCED). -/
def canIssue (run : Runner) (sid n : Nat) (s : State) (slice : Option Nat) : Bool :=
  let s0 := issuing sid n slice s
  match runIssue run sid n s0 with
  | .next s' => wentOn s0 s' sid n
  | _ => true

/-- A parked access of the gang is of an instruction, not of a fetch. -/
def midAccess (g : Group) (slice : Option Nat) : Bool := g.parked.any fun p => p.slice == slice && !isFetchPark p

/-- The gang's fetch waits. -/
def fetchParked (g : Group) (slice : Option Nat) : Bool := g.parked.any fun p => p.slice == slice && isFetchPark p

/-- An instruction that its group issues in a skid is counted once: at its first issue, and not where only its fetch has parked (R218)
(log 12, DEDUCED). -/
def countSkid (sid n : Nat) (slice : Option Nat) (before after : State) : State :=
  match findGroup before sid n with
  | none => after
  | some g =>
    if g.skid.isNone || (waitOf g slice).isSome || midAccess g slice then after
    else
      modGroup after sid n fun x => if x.halted || fetchParked x slice then x else { x with skid := x.skid.map (· + 1) }

/-! ### Whom a quadrant issues (R128, R129) -/

/-- A ready group: span, residence, group, and its gangs that can issue. -/
structure Ready where
  sid : Nat
  since : Nat
  g : Group
  gangs : List (Option Nat)

/-- The groups of a quadrant of a pier that are ready. -/
def readyGroups (run : Runner) (s : State) (pier quadrant : Nat) : List Ready :=
  (s.spans.map fun p =>
    if spanPier p.2 = pier && onPier p.2 then
      p.2.groups.filterMap fun g =>
        if g.slot % 4 ≠ quadrant then none
        else
          let gs := (readyGangs s p.1 p.2 g).filter (canIssue run p.1 g.num s)
          if gs.isEmpty then none else some ⟨p.1, p.2.since, g, gs⟩
    else []).flatten

/-- The longest resident span first, then the group that issued least recently (R129); what is left level goes by span identity and group
number (log 3, DESIGN CHOICE). -/
def goesBefore (a b : Ready) : Bool :=
  if a.since ≠ b.since then decide (a.since < b.since)
  else if a.sid ≠ b.sid then decide (a.sid < b.sid)
  else if a.g.lastIssue ≠ b.g.lastIssue then decide (a.g.lastIssue < b.g.lastIssue)
  else decide (a.g.num ≤ b.g.num)

/-- An item entered in its order. -/
def insertReady (x : Ready) : List Ready → List Ready
  | [] => [x]
  | y :: rest => if goesBefore x y then x :: y :: rest else y :: insertReady x rest

/-- Ready groups in R129's order. -/
def sortReady (l : List Ready) : List Ready := l.foldl (fun acc x => insertReady x acc) []

/-- With `x` issuing now, no other ready group is passed over for more than 64 issue clocks: for each k, at most k of them must issue within
k further clocks (R129) (log 12, DEDUCED). -/
def boundKept (l : List Ready) (x : Ready) : Bool :=
  let others := l.filter fun y => !(y.sid == x.sid && y.g.num == x.g.num)
  (upTo 64).all fun k => decide ((others.filter fun y => decide (64 - k ≤ y.g.passed + 1)).length ≤ k + 1)

/-- The gang that a quadrant issues, of its ready groups. -/
def chosen (ready : List Ready) : Option (Nat × Nat × Option Nat) :=
  let l := sortReady ready
  match (l.find? (boundKept l)).orElse fun _ => l.head? with
  | none => none
  | some x => (x.gangs.head?).map fun sl => (x.sid, x.g.num, sl)

/-- The clock of a quadrant counted: the issuing group, the ready ones passed over, the others (R129). -/
def countClock (ready : List Ready) (who : Option (Nat × Nat × Option Nat)) (s : State) (quadrant pier : Nat) : State :=
  let count (id : Nat) (g : Group) : Group :=
    if g.slot % 4 ≠ quadrant then g
    else
      match who with
      | some (sid, n, slice) =>
        if id = sid && g.num = n then
          { g with
            lastIssue := s.time
            lastSlice := slice.getD g.lastSlice
            passed := 0 }
        else if ready.any fun r => r.sid == id && r.g.num == g.num then { g with passed := g.passed + 1 }
        else { g with passed := 0 }
      | none => { g with passed := 0 }
  { s with spans := s.spans.map fun p =>
      if spanPier p.2 = pier && onPier p.2 then (p.1, { p.2 with groups := p.2.groups.map (count p.1) }) else p }

/-- The die of a pier issues: the power manager withholds nothing (R3, R436) (log 24, DESIGN CHOICE). -/
def dieIssues (s : State) (die : Nat) : Bool := !((s.outside.throttled[die]?).getD false)

/-- The chosen gang's issue, with its clock counted. -/
def issueChosen (run : Runner) (ready : List Ready) (pier quadrant : Nat) (s : State) (who : Nat × Nat × Option Nat) :
    Host.Outcome State Fault Refusal :=
  let s0 := issuing who.1 who.2.1 who.2.2 (countClock ready (some who) s quadrant pier)
  match runIssue run who.1 who.2.1 s0 with
  | .next s' => .next (countSkid who.1 who.2.1 who.2.2 s0 s')
  | .fault f => .fault f
  | .refused r => .refused r

/-- One issue clock of a quadrant; where no gang can issue only time passes. -/
def issueTurn (run : Runner) (pier quadrant : Nat) (s : State) : Host.Outcome State Fault Refusal :=
  if s.outside.boot ≠ .running || !dieIssues s (pier / 64) then .next s
  else
    let ready := readyGroups run s pier quadrant
    match chosen ready with
    | none => .next (countClock ready none s quadrant pier)
    | some who => issueChosen run ready pier quadrant s who

/-! ### Prologue engines (R237) -/

/-- An engine runs a prologue, has not executed 4,096 instructions, and does not wait for a page. -/
def engineReady (s : State) (e : Nat) : Bool :=
  match s.fe.engines[e]? with
  | none => false
  | some en => en.launch.isSome && decide (en.count < 4096) && parkOpen en.grp none

/-- An instruction executed by an engine that still runs the same prologue is counted; one that waits is not. -/
def countPrologue (e : Nat) (before after : State) : State :=
  match before.fe.engines[e]?, after.fe.engines[e]? with
  | some a, some b =>
    if a.launch = b.launch && (b.grp.slices != a.grp.slices || jumpCode before) then
      modFe (fun fe => { fe with engines := listSet (fun en => { en with count := en.count + 1 }) e fe.engines }) after
    else after
  | _, _ => after

/-- One instruction of a prologue engine. -/
def prologueTurn (run : Runner) (e : Nat) (s : State) : Host.Outcome State Fault Refusal :=
  if s.outside.boot ≠ .running || !engineReady s e then .next s
  else
    let s := { s with issuer := .prologue e }
    match runFetched run s with
    | .next s' => .next (countPrologue e s s')
    | .fault f => .fault f
    | .refused r => .refused r

/-! ### Steps of the other agents -/

/-- While no firmware runs, or the part is held in reset, only the keystone's own steps act (R434, R436). -/
def eventActs (s : State) (i : Instr) : Bool :=
  s.outside.boot == .running ||
    match i with
    | .coldBoot _ _ => true
    | .recoveryImage _ => true
    | .warmReset _ => true
    | .mappedOutLayerClear _ _ => true
    | _ => false

/-- The completion step of an operation. -/
def opStep (sid g : Nat) (o : OpRec) : List Instr :=
  (match o.kind with
    | .lsu => [.lsuOpComplete sid g o.id]
    | .gather => [.gatherReturn sid g o.id 0]
    | .conversion => [.conversionOpComplete sid g o.id]
    | .decode => [.decodeOpComplete sid g o.id]
    | .engine => []) ++ o.ports.map fun (p : Nat × Nat) => .peerWriteAck sid g o.id p.2

/-- The steps that may be due for a group; its posted PMARKs are applied also after its slot is free (R287). -/
def groupSteps (sid : Nat) (g : Group) : List Instr :=
  .pmarkApply sid g.num :: if g.freed then [] else [.haltSkidExpire sid g.num, .groupSlotFree sid g.num]

/-- The transfer queues of a pier that hold work, by span and queue. -/
def busyQueues (s : State) (pier : Nat) : List (Nat × Nat) :=
  ((pierSpans s pier).map fun p => ((upTo 4).filter fun q => !((p.2.queues[q]?).getD []).isEmpty).map fun q => (p.1, q)).flatten

/-- The steps of a pier's transfer engine: its queues in turn, by span and then by queue, from past the one it started last (R350). -/
def transferSteps (s : State) (pier : Nat) : List Instr :=
  let qs := busyQueues s pier
  let last := keyFind pier s.served
  let later (x : Nat × Nat) : Bool := (last.map fun l => decide (l.1 < x.1) || (l.1 == x.1 && decide (l.2 < x.2))).getD true
  ((qs.filter later ++ qs.filter fun x => !later x).map fun x =>
    [.transferOpStart x.1 x.2, .transferOpComplete x.1 x.2, .mcastComplete x.1 x.2]).flatten

/-- The steps that may be due for a span. -/
def spanSteps (sid : Nat) (sp : Span) : List Instr :=
  (sp.groups.map fun g => (g.ops.map (opStep sid g.num)).flatten).flatten ++
  (sp.groups.map (groupSteps sid)).flatten ++
  [.handlerEntry sid, .spanRelaunch sid, .spanKillReport sid, .spanExitCounted sid, .spanSave sid, .spanRestore sid]

/-- The steps that may be due for a pier's engines. -/
def pierSteps (p : Nat) : List Instr :=
  [.matrixEntryStart p, .matrixEntryComplete p, .rasterPrimitive p, .erfetchComplete p, .ivstPerform p, .erflushComplete p,
    .imageEntryComplete p]

/-- The steps that may be due for a launch. -/
def launchSteps (l : Nat) : List Instr :=
  [.prologueStart l, .prologueRerun l, .walkerTestPoint l, .trestleMoveStart l, .trestleLaunchEnd l, .launchComplete l]

/-- The steps that may be due for a slot. -/
def slotSteps (n : Nat) : List Instr :=
  [.nopPacket n, .waitPacket n, .waitReread n, .signalPacket n, .fencePacket n, .tablePacket n, .launchPacket n]

/-- The steps that the part itself may be about to take, in a fixed order (log 3, DESIGN CHOICE) (log 75, DESIGN CHOICE). -/
def dueSteps (s : State) : List Instr :=
  (s.spans.map fun p => if onPier p.2 || placeSaved p.2.place then spanSteps p.1 p.2 else []).flatten ++
  (((s.spans.filterMap fun p => placePier p.2.place).eraseDups).map (transferSteps s)).flatten ++
  ((s.matrix.map (·.1) ++ s.raster.map (·.1) ++ s.image.map (·.1)).eraseDups.map pierSteps).flatten ++
  (s.vm.faultOpen.filterMap fun f => if f.hw then some (.hwFaultService f.ctx f.page) else none) ++
  (s.vm.moves.map fun m => [.pageMoveStart m.id, .pageMoveComplete m.id]).flatten ++
  [.mapoutCommit, .tlbinvComplete] ++
  (s.launches.map fun p => launchSteps p.1).flatten ++
  ((upTo 4).map .prologueInstructionLimit) ++ [.queueBind] ++ (s.fe.slots.map fun p => slotSteps p.1).flatten ++
  ((upTo 4).map .dieSlotReport) ++ ((upTo 4).map .spanPlace) ++ [.batchDecision]

/-- The first step of a list that changes the state. -/
def firstChange (event : Instr → State → Host.Outcome State Fault Refusal) (s : State) : List Instr → Option State
  | [] => none
  | i :: rest =>
    match event i s with
    | .next s' => if s' = s then firstChange event s rest else some s'
    | _ => firstChange event s rest

/-- The quadrants that have a ready group, as 4·pier + quadrant, and the engines, as 1,024 + number. -/
def readyTurns (s : State) : List Nat :=
  ((s.spans.map fun (p : Nat × Span) =>
    if onPier p.2 && dieIssues s (spanPier p.2 / 64) then
      p.2.groups.filterMap fun (g : Group) => if (readyGangs s p.1 p.2 g).isEmpty then none else some (4 * spanPier p.2 + g.slot % 4)
    else []).flatten ++ ((upTo 4).filter (engineReady s)).map (1024 + ·)).eraseDups

/-- The least number of a list that is at least `n`, else the least. -/
def nextTurn (n : Nat) (l : List Nat) : Option Nat :=
  let least (l : List Nat) : Option Nat := l.foldl (fun (m : Option Nat) x => some (min x (m.getD x))) none
  match least (l.filter fun x => decide (n ≤ x)) with
  | some x => some x
  | none => least l

/-- A step without a named agent: a step of the part that is due, else the next issue or prologue instruction in turn, else time passes
(log 3, DESIGN CHOICE). -/
def defaultTurn (run : Runner) (event : Instr → State → Host.Outcome State Fault Refusal) (s : State) :
    Host.Outcome State Fault Refusal :=
  if s.outside.boot ≠ .running then .next s
  else
    let settled := settleAtomics s
    match firstChange event settled (dueSteps settled) with
    | some s' => .next s'
    | none =>
      match nextTurn s.turn (readyTurns s) with
      | none => .next s
      | some n =>
        let s := { s with turn := (n + 1) % 1028 }
        if 1024 ≤ n then prologueTurn run (n - 1024) s else issueTurn run (n / 4) (n % 4) s

/-- Of the accesses of several granules some late writes are performed, free ones (R90) (log 80, DESIGN CHOICE). -/
def trickleLate (s : State) : State :=
  if s.late.isEmpty then s
  else
    let (d, s) := draw s
    settleWrites (fun w => Sys2Proof.Config.freeBit (2 ^ 64 * d + w.key / 8)) s

/-- While the part runs, the keystone posts the uncorrectable errors met, and at times, free ones, a summary of the correctable errors, whose
cause is free (R429) (log 67, DESIGN CHOICE). -/
def reportErrors (s : State) : State :=
  if s.outside.boot ≠ .running then s
  else
    let s := s.outside.ras.foldl (fun acc c => postEvent 3 c.toNat acc) { s with outside := { s.outside with ras := [] } }
    if ringBase s.outside.evq = 0 then s
    else
      let (d, s) := draw s
      if Sys2Proof.Config.freeBit (2 ^ 64 * d) then postEvent 2 ((Sys2Proof.Config.freeWord d).toNat % 2 ^ 9) s else s

/-- Time passes: the pier clock by what the part counts, stopping short of a wrap (R134, R153) (log 75, DESIGN CHOICE). -/
def passTime (s : State) : State :=
  let s := reportErrors (trickleLate s)
  let c := s.clock.toNat + (Sys2Proof.Config.clocksOfStep s.time).toNat
  { s with
    clock := if c < 2 ^ 64 - 2 ^ 32 then BitVec.ofNat 64 c else s.clock
    time := s.time + 1
    issuer := .nobody }

/-- One step: the agent that the agenda names moves, or the default one (log 3, DESIGN CHOICE). -/
def takeTurn (run : Runner) (event : Instr → State → Host.Outcome State Fault Refusal) (s : State) :
    Host.Outcome State Fault Refusal :=
  match s.agenda with
  | [] => defaultTurn run event (passTime s)
  | t :: rest =>
    let s := passTime { s with agenda := rest }
    match t with
    | .issue pier quadrant => issueTurn run pier quadrant s
    | .prologue e => prologueTurn run e s
    | .event i => if eventActs s i then event i (settleAtomics s) else .next s

end Sys2Proof.Machine
end

