-- ==== Sys2Proof/Machine/Direct.lean ====
section
/-!
DEFINITION. The meanings by opcode: what `exec` does with the instruction of an opcode, found without building the instruction. It says
nothing new: `execShape_eq` proves it equal to `exec` of the decoded instruction, and it exists so that a step can be run.
-/

namespace Sys2Proof.Machine

/-- What an instruction's fields do to the state. -/
abbrev Meaning := Enc → State → Host.Outcome State Fault Refusal

/-- The same for a compact form. -/
abbrev CmpMeaning := Cmp → State → Host.Outcome State Fault Refusal

/-- The meanings of integer, bit, predicate and move. -/
def integerMeanings : List (Nat × Meaning) :=
  [(0x000, execAddS32), (0x001, execAddsS32), (0x002, execSubS32), (0x003, execSubsS32), (0x004, execMulloB32),
   (0x005, execMulhiS32), (0x006, execMulhiZ32), (0x007, execMadB32), (0x008, execDivS32), (0x009, execDivZ32),
   (0x00A, execRemS32), (0x00B, execRemZ32), (0x00C, execMinS32), (0x00D, execMaxS32), (0x00E, execMinZ32),
   (0x00F, execMaxZ32), (0x010, execAnd), (0x011, execOr), (0x012, execXor), (0x013, execAndn), (0x014, execShl),
   (0x015, execShrZ32), (0x016, execShrS32), (0x017, execRotl), (0x018, execAddi), (0x019, execShli),
   (0x01A, execShriZ32), (0x01B, execShriS32), (0x01C, execAndi), (0x01D, execLi), (0x01E, execLih), (0x01F, execNot),
   (0x020, execNeg), (0x021, execAbsS32), (0x022, execClzB32), (0x023, execCtzB32), (0x024, execPopcB32),
   (0x025, execBrevB32), (0x026, execBfxZ32), (0x027, execBfxS32), (0x028, execBfi), (0x029, execPrmt),
   (0x02A, execIlv2), (0x02B, execIlv3), (0x02C, execDlv2), (0x02D, execDlv3), (0x02E, execClzxB32),
   (0x02F, execClzB64), (0x030, execAddB64), (0x031, execSubB64), (0x032, execAdda), (0x033, execMulwS32),
   (0x034, execIcmpS32), (0x035, execIcmpZ32), (0x036, execSel), (0x037, execPlop), (0x038, execP2r), (0x039, execR2p),
   (0x03A, execMov), (0x03B, execMovl), (0x03C, execMovs), (0x03D, execMovsw), (0x03E, execCcnt), (0x03F, execNop)]

/-- The meanings of float. -/
def floatMeanings : List (Nat × Meaning) :=
  [(0x080, execFaddF32), (0x081, execFsubF32), (0x082, execFmulF32), (0x083, execFfmaF32), (0x084, execFminF32),
   (0x085, execFmaxF32), (0x086, execFcmpF32), (0x087, execFabsF32), (0x088, execFnegF32), (0x089, execFdivF32),
   (0x08A, execFrcpF32), (0x08B, execFsqrtF32), (0x08C, execFrsqF32), (0x08D, execFexp2F32), (0x08E, execFlog2F32),
   (0x08F, execFsinpiF32), (0x090, execFcospiF32), (0x091, execFrndF32), (0x092, execHadd2F16), (0x093, execHadd2Bf16),
   (0x094, execHmul2F16), (0x095, execHmul2Bf16), (0x096, execHfma2F16), (0x097, execHfma2Bf16), (0x098, execDaddF64),
   (0x099, execDmulF64), (0x09A, execDfmaF64), (0x09B, execDcmpF64), (0x09C, execCvtF32S32), (0x09D, execCvtF32Z32),
   (0x09E, execCvtS32F32), (0x09F, execCvtZ32F32), (0x0A0, execCvtF16x2F32), (0x0A1, execCvtBf16x2F32),
   (0x0A2, execCvtF32F16), (0x0A3, execCvtF32Bf16), (0x0A4, execCvtF64F32), (0x0A5, execCvtF32F64),
   (0x0A6, execCvtT8x4F32), (0x0A7, execCvtT6x16F32), (0x0A8, execCvtF32T8), (0x0A9, execCvtF32T6),
   (0x0AA, execScalexT8), (0x0AB, execScalexT6), (0x0AC, execCvtN8x4F32), (0x0AD, execCvtF32N8), (0x0AE, execShflIdx),
   (0x0AF, execShflXor), (0x0B0, execShflUp), (0x0B1, execShflDown), (0x0B2, execVoteAny), (0x0B3, execVoteAll),
   (0x0B4, execBallot), (0x0B5, execMatchLanes), (0x0B6, execReduceAddS32), (0x0B7, execReduceMinS32),
   (0x0B8, execReduceMaxS32), (0x0B9, execReduceAddF32), (0x0BA, execScanAddS32), (0x0BB, execScanAddF32),
   (0x0BC, execXclr), (0x0BD, execXaccF32), (0x0BE, execXmacF32), (0x0BF, execXaccX320), (0x0C0, execXrndF32),
   (0x0C1, execXred)]

/-- The meanings of control. -/
def controlMeanings : List (Nat × Meaning) :=
  [(0x100, execBra), (0x101, execBrd), (0x102, execReconv), (0x103, execRegang), (0x104, execPart), (0x105, execJmpr),
   (0x106, execCall), (0x107, execCallr), (0x108, execRet), (0x109, execExit), (0x10A, execBarInit),
   (0x10B, execBarArv), (0x10C, execBarWait), (0x10D, execBarSync), (0x10E, execBarQry), (0x10F, execWaitc),
   (0x110, execWaitr), (0x111, execYield), (0x112, execFence), (0x113, execQfence), (0x114, execTrap),
   (0x115, execBkpt), (0x116, execRte)]

/-- The meanings of memory access. -/
def memoryMeanings : List (Nat × Meaning) :=
  [(0x180, execLdZ8), (0x181, execLdS8), (0x182, execLdZ16), (0x183, execLdS16), (0x184, execLdB32),
   (0x185, execLdB64), (0x186, execLdB128), (0x187, execStB8), (0x188, execStB16), (0x189, execStB32),
   (0x18A, execStB64), (0x18B, execStB128), (0x18C, execLddB32), (0x18D, execLddB64), (0x18E, execLddB128),
   (0x18F, execStdB32), (0x190, execStdB64), (0x191, execStdB128), (0x192, execGldZ8), (0x193, execGldB16),
   (0x194, execGldB32), (0x195, execGldB64), (0x196, execAtomAddS32), (0x197, execAtomMinS32), (0x198, execAtomMaxS32),
   (0x199, execAtomAndB32), (0x19A, execAtomOrB32), (0x19B, execAtomXorB32), (0x19C, execAtomXchgB32),
   (0x19D, execAtomCasB32), (0x19E, execAtomCasB64), (0x19F, execAtomAddF32), (0x1A0, execAtomXadd),
   (0x1A1, execAtomBump), (0x1A2, execTagl), (0x1A3, execTagi), (0x1A4, execTage), (0x1A5, execCctl)]

/-- The meanings of conversion. -/
def conversionMeanings : List (Nat × Meaning) :=
  [(0x1A6, execBld), (0x1A7, execBst), (0x1A8, execSmpNear), (0x1A9, execSmpBil), (0x1AA, execSmpEpb),
   (0x1AB, execVdec), (0x1AC, execVdecq), (0x1AD, execLdt)]

/-- The meanings of the matrix engine. -/
def matrixMeanings : List (Nat × Meaning) :=
  [(0x1B0, execObres), (0x1B1, execObrel), (0x1B2, execObld), (0x1B3, execObldt), (0x1B4, execObq), (0x1B5, execMmaT8),
   (0x1B6, execMmaT6), (0x1B7, execMmaS8), (0x1B8, execMmaBf16), (0x1B9, execMmaF16), (0x1BA, execMmaT8s),
   (0x1BB, execMmaT6s), (0x1BC, execMmaxT8), (0x1BD, execMmaxT6), (0x1BE, execMmaxS8), (0x1BF, execXfixF32)]

/-- The meanings of the transfer engine. -/
def transferMeanings : List (Nat × Meaning) :=
  [(0x1C8, execCpy4), (0x1C9, execCpy8), (0x1CA, execCpy16), (0x1CB, execCpyb), (0x1CC, execBins), (0x1CD, execMcast),
   (0x1CE, execCpyp)]

/-- The meanings of the raster engine. -/
def rasterMeanings : List (Nat × Meaning) :=
  [(0x1D8, execErset), (0x1D9, execErprim), (0x1DA, execErfetch), (0x1DB, execErflush), (0x1DC, execIvmov),
   (0x1DD, execIvld), (0x1DE, execIvrep), (0x1DF, execIvpos), (0x1E0, execIvcnt), (0x1E1, execIvmask),
   (0x1E2, execIvsplit), (0x1E3, execIvst)]

/-- The meanings of image unit, trestle and front end. -/
def tierMeanings : List (Nat × Meaning) :=
  [(0x1E8, execImst), (0x1E9, execImstx), (0x1EA, execSymq), (0x1F0, execPmark), (0x1F1, execSmwait),
   (0x1F2, execResq), (0x1F8, execSpawn), (0x1F9, execJoin), (0x1FA, execQpop), (0x1FB, execQpush), (0x1FC, execPend),
   (0x1FD, execPcancel), (0x1FE, execPrepeat)]

/-- The meanings of the compact forms. -/
def compactMeanings : List (Nat × CmpMeaning) :=
  [(0, execCompactMov), (1, execCompactAddS32), (2, execCompactSubS32), (3, execCompactAnd),
   (4, execCompactOr), (5, execCompactXor), (6, execCompactShl), (7, execCompactShrZ32),
   (8, execCompactAddi), (9, execCompactLi), (10, execCompactFaddF32), (11, execCompactFsubF32),
   (12, execCompactFmulF32), (13, execCompactFminF32), (14, execCompactFmaxF32), (15, execCompactMulloB32)]

/-- The meanings of every opcode of the map. -/
def opMeanings : List (Nat × Meaning) :=
  integerMeanings ++ floatMeanings ++ controlMeanings ++ memoryMeanings ++ conversionMeanings ++
    matrixMeanings ++ transferMeanings ++ rasterMeanings ++ tierMeanings

/-- What stands in the code, run: the meaning of its opcode. -/
def execShape : Runner
  | .word op e, s =>
    match keyFind op.toNat opMeanings with
    | some m => m e s
    | none => execReservedOpcodeWord op e s
  | .compact op4 c, s =>
    match keyFind op4.toNat compactMeanings with
    | some m => m c s
    | none => execCompactMov c s
  | .xp p, s => execXp p s

/-- A table looked up after a function of its values. -/
theorem keyFind_map {α β : Type} (f : α → β) (k : Nat) (l : List (Nat × α)) :
    keyFind k (l.map fun p => (p.1, f p.2)) = (keyFind k l).map f := by
  induction l with
  | nil => rfl
  | cons p rest ih =>
    simp only [List.map, keyFind]
    split <;> simp_all

/-- `exec` of what a table makes of the fields. -/
def execOf (mk : Enc → Instr) : Meaning := fun e s => exec (mk e) s

/-- The same for a compact form. -/
def execOfCmp (mk : Cmp → Instr) : CmpMeaning := fun c s => exec (mk c) s

theorem integerMeanings_eq : integerMeanings = integerOps.map fun p => (p.1, execOf p.2) := rfl

theorem floatMeanings_eq : floatMeanings = floatOps.map fun p => (p.1, execOf p.2) := rfl

theorem controlMeanings_eq : controlMeanings = controlOps.map fun p => (p.1, execOf p.2) := rfl

theorem memoryMeanings_eq : memoryMeanings = memoryOps.map fun p => (p.1, execOf p.2) := rfl

theorem conversionMeanings_eq : conversionMeanings = conversionOps.map fun p => (p.1, execOf p.2) := rfl

theorem matrixMeanings_eq : matrixMeanings = matrixOps.map fun p => (p.1, execOf p.2) := rfl

theorem transferMeanings_eq : transferMeanings = transferOps.map fun p => (p.1, execOf p.2) := rfl

theorem rasterMeanings_eq : rasterMeanings = rasterOps.map fun p => (p.1, execOf p.2) := rfl

theorem tierMeanings_eq : tierMeanings = tierOps.map fun p => (p.1, execOf p.2) := rfl

theorem compactMeanings_eq : compactMeanings = compactTable.map fun p => (p.1, execOfCmp p.2) := rfl

/-- The meanings of the map are those of its instructions. -/
theorem opMeanings_eq : opMeanings = opTable.map fun p => (p.1, execOf p.2) := by
  simp only [opMeanings, opTable, List.map_append, integerMeanings_eq, floatMeanings_eq, controlMeanings_eq, memoryMeanings_eq, conversionMeanings_eq, matrixMeanings_eq, transferMeanings_eq, rasterMeanings_eq, tierMeanings_eq]

/-- `execShape` runs the decoded instruction. -/
theorem execShape_eq : execShape = fun sh s => exec (instrOfShape sh) s := by
  funext sh s
  match sh with
  | .word op e =>
    simp only [execShape, instrOfShape, instrOf, opMeanings_eq, keyFind_map]
    cases keyFind op.toNat opTable <;> rfl
  | .compact op4 c =>
    simp only [execShape, instrOfShape, compactOf, compactMeanings_eq, keyFind_map]
    cases keyFind op4.toNat compactTable <;> rfl
  | .xp p => rfl

end Sys2Proof.Machine
end

