-- ==== Sys2Proof/Machine/Step.lean ====
section
/-!
DEFINITION. One step of the machine, and the state in which a given word is the next instruction.
-/

namespace Sys2Proof.Machine

/-- One step: the agent whose turn it is moves; an instruction is fetched, decoded and executed. -/
noncomputable def step (s : State) : Host.Outcome State Fault Refusal :=
  takeTurn (fun sh s => exec (instrOfShape sh) s) exec s

/-- The same step, its meaning found by opcode. -/
def stepDirect (s : State) : Host.Outcome State Fault Refusal := takeTurn execShape exec s

/-- Running `step` runs `stepDirect`. -/
@[csimp] theorem step_eq_stepDirect : @step = @stepDirect := by
  funext s
  rw [step, stepDirect, execShape_eq]

/-! ### A word as the next instruction -/

/-- The block of code that begins with the bits `w`. -/
def fetchWordBlock (nbits w : Nat) : CodeBlock := ⟨0, natToBytes 8 (w % 2 ^ nbits) ++ List.replicate 56 0⟩

/-- A group whose slices stand at address 0 and hold the block there. -/
def fetchWordGroup (nbits w : Nat) : Group :=
  let g := Group.start 0 0 128 0
  { g with slices := g.slices.map fun sl => { sl with blocks := [fetchWordBlock nbits w] } }

/-- The bay of the launch that holds the word's span: one group of 128 registers, one deck unit, four tag entries, one granule. -/
def fetchWordBay : Bay := ⟨0, 1, 128, 4096, 4, 1, 0, 0, 0, [], 1⟩

/-- The launch that holds the word's span or prologue: its one span is dispatched. -/
def fetchWordLaunch (phase : LaunchPhase) : Launch :=
  { newLaunch 0 none 0 none 1 0 none none with
    phase := phase
    bays := [fetchWordBay]
    next := 1
    total := 1
    active := 1 }

/-- The span of the word, on pier 0. -/
def fetchWordSpan (nbits w : Nat) : Span :=
  let sp := newSpan (fetchWordLaunch .running) ⟨0, none, 0, 0, 0⟩ fetchWordBay 0 0 0 0 0 [0] [0] [0]
  { sp with
    place := .running 0
    groups := [fetchWordGroup nbits w] }

/-- PEND, PCANCEL and PREPEAT run on a prologue engine (R238). -/
def prologueWord (nbits w : Nat) : Bool :=
  let op := w % 2 ^ nbits / 2 % 512
  w % 2 = 1 && decide (0x1FC ≤ op) && decide (op ≤ 0x1FE)

/-- The machine with a word as its next instruction (log 3, DESIGN CHOICE): the one span on pier 0, or the one prologue, is about to execute the block of
code that begins with it; the part runs, and it is the turn of that pier's first quadrant, or of that engine. -/
def State.withFetchWord (s : State) (nbits w : Nat) : State :=
  let s := { s with outside := { s.outside with
    boot := .running
    throttled := List.replicate 4 false } }
  if prologueWord nbits w then
    let en : PrologueEngine := ⟨some 0, fetchWordGroup nbits w, 0⟩
    { s with
      launches := [(0, fetchWordLaunch (.inPrologue 0))]
      fe := { s.fe with engines := listSet (fun _ => en) 0 s.fe.engines }
      agenda := [.prologue 0] }
  else
    { s with
      launches := [(0, fetchWordLaunch .running)]
      spans := [(0, fetchWordSpan nbits w)]
      agenda := [.issue 0 0] }

end Sys2Proof.Machine
end

