-- ==== Sys2Proof/Safety.lean ====
section
/-!
DEFINITION. What counts as a safe run, the canonical form of the stores, and the words in which statements say what an instruction leaves
and what it leaves alone.
-/

namespace Sys2Proof.Machine

/-! ### Runs -/

/-- The machine goes on: its next step is a state. -/
def goesOn (s : State) : Prop := ∃ t, step s = .next t

/-- `k` steps from a state all give a state. -/
def runsOn : Nat → State → Prop
  | 0, _ => True
  | k + 1, s => ∃ t, step s = .next t ∧ runsOn k t

/-! ### The stores -/

/-- Every store of bytes, words and marks is in canonical form: numbers strictly rising, nothing listed that an unlisted item reads as. -/
def storesWf (s : State) : Bool :=
  Memory.wf s.mem && Memory.wf s.peer && cellsWf 0 s.poison && Memory.wf s.deck && cellsWf 0 s.deckPoison && cellsWf 0 s.deckCtx &&
    Memory.wf s.opbuf && cellsWf 0 s.bufPoison

/-- Every byte of memory, of the peer windows, of the decks and of the operand buffers reads as before. -/
def SameBytes (s t : State) : Prop :=
  ∀ a, readByte t.mem a = readByte s.mem a ∧ readByte t.peer a = readByte s.peer a ∧ readByte t.deck a = readByte s.deck a ∧
    readByte t.opbuf a = readByte s.opbuf a

/-! ### The issuer -/

/-- A group of a span that is there issues, or a prologue engine. -/
def Issues (s : State) : Prop :=
  match s.issuer with
  | .nobody => False
  | .gang sid g _ => (findGroup s sid g).isSome = true
  | .prologue e => e < s.fe.engines.length

/-- A gang of a group of a span issues. -/
def GangIssues (s : State) (sid n : Nat) (slice : Option Nat) : Prop :=
  s.issuer = .gang sid n slice ∧ (findGroup s sid n).isSome = true

/-- The checks of R81 pass for the issuer; a prologue engine takes only the forms of R237, under U = 1. -/
def Legal (f : Form) (extra : Bool) (e : Enc) (s : State) : Prop :=
  Issues s ∧
    match s.issuer with
    | .nobody => False
    | .gang _ _ _ => checkEnc f extra (curGroup s).alloc e = none
    | .prologue _ => f.prologue = true ∧ e.u = true ∧ checkEnc f extra 128 e = none

/-- Nothing but the issuing group has changed: no other group, span, launch, register or byte. -/
def OnlyGroup (s t : State) : Prop := t = modCur s fun _ => curGroup t

/-- The issuing gang's slices go on `len` bytes, the other slices stand where they were, and no slice has changed otherwise (R75). -/
def Advanced (len : Nat) (s t : State) : Prop :=
  ∀ k, (curGroup t).slices[k]? = ((curGroup s).slices[k]?).map fun sl =>
    if (curSlices s).contains k then { sl with pc := sl.pc + BitVec.ofNat 57 len } else sl

/-- The flags of some results ORed into others, in order (R48). -/
def flagsAfter (l : List Flags) (f : Flags) : Flags := l.foldl (· ||| ·) f

/-! ### What a computing instruction leaves -/

/-- Each of the lanes has `k` words of its result at `rd`; no other lane register has changed; the flags are merged; the gang goes on;
nothing else has changed. `f` gives a lane's result, as one number of `k` words, and its flags. -/
structure LaneResult (s t : State) (len : Nat) (lanes : LaneMask) (rd k : Nat) (f : Nat → Nat × Flags) : Prop where
  written : ∀ lane, lane < 32 → lanes.getLsbD lane = true → ∀ j, j < k →
    readV (curGroup t) (rd + j) lane = BitVec.ofNat 32 ((f lane).1 / 2 ^ (32 * j))
  kept : ∀ r lane, lane < 32 → ¬ (lanes.getLsbD lane = true ∧ rd ≤ r ∧ r < rd + k) →
    readV (curGroup t) r lane = readV (curGroup s) r lane
  flags : (curGroup t).fsr = flagsAfter ((laneList lanes).map fun l => (f l).2) (curGroup s).fsr
  advanced : Advanced len s t
  group : curGroup t = { curGroup s with
    vregs := (curGroup t).vregs, fsr := (curGroup t).fsr, slices := (curGroup t).slices }
  rest : OnlyGroup s t
  bytes : SameBytes s t

/-- The same once for the group, in its group registers, where its q guard is true. -/
structure GroupResult (s t : State) (len : Nat) (q : Bool) (rd k : Nat) (r : Nat × Flags) : Prop where
  written : q = true → ∀ j, j < k → readG (curGroup t) (rd + j) = BitVec.ofNat 32 (r.1 / 2 ^ (32 * j))
  kept : ∀ n, ¬ (q = true ∧ rd ≤ n ∧ n < rd + k) → readG (curGroup t) n = readG (curGroup s) n
  flags : (curGroup t).fsr = if q then (curGroup s).fsr ||| r.2 else (curGroup s).fsr
  advanced : Advanced len s t
  group : curGroup t = { curGroup s with
    gregs := (curGroup t).gregs, fsr := (curGroup t).fsr, slices := (curGroup t).slices }
  rest : OnlyGroup s t
  bytes : SameBytes s t

/-- The result of an instruction under U and its guard (R64, R65): `f g lane` is computed from the group as it was before. -/
def Result (e : Enc) (rd : Loc) (k : Nat) (f : Group → Nat → Nat × Flags) (s t : State) : Prop :=
  if e.u then GroupResult s t (wordLen e) (qGuard e s) (locNum rd) k (f (curGroup s) 0)
  else LaneResult s t (wordLen e) (actLanes e s) (locNum rd) k (f (curGroup s))

/-! ### What an instruction that writes predicates leaves -/

/-- Predicate `k` is one that a result for `pd` writes: pd itself, and its neighbour where pd is even and not 0 (R69, R146). -/
def pairOf (pd k : Nat) : Prop := k = pd ∨ (pd % 2 = 0 ∧ pd ≠ 0 ∧ k = pd + 1)

/-- Each of the lanes has its result in predicate `pd`, and the complement in the next one where `pd` is even and not 0; a write to
predicate 0 is ignored; nothing else has changed but the flags and the pc. -/
structure LanePred (s t : State) (len : Nat) (lanes : LaneMask) (pd : Nat) (f : Nat → Bool × Flags) : Prop where
  written : ∀ lane, lane < 32 → lanes.getLsbD lane = true → pd ≠ 0 → readP (curGroup t) pd lane = (f lane).1
  paired : ∀ lane, lane < 32 → lanes.getLsbD lane = true → pd % 2 = 0 → pd ≠ 0 → readP (curGroup t) (pd + 1) lane = !(f lane).1
  kept : ∀ k lane, lane < 32 → ¬ (lanes.getLsbD lane = true ∧ pd ≠ 0 ∧ pairOf pd k) → readP (curGroup t) k lane = readP (curGroup s) k lane
  flags : (curGroup t).fsr = flagsAfter ((laneList lanes).map fun l => (f l).2) (curGroup s).fsr
  advanced : Advanced len s t
  group : curGroup t = { curGroup s with
    preds := (curGroup t).preds, fsr := (curGroup t).fsr, slices := (curGroup t).slices }
  rest : OnlyGroup s t
  bytes : SameBytes s t

/-- The same once for the group's predicates, where its q guard is true. -/
structure GroupPred (s t : State) (len : Nat) (q : Bool) (pd : Nat) (r : Bool × Flags) : Prop where
  written : q = true → pd ≠ 0 → readQ (curGroup t) pd = r.1
  paired : q = true → pd % 2 = 0 → pd ≠ 0 → readQ (curGroup t) (pd + 1) = !r.1
  kept : ∀ k, ¬ (q = true ∧ pd ≠ 0 ∧ pairOf pd k) → readQ (curGroup t) k = readQ (curGroup s) k
  flags : (curGroup t).fsr = if q then (curGroup s).fsr ||| r.2 else (curGroup s).fsr
  advanced : Advanced len s t
  group : curGroup t = { curGroup s with
    qpreds := (curGroup t).qpreds, fsr := (curGroup t).fsr, slices := (curGroup t).slices }
  rest : OnlyGroup s t
  bytes : SameBytes s t

/-- A predicate result under U and the guard. -/
def Predicate (e : Enc) (f : Group → Nat → Bool × Flags) (s t : State) : Prop :=
  if e.u then GroupPred s t (wordLen e) (qGuard e s) (cmpPd e) (f (curGroup s) 0)
  else LanePred s t (wordLen e) (actLanes e s) (cmpPd e) (f (curGroup s))

/-- An instruction whose encoding is legal completes with its predicate result. -/
def Decides (i : Instr) (f : Form) (extra : Bool) (e : Enc) (r : Group → Nat → Bool × Flags) : Prop :=
  ∀ s, Legal f extra e s → ∃ t, exec i s = .next t ∧ Predicate e r s t

/-- An instruction whose encoding is legal completes with its result in `k` registers from `rd` on. -/
def Computes (i : Instr) (f : Form) (extra : Bool) (e : Enc) (rd : Loc) (k : Nat) (r : Group → Nat → Nat × Flags) : Prop :=
  ∀ s, Legal f extra e s → ∃ t, exec i s = .next t ∧ Result e rd k r s t

/-! ### What a transfer of control, a wait or a change of the span leaves -/

/-- The issuing gang's slices become what `f` says of each, the other slices of its group stand as they were. -/
def SlicesMove (f : Nat → Slice → Slice) (s t : State) : Prop :=
  ∀ k, (curGroup t).slices[k]? = ((curGroup s).slices[k]?).map fun sl => if (curSlices s).contains k then f k sl else sl

/-- The issuing gang's slices become what `f` says of each, and nothing else changes. -/
def SlicesBecome (f : Nat → Slice → Slice) (s t : State) : Prop :=
  SlicesMove f s t ∧ curGroup t = { curGroup s with slices := (curGroup t).slices } ∧ OnlyGroup s t ∧ SameBytes s t

/-- The issuing gang goes on at an address and nothing else changes. -/
def GoesTo (pc : Va) (s t : State) : Prop := SlicesBecome (fun _ sl => { sl with pc := pc }) s t

/-- The issuing gang goes on after the instruction and nothing else changes. -/
def GoesOn (len : Nat) (s t : State) : Prop := SlicesBecome (fun _ sl => { sl with pc := sl.pc + BitVec.ofNat 57 len }) s t

/-- The issuing group becomes what `f` makes of it, but for its slices, and its gang goes on; nothing else changes. -/
def GroupGoesOn (len : Nat) (f : Group → Group) (s t : State) : Prop :=
  Advanced len s t ∧ curGroup t = { f (curGroup s) with slices := (curGroup t).slices } ∧ OnlyGroup s t ∧ SameBytes s t

/-- The issuing group becomes what `f` makes of it and nothing else changes. -/
def GroupBecomes (f : Group → Group) (s t : State) : Prop :=
  curGroup t = f (curGroup s) ∧ OnlyGroup s t ∧ SameBytes s t

/-- Nothing but one span has changed: no other span, launch, register or byte. -/
def OnlySpan (sid : Nat) (s t : State) : Prop :=
  t = { s with spans := t.spans } ∧ ∀ x, x ≠ sid → findSpan t x = findSpan s x

/-- A group's registers, predicates, flags and barrier bits are another's. -/
def SameRegisters (g h : Group) : Prop :=
  h.vregs = g.vregs ∧ h.gregs = g.gregs ∧ h.preds = g.preds ∧ h.qpreds = g.qpreds ∧ h.ivHead = g.ivHead ∧ h.ivBody = g.ivBody ∧
    h.fsr = g.fsr ∧ h.fen = g.fen

end Sys2Proof.Machine
end

