-- ==== Sys2Proof/Certificates/Slice0/Obligations.lean ====
section
/-!
DEFINITION. The statements for the provers, and the tables of results they speak of, written from the rules' own tables.
-/

namespace Sys2Proof.Claims

open Sys2Proof.Machine

/-! ### Integer results as words (R135 to R145) -/

/-- A result of one word. -/
def oneWord (r : Word × Flags) : Nat × Flags := (r.1.toNat, r.2)

/-- The operands of a three-register instruction in a lane: ra, rb and the old rd. -/
def onThree (e : Enc) (f : Word → Word → Word → Word × Flags) (g : Group) (lane : Nat) : Nat × Flags :=
  oneWord (f (readLoc g lane (raLoc e)) (readLoc g lane (rbLoc e)) (readLoc g lane (rdLoc e)))

/-- The operand of a two-register instruction. -/
def onOne (e : Enc) (f : Word → Word × Flags) (g : Group) (lane : Nat) : Nat × Flags :=
  oneWord (f (readLoc g lane (raLoc e)))

/-- A result without a flag. -/
def plain (f : Word → Word → Word → Word) (a b d : Word) : Word × Flags := (f a b d, noFlags)

/-- An exact sum or difference clamped to 32 bits, with SAT (R137). -/
def clamped (x : Int) : Word × Flags :=
  if x < -2147483648 then (0x80000000, flagSAT) else if 2147483647 < x then (0x7FFFFFFF, flagSAT) else (BitVec.ofInt 32 x, noFlags)

/-- DIV.s32 (R138). -/
def divS (a b : Word) : Word × Flags :=
  if b = 0 then (if 0 ≤ a.toInt then 0x7FFFFFFF else 0x80000000, flagDZ)
  else if a = 0x80000000 ∧ b = 0xFFFFFFFF then (0x7FFFFFFF, flagSAT)
  else (BitVec.ofInt 32 (a.toInt.tdiv b.toInt), noFlags)

/-- DIV.z32 (R138). -/
def divZ (a b : Word) : Word × Flags := if b = 0 then (0xFFFFFFFF, flagDZ) else (a / b, noFlags)

/-- REM.s32 (R138). -/
def remS (a b : Word) : Word × Flags :=
  if b = 0 then (a, flagDZ)
  else if a = 0x80000000 ∧ b = 0xFFFFFFFF then (0, flagSAT)
  else (BitVec.ofInt 32 (a.toInt - a.toInt.tdiv b.toInt * b.toInt), noFlags)

/-- REM.z32 (R138). -/
def remZ (a b : Word) : Word × Flags := if b = 0 then (a, flagDZ) else (a % b, noFlags)

/-- The rows of R137's table, and R138's four. -/
def threeRegisterRows : List ((Enc → Instr) × (Word → Word → Word → Word × Flags)) :=
  [(.addS32, plain fun a b _ => a + b),
   (.addsS32, fun a b _ => clamped (a.toInt + b.toInt)),
   (.subS32, plain fun a b _ => a - b),
   (.subsS32, fun a b _ => clamped (a.toInt - b.toInt)),
   (.mulloB32, plain fun a b _ => a * b),
   (.mulhiS32, plain fun a b _ => ((a.signExtend 64 * b.signExtend 64) >>> 32).setWidth 32),
   (.mulhiZ32, plain fun a b _ => ((a.setWidth 64 * b.setWidth 64) >>> 32).setWidth 32),
   (.madB32, plain fun a b d => d + a * b),
   (.divS32, fun a b _ => divS a b),
   (.divZ32, fun a b _ => divZ a b),
   (.remS32, fun a b _ => remS a b),
   (.remZ32, fun a b _ => remZ a b),
   (.minS32, plain fun a b _ => if a.toInt ≤ b.toInt then a else b),
   (.maxS32, plain fun a b _ => if a.toInt ≤ b.toInt then b else a),
   (.minZ32, plain fun a b _ => if a ≤ b then a else b),
   (.maxZ32, plain fun a b _ => if a ≤ b then b else a),
   (.and, plain fun a b _ => a &&& b),
   (.or, plain fun a b _ => a ||| b),
   (.xor, plain fun a b _ => a ^^^ b),
   (.andn, plain fun a b _ => a &&& ~~~b),
   (.shl, plain fun a b _ => if 32 ≤ b.toNat then 0 else a <<< b.toNat),
   (.shrZ32, plain fun a b _ => if 32 ≤ b.toNat then 0 else a >>> b.toNat),
   (.shrS32, plain fun a b _ => a.sshiftRight (min b.toNat 31)),
   (.rotl, plain fun a b _ => a.rotateLeft (b.toNat % 32))]

/-- The rows of R141's table. -/
def unaryRows : List ((Enc → Instr) × (Word → Word)) :=
  [(.not, fun a => ~~~a),
   (.neg, fun a => -a),
   (.absS32, fun a => if a.toInt < 0 then -a else a),
   (.clzB32, fun a => if a = 0 then 32 else BitVec.ofNat 32 (31 - Nat.log2 a.toNat)),
   (.popcB32, fun a => BitVec.ofNat 32 ((List.range 32).countP fun i => a.getLsbD i)),
   (.mov, fun a => a)]

/-- CTZ.b32 and BREV.b32 bit by bit: `w` counts the trailing zeros of `a`, `w` is `a` reversed (R141). -/
def countsTrailing (a w : Word) : Prop :=
  (a = 0 → w = 32) ∧ (a ≠ 0 → ∃ n, n < 32 ∧ w = BitVec.ofNat 32 n ∧ a.getLsbD n = true ∧ ∀ i, i < n → a.getLsbD i = false)
def reverses (a w : Word) : Prop := ∀ i, i < 32 → w.getLsbD i = a.getLsbD (31 - i)

/-- The length n of R142's field. -/
def fieldLen (b : Word) : Nat :=
  let pos := (b.setWidth 8).toNat
  let len := ((b >>> 8).setWidth 8).toNat
  if 31 < pos ∨ len = 0 then 0 else min len (32 - pos)

/-- R142's effects. -/
def bfxZ (a b : Word) : Word := ((a >>> (b.setWidth 8).toNat).setWidth (fieldLen b)).setWidth 32
def bfxS (a b : Word) : Word := ((a >>> (b.setWidth 8).toNat).setWidth (fieldLen b)).signExtend 32
def bfi (a b d : Word) (i : Nat) : Bool :=
  let pos := (b.setWidth 8).toNat
  if pos ≤ i ∧ i < pos + fieldLen b then a.getLsbD (i - pos) else d.getLsbD i

/-- PRMT's byte `n` of {b, a}, or the sign of it (R143). -/
def prmtByte (a b : Word) (n : Nat) : BitVec 8 :=
  let t := ((b ++ a : BitVec 64) >>> (8 * (n % 8))).setWidth 8
  if 8 ≤ n then (if t.getLsbD 7 then 0xFF else 0x00) else t

/-- R144's and R142's results by bits: the bit `i` of the new rd. -/
def shuffleRows : List ((Enc → Instr) × (Word → Word → Word → Nat → Bool)) :=
  [(.bfi, bfi),
   (.ilv2, fun a b _ i => if i % 2 = 0 then a.getLsbD (i / 2) else b.getLsbD (i / 2)),
   (.ilv3, fun a b d i =>
     if 30 ≤ i then false else if i % 3 = 0 then a.getLsbD (i / 3) else if i % 3 = 1 then b.getLsbD (i / 3) else d.getLsbD (i / 3))]

/-- An instruction whose encoding is legal completes with a word that has a property of its operands, in one register. -/
def Yields (i : Instr) (f : Form) (extra : Bool) (e : Enc) (rd : Loc) (p : Group → Nat → Word → Prop) : Prop :=
  ∃ r : Group → Nat → Word, (∀ g lane, p g lane (r g lane)) ∧ Computes i f extra e rd 1 fun g lane => ((r g lane).toNat, noFlags)

/-- The 64-bit value of a pair. -/
def pair (g : Group) (lane : Nat) (l : Loc) : BitVec 64 := readLoc g lane (locAdd 1 l) ++ readLoc g lane l

/-- A 64-bit result without a flag. -/
def onPair (f : Group → Nat → BitVec 64) (g : Group) (lane : Nat) : Nat × Flags := ((f g lane).toNat, noFlags)

/-- R145's instructions on pairs: form, and the new pair. -/
def pairForm : Form := { rd := .reg 2 2, ra := .reg 2 2, rb := .reg 2 2, prologue := true }
def addaForm : Form := { rd := .reg 2 2, ra := .reg 2 2, rb := .reg 1 1, mods := 7, prologue := true }
def mulwForm : Form := { rd := .reg 2 2, ra := .reg 1 1, rb := .reg 1 1, prologue := true }
def clz64Form : Form := { rd := .reg 1 1, ra := .reg 2 2, rb := .unused, prologue := true }

end Sys2Proof.Claims

open Sys2Proof Sys2Proof.Machine Sys2Proof.Claims

/-- R137, R138: each three-register integer instruction leaves the result of the tables, with their flags, in every lane it acts in, or
once for the group, and changes nothing else. -/
def Sys2Proof.Claims.ThreeRegisterIntegersRule : Prop :=
  ∀ p ∈ threeRegisterRows, ∀ e, Computes (p.1 e) formRrr true e (rdLoc e) 1 (onThree e p.2)

/-- R139, R140: the immediate forms; a shift immediate is 0 to 31, a LIH immediate below 0x10000. -/
def Sys2Proof.Claims.ImmediateIntegersRule : Prop :=
  ∀ e,
    let a (g : Group) (lane : Nat) : Word := readLoc g lane (raLocB e)
    let d (g : Group) (lane : Nat) : Word := readLoc g lane (rdLocB e)
    let run (i : Instr) (f : Form) (extra : Bool) (r : Group → Nat → Word) : Prop :=
      Computes i f extra e (rdLocB e) 1 fun g lane => ((r g lane).toNat, noFlags)
    run (.addi e) formRri true (fun g l => a g l + BitVec.ofInt 32 (simmRri e)) ∧
    run (.shli e) formRri (decide (immRri e < 32)) (fun g l => a g l <<< immRri e) ∧
    run (.shriZ32 e) formRri (decide (immRri e < 32)) (fun g l => a g l >>> immRri e) ∧
    run (.shriS32 e) formRri (decide (immRri e < 32)) (fun g l => (a g l).sshiftRight (immRri e)) ∧
    run (.andi e) formRri true (fun g l => a g l &&& BitVec.ofInt 32 (simmRri e)) ∧
    run (.li e) formRj true (fun _ _ => BitVec.ofInt 32 (simmRj e)) ∧
    run (.lih e) formRj (decide (immRj e < 0x10000)) (fun g l => BitVec.ofNat 16 (immRj e) ++ (d g l).setWidth 16)

/-- R141, R150: the unary instructions and MOV. -/
def Sys2Proof.Claims.UnaryIntegersRule : Prop :=
  (∀ p ∈ unaryRows, ∀ e, Computes (p.1 e) formRr true e (rdLoc e) 1 (onOne e fun a => (p.2 a, noFlags))) ∧
  (∀ e, Yields (.ctzB32 e) formRr true e (rdLoc e) fun g lane w => countsTrailing (readLoc g lane (raLoc e)) w) ∧
  ∀ e, Yields (.brevB32 e) formRr true e (rdLoc e) fun g lane w => reverses (readLoc g lane (raLoc e)) w

/-- R137 to R141, R150: the integer instructions of one register, two or three, and those of an immediate. -/
def Obligations.IntegerResults : Prop := Sys2Proof.Claims.ThreeRegisterIntegersRule ∧ Sys2Proof.Claims.ImmediateIntegersRule ∧ Sys2Proof.Claims.UnaryIntegersRule

/-- R142, R143, R144: bit fields, the byte permute and the interleaves. -/
def Sys2Proof.Claims.BitFieldsRule : Prop :=
  (∀ p ∈ shuffleRows, ∀ e, Yields (p.1 e) formRrr true e (rdLoc e) fun g lane w => ∀ i, i < 32 →
    w.getLsbD i = p.2 (readLoc g lane (raLoc e)) (readLoc g lane (rbLoc e)) (readLoc g lane (rdLoc e)) i) ∧
  (∀ e, Computes (.bfxZ32 e) formRrr true e (rdLoc e) 1 (onThree e (plain fun a b _ => bfxZ a b))) ∧
  (∀ e, Computes (.bfxS32 e) formRrr true e (rdLoc e) 1 (onThree e (plain fun a b _ => bfxS a b))) ∧
  (∀ e, Computes (.clzxB32 e) formRrr true e (rdLoc e) 1 (onThree e (plain fun a b _ =>
    if a = b then 32 else BitVec.ofNat 32 (31 - Nat.log2 (a ^^^ b).toNat)))) ∧
  (∀ e, Yields (.prmt e) { formRrr with rc := .bits, mods := 0x3FF } true e (rdLoc e) fun g lane w => ∀ j, j < 4 →
    (w >>> (8 * j)).setWidth 8 =
      prmtByte (readLoc g lane (raLoc e)) (readLoc g lane (rbLoc e))
        ((if e.xp.isSome then modifier e * 64 + rcField e else 0x5410) / 16 ^ j % 16)) ∧
  (∀ e, Yields (.dlv2 e) formRri (decide (immRri e < 2)) e (rdLocB e) fun g lane w => ∀ i, i < 32 →
    w.getLsbD i = if i < 16 then (readLoc g lane (raLocB e)).getLsbD (2 * i + immRri e) else false) ∧
  ∀ e, Yields (.dlv3 e) formRri (decide (immRri e < 3)) e (rdLocB e) fun g lane w => ∀ i, i < 32 →
    w.getLsbD i = if i < 10 then (readLoc g lane (raLocB e)).getLsbD (3 * i + immRri e) else false

/-- R145: the instructions on register pairs. -/
def Sys2Proof.Claims.PairIntegersRule : Prop :=
  ∀ e,
    let a (g : Group) (lane : Nat) : BitVec 64 := pair g lane (raLoc e)
    let b (g : Group) (lane : Nat) : BitVec 64 := pair g lane (rbLoc e)
    let b1 (g : Group) (lane : Nat) : Word := readLoc g lane (rbLoc e)
    Computes (.clzB64 e) clz64Form true e (rdLoc e) 1 (onPair fun g l => if a g l = 0 then 64 else BitVec.ofNat 64 (63 - Nat.log2 (a g l).toNat)) ∧
    Computes (.addB64 e) pairForm true e (rdLoc e) 2 (onPair fun g l => a g l + b g l) ∧
    Computes (.subB64 e) pairForm true e (rdLoc e) 2 (onPair fun g l => a g l - b g l) ∧
    Computes (.adda e) addaForm (decide (modifier e % 8 ≤ 4)) e (rdLoc e) 2
      (onPair fun g l => a g l + (b1 g l).signExtend 64 <<< (modifier e % 8)) ∧
    Computes (.mulwS32 e) mulwForm true e (rdLoc e) 2
      (onPair fun g l => (readLoc g l (raLoc e)).signExtend 64 * (b1 g l).signExtend 64)

/-- R142 to R145: bit fields, permutations, interleavings and the instructions on pairs. -/
def Obligations.BitFieldsAndPairs : Prop := Sys2Proof.Claims.BitFieldsRule ∧ Sys2Proof.Claims.PairIntegersRule

namespace Sys2Proof.Claims

/-! ### Predicates and moves (R146 to R154) -/

/-- An integer compare by its code (R69). -/
def holds (c : Nat) (x y : Int) : Bool :=
  match c with
  | 0 => decide (x = y)
  | 1 => decide (x ≠ y)
  | 2 => decide (x < y)
  | 3 => decide (x ≤ y)
  | 4 => decide (x > y)
  | _ => decide (x ≥ y)

/-- The form of the integer compares: codes 0 to 5. -/
def compareForm : Form := { rd := .cond 6, ra := .reg 1 1, rb := .reg 1 1, prologue := true }

/-- PLOP's truth tables (R148): pa and pb. -/
def logic (op : Nat) (a b : Bool) : Bool :=
  match op with
  | 0 => a && b
  | 1 => a || b
  | 2 => xor a b
  | 3 => a && !b
  | 4 => a || !b
  | 5 => !(xor a b)
  | 6 => !a
  | _ => a

/-- The form of PLOP. -/
def logicForm : Form := { rd := .cond 8, ra := .pred, rb := .pred, prologue := true }

/-- A predicate read under U: p of a lane or q. -/
def guardBit (e : Enc) (g : Group) (lane k : Nat) : Bool := if e.u then readQ g k else readP g k lane

/-- A lane takes part: it is active for the instruction after the guard (R171). -/
def takesPart (e : Enc) (s : State) (i : Nat) : Bool := decide (i < 32) && (actLanes e s).getLsbD i

/-- The vote form (R173). -/
def voteForm : Form := { rd := .cond 1, ra := .pred, rb := .unused, u := .zero }

/-- The form of P2R and of R2P. -/
def p2rForm : Form := { rd := .reg 1 1, ra := .unused, rb := .unused, prologue := true }
def r2pForm : Form := { rd := .unused, ra := .reg 1 1, rb := .unused, prologue := true }

/-- The word of predicates 1 to 7 with bit 0 set (R149). -/
def predicateWord (p : Nat → Bool) (w : Word) : Prop :=
  ∀ k, k < 32 → w.getLsbD k = if k = 0 then true else if k < 8 then p k else false

/-- The form of MOVL, and of MOVS and MOVSW. -/
def movlForm : Form := { rd := .groupReg 1 1, ra := .laneReg, rb := .imm, xp := .layoutB, u := .one }
def movsForm : Form := { rd := .reg 1 1, ra := .unused, rb := .imm, xp := .layoutB }

/-- The value MOVSW writes: the register's under U = 1, the lowest active lane's under U = 0; none where no lane acts (R120, R65). -/
def swValue (e : Enc) (s : State) : Option Word :=
  if e.u then (if qGuard e s then some (readLoc (curGroup s) 0 (rdLocB e)) else none)
  else ((laneList (actLanes e s)).head?).map fun l => readLoc (curGroup s) l (rdLocB e)

/-- The value MOVSW writes to a slice's recorded pc: its lowest active lane's under U = 0 (R120). -/
def swSlice (e : Enc) (s : State) (k : Nat) : Option Word :=
  if e.u then (if (curSlices s).contains k then swValue e s else none)
  else ((laneList (actLanes e s)).find? fun l => l / 4 == k).map fun l => readLoc (curGroup s) l (rdLocB e)

/-- A slice after MOVSW: it goes on with its gang, and its recorded pc has a half written where the index names one (R119). -/
def swMoved (e : Enc) (s : State) (k : Nat) (sl : Slice) : Slice :=
  let pc := if (curSlices s).contains k then sl.pc + BitVec.ofNat 57 (wordLen e) else sl.pc
  let low : Va := ((swSlice e s k).map fun w => sl.tpc.extractLsb' 32 25 ++ w).getD sl.tpc
  let high : Va := ((swSlice e s k).map fun w => w.setWidth 25 ++ sl.tpc.setWidth 32).getD sl.tpc
  { sl with pc := pc, tpc := if immRri e = 25 then low else if immRri e = 26 then high else sl.tpc }

end Sys2Proof.Claims

/-- R146: ICMP writes the compare of its operands, signed or unsigned, to pd and its complement to the next predicate. -/
def Sys2Proof.Claims.IntegerComparesRule : Prop :=
  (∀ e, Decides (.icmpS32 e) compareForm true e fun g lane =>
    (holds (cmpCond e) (readLoc g lane (raLoc e)).toInt (readLoc g lane (rbLoc e)).toInt, noFlags)) ∧
  ∀ e, Decides (.icmpZ32 e) compareForm true e fun g lane =>
    (holds (cmpCond e) (readLoc g lane (raLoc e)).toNat (readLoc g lane (rbLoc e)).toNat, noFlags)

/-- R148, R173: PLOP's logic, and the votes over the participants. -/
def Sys2Proof.Claims.PredicateLogicRule : Prop :=
  (∀ e, Decides (.plop e) logicForm (decide (cmpCond e < 6) || e.rb == 0) e fun g lane =>
    (logic (cmpCond e) (guardBit e g lane e.ra.toNat) (guardBit e g lane e.rb.toNat), noFlags)) ∧
  (∀ e s, Legal voteForm true e s → ∃ t, exec (.voteAny e) s = .next t ∧
    Predicate e (fun g _ => ((List.range 32).any fun i => takesPart e s i && readP g e.ra.toNat i, noFlags)) s t) ∧
  ∀ e s, Legal voteForm true e s → ∃ t, exec (.voteAll e) s = .next t ∧
    Predicate e (fun g _ => ((List.range 32).all fun i => !takesPart e s i || readP g e.ra.toNat i, noFlags)) s t

/-- R160, R166: the floating compares. -/
def Sys2Proof.Claims.FloatComparesRule : Prop :=
  (∀ e, Decides (.fcmpF32 e) { rd := .cond 8, ra := .reg 1 1, rb := .reg 1 1 } true e fun g lane =>
    floatCompare fp32 (cmpCond e) (readLoc g lane (raLoc e)).toNat (readLoc g lane (rbLoc e)).toNat) ∧
  ∀ e, Decides (.dcmpF64 e) { rd := .cond 8, ra := .reg 2 2, rb := .reg 2 2 } true e fun g lane =>
    floatCompare fp64 (cmpCond e) (pair g lane (raLoc e)).toNat (pair g lane (rbLoc e)).toNat

/-- R146, R160, R166: the integer and floating-point compares. -/
def Obligations.Compares : Prop := Sys2Proof.Claims.IntegerComparesRule ∧ Sys2Proof.Claims.FloatComparesRule

/-- R147, R149: SEL chooses by the predicate its guard field names, in every active lane; P2R and R2P copy the predicates. -/
def Sys2Proof.Claims.SelectAndPredicateMovesRule : Prop :=
  (∀ e s, Legal formRrr true e s → ∃ t, exec (.sel e) s = .next t ∧
    let r (lane : Nat) : Nat × Flags :=
      ((readLoc (curGroup s) lane (if guardBit e (curGroup s) lane (guardNum e) then raLoc e else rbLoc e)).toNat, noFlags)
    if e.u then GroupResult s t (wordLen e) true (locNum (rdLoc e)) 1 (r 0)
    else LaneResult s t (wordLen e) (gangLanes s) (locNum (rdLoc e)) 1 r) ∧
  (∀ e, Yields (.p2r e) p2rForm true e (rdLoc e) fun g lane w => predicateWord (guardBit e g lane) w) ∧
  ∀ e s, Legal r2pForm true e s → ∃ t, exec (.r2p e) s = .next t ∧
    (e.u = false → ∀ lane, lane < 32 → ∀ k, readP (curGroup t) k lane =
      if (actLanes e s).getLsbD lane = true ∧ 0 < k ∧ k < 8 then (readLoc (curGroup s) lane (raLoc e)).getLsbD k
      else readP (curGroup s) k lane) ∧
    (e.u = false → (curGroup t).qpreds = (curGroup s).qpreds) ∧ (e.u = true → (curGroup t).preds = (curGroup s).preds) ∧
    (e.u = true → ∀ k, readQ (curGroup t) k =
      if qGuard e s = true ∧ 0 < k ∧ k < 8 then (readLoc (curGroup s) 0 (raLoc e)).getLsbD k else readQ (curGroup s) k) ∧
    Advanced (wordLen e) s t ∧ OnlyGroup s t ∧ SameBytes s t ∧
    curGroup t = { curGroup s with
      preds := (curGroup t).preds, qpreds := (curGroup t).qpreds, slices := (curGroup t).slices }

/-- R147 to R149, R173: select, predicate logic, predicates to and from registers, votes. -/
def Obligations.PredicateMoves : Prop := Sys2Proof.Claims.PredicateLogicRule ∧ Sys2Proof.Claims.SelectAndPredicateMovesRule

/-- R151 to R154: MOVL, MOVS, MOVSW, CCNT and NOP where they are legal. -/
def Obligations.SpecialMoves : Prop :=
  (∀ e s, Legal movlForm (decide (immRri e < 32)) e s → (qGuard e s = true → laneInGang s (immRri e) = true) →
    ∃ t, exec (.movl e) s = .next t ∧
      GroupResult s t (wordLen e) (qGuard e s) e.rd.toNat 1 ((readV (curGroup s) e.ra.toNat (immRri e)).toNat, noFlags)) ∧
  (∀ e s sp la, Legal movsForm (decide (immRri e < 29)) e s → ¬ (e.u = true ∧ spLane (immRri e) = true) → curSpan s = some sp →
    curLaunch s = some la → ∃ t, exec (.movs e) s = .next t ∧
      Result e (rdLocB e) 1 (fun g lane => ((spValue s sp la g lane (immRri e)).toNat, noFlags)) s t) ∧
  (∀ e s, Legal movsForm (decide (immRri e < 29)) e s → spWritable (immRri e) = true →
    ∃ t, exec (.movsw e) s = .next t ∧ OnlyGroup s t ∧ SameBytes s t ∧
      let i := immRri e
      let g := curGroup s
      let v := swValue e s
      (curGroup t).fsr = (if i = 15 then (v.map (·.setWidth 9)).getD g.fsr else g.fsr) ∧
      (curGroup t).fen = (if i = 16 then (v.map (·.setWidth 9)).getD g.fen else g.fen) ∧
      (curGroup t).tcause = (if i = 24 then (v.map (·.setWidth 9)).getD g.tcause else g.tcause) ∧
      (curGroup t).tskid = (if i = 27 then (v.map (·.setWidth 4)).getD g.tskid else g.tskid) ∧
      (curGroup t).tlanes = (if i = 28 then v.getD g.tlanes else g.tlanes) ∧
      (∀ k sl, g.slices[k]? = some sl → (curGroup t).slices[k]? = some (swMoved e s k sl)) ∧
      curGroup t = { g with
        fsr := (curGroup t).fsr, fen := (curGroup t).fen, tcause := (curGroup t).tcause, tskid := (curGroup t).tskid,
        tlanes := (curGroup t).tlanes, slices := (curGroup t).slices }) ∧
  (∀ e s, Legal { rd := .reg 2 2, ra := .unused, rb := .unused } true e s → ∃ t, exec (.ccnt e) s = .next t ∧
    Result e (rdLoc e) 2 (fun _ _ => ((pierClock s (curPier s)).toNat, noFlags)) s t) ∧
  ∀ e s, Legal { rd := .unused, ra := .unused, rb := .unused, xp := .zero, prologue := true } true e s →
    exec (.nop e) s = .next (advance (wordLen e) s)

namespace Sys2Proof.Claims

/-! ### Floating point (R155 to R170) -/

/-- The number in `n` registers of an operand. -/
def num (g : Group) (lane n : Nat) (l : Loc) : Nat := readLocs g lane n l

/-- FP32 operations of two operands in the word's mode (R158, R162). -/
def float32Rows : List ((Enc → Instr) × (RoundMode → Nat → Nat → Nat × Flags)) :=
  [(.faddF32, floatAdd fp32), (.fsubF32, floatSub fp32), (.fmulF32, floatMul fp32), (.fdivF32, floatDiv fp32),
   (.hadd2F16, fun m => packed2 (floatAdd fp16 m)), (.hmul2F16, fun m => packed2 (floatMul fp16 m)),
   (.hadd2Bf16, fun m => packed2 (floatAdd bf16 m)), (.hmul2Bf16, fun m => packed2 (floatMul bf16 m)),
   (.cvtF16x2F32, fun m a b => pack2 (floatConvert fp32 fp16 m a) (floatConvert fp32 fp16 m b)),
   (.cvtBf16x2F32, fun m a b => pack2 (floatConvert fp32 bf16 m a) (floatConvert fp32 bf16 m b))]

/-- FP32 functions of one operand in the word's mode (R162, R163, R167). -/
def unary32Rows : List ((Enc → Instr) × (RoundMode → Nat → Nat × Flags)) :=
  [(.frcpF32, floatRcp fp32), (.fsqrtF32, floatSqrt fp32), (.frsqF32, floatRsqrt fp32), (.fexp2F32, floatExp2 fp32),
   (.flog2F32, floatLog2 fp32), (.fsinpiF32, floatSinPi fp32), (.fcospiF32, floatCosPi fp32), (.frndF32, floatRnd fp32),
   (.cvtF32S32, fun m a => floatOfInt fp32 m (signedOf 32 a)), (.cvtF32Z32, fun m a => floatOfInt fp32 m a),
   (.cvtS32F32, cvtInt (-2147483648) 2147483647), (.cvtZ32F32, cvtInt 0 4294967295)]

/-- Fused operations (R159, R164): one-register forms. -/
def fusedRows : List ((Enc → Instr) × (RoundMode → Nat → Nat → Nat → Nat × Flags)) :=
  [(.ffmaF32, floatFma fp32), (.hfma2F16, fun m => packed3 (floatFma fp16 m)), (.hfma2Bf16, fun m => packed3 (floatFma bf16 m))]

/-- The third operand of a fused form: rc where modifier [25] is set, else the old rd (R159). -/
def thirdOperand (e : Enc) : Loc := if xpBit e 25 then rcLoc e else rdLoc e

/-- The forms with a rounding mode, of values of `n` words. -/
def floatForm2 (n : Nat) : Form := { rd := .reg n n, ra := .reg n n, rb := .reg n n, round := true }
def floatForm1 (na nd : Nat) : Form := { rd := .reg nd nd, ra := .reg na na, rb := .unused, round := true }
def fusedForm (n : Nat) : Form := { rd := .reg n n, ra := .reg n n, rb := .reg n n, rc := .present n n, round := true }

/-- Conversions without a mode: registers read and their alignment, registers written and theirs, and the result (R161, R168 to R170). -/
def conversionRows : List ((Enc → Instr) × (Nat × Nat × Nat × Nat) × (Nat → Nat × Flags)) :=
  [(.fabsF32, (1, 1, 1, 1), floatAbs fp32), (.fnegF32, (1, 1, 1, 1), floatNeg fp32),
   (.cvtF64F32, (1, 1, 2, 2), floatConvert fp32 fp64 .rne),
   (.scalexT8, (1, 1, 1, 1), fun a => taperedScale 8 (floatValue fp32 a)),
   (.scalexT6, (1, 1, 1, 1), fun a => taperedScale 6 (floatValue fp32 a)),
   (.cvtN8x4F32, (4, 4, 1, 1), encodeN8)]

/-- The scaled conversions, rb giving the scale (R169). -/
def scaledRows : List ((Enc → Instr) × (Nat × Nat × Nat × Nat) × (Nat → Nat → Nat × Flags)) :=
  [(.cvtT8x4F32, (4, 4, 1, 1), encodeTapered 8 4), (.cvtT6x16F32, (16, 16, 3, 1), encodeTapered 6 16),
   (.cvtF32T8, (1, 1, 4, 4), decodeTapered 8 4), (.cvtF32T6, (3, 1, 16, 16), decodeTapered 6 16)]

/-- A finite value as a rational. -/
def ratOf (neg : Bool) (m : Nat) (e : Int) : ℚ := (if neg then -1 else 1) * m * (2 : ℚ) ^ e

/-- The rational of a pattern of a format, where it is finite. -/
def patternRat (f : FloatFormat) (x : Nat) : Option ℚ :=
  match floatValue f x with
  | .fin n m e => some (ratOf n m e)
  | _ => none

/-- R33 for a nonzero finite value `x` and the pattern `r` it is rounded to, against every finite pattern `y` of the format. -/
def roundedWell (mode : RoundMode) (x r y : ℚ) : Prop :=
  match mode with
  | .rne => |r - x| ≤ |y - x|
  | .rna => |r - x| ≤ |y - x|
  | .rtz => |r| ≤ |x| ∧ 0 ≤ r * x ∧ (|y| ≤ |x| → 0 ≤ y * x → |y| ≤ |r|)
  | .rdn => r ≤ x ∧ (y ≤ x → y ≤ r)
  | .rup => x ≤ r ∧ (x ≤ y → r ≤ y)

/-! ### Cross-lane and exact sums (R171 to R176) -/

/-- The source lane of a shuffle (R172): the lane computed, where it is a participant, else the lane itself. -/
def shuffleFrom (e : Enc) (s : State) (i : Nat) (k : Int) : Nat := if 0 ≤ k ∧ takesPart e s k.toNat = true then k.toNat else i

/-- R172's source lanes. -/
def shuffleSources : List ((Enc → Instr) × (Nat → Nat → Int)) :=
  [(.shflIdx, fun _ n => n), (.shflXor, fun i n => (i ^^^ n : Nat)), (.shflUp, fun i n => (i : Int) - n), (.shflDown, fun i n => i + n)]

/-- The form of the shuffles, and of MATCH, REDUCE and SCAN. -/
def shuffleForm : Form := { rd := .reg 1 1, ra := .reg 1 1, rb := .reg 1 1, u := .zero }
def reduceForm : Form := { rd := .reg 1 1, ra := .reg 1 1, rb := .unused, u := .zero }

/-- The participants' values of ra, in lane order. -/
def partValues (e : Enc) (s : State) : List Word := (laneList (actLanes e s)).map fun i => readLoc (curGroup s) i (raLoc e)

/-- The values a float reduction adds: +0 for a lane that does not take part (R174). -/
def laneOrZero (e : Enc) (s : State) (i : Nat) : Nat := if takesPart e s i then (readLoc (curGroup s) i (raLoc e)).toNat else 0

/-- A cross-lane instruction leaves `f lane` in each participant (R171). -/
def Crosses (i : Instr) (f : Form) (e : Enc) (r : State → Nat → Nat × Flags) : Prop :=
  ∀ s, Legal f true e s → ∃ t, exec i s = .next t ∧ LaneResult s t (wordLen e) (actLanes e s) (locNum (rdLoc e)) 1 (r s)

/-- Compact forms by R78: the instruction, and its result from the old rd and rs. -/
def compactRows : List ((Cmp → Instr) × (Word → Word → Word × Flags)) :=
  [(.compactMov, fun _ b => (b, noFlags)), (.compactAddS32, fun a b => (a + b, noFlags)), (.compactSubS32, fun a b => (a - b, noFlags)),
   (.compactAnd, fun a b => (a &&& b, noFlags)), (.compactOr, fun a b => (a ||| b, noFlags)), (.compactXor, fun a b => (a ^^^ b, noFlags)),
   (.compactShl, fun a b => (if 32 ≤ b.toNat then 0 else a <<< b.toNat, noFlags)),
   (.compactShrZ32, fun a b => (if 32 ≤ b.toNat then 0 else a >>> b.toNat, noFlags)),
   (.compactMulloB32, fun a b => (a * b, noFlags))]

/-- The float compact forms, rounded to nearest even. -/
def compactFloatRows : List ((Cmp → Instr) × (Nat → Nat → Nat × Flags)) :=
  [(.compactFaddF32, floatAdd fp32 .rne), (.compactFsubF32, floatSub fp32 .rne), (.compactFmulF32, floatMul fp32 .rne),
   (.compactFminF32, floatMin fp32), (.compactFmaxF32, floatMax fp32)]

/-- A gang issues and its group's allocation holds the registers named (R82). -/
def CompactLegal (regs : List Nat) (s : State) : Prop :=
  (∃ sid g sl, GangIssues s sid g sl) ∧ ∀ r ∈ regs, r + 1 ≤ (curGroup s).alloc ∧ r + 1 ≤ 128

/-- A compact form acts in the active lanes, or in those where p1 is true (R77). -/
def CompactResult (c : Cmp) (r : Group → Nat → Nat × Flags) (s t : State) : Prop :=
  LaneResult s t 2 (guardedLanes (if c.g1 then 1 else 0) s) c.rd.toNat 1 (r (curGroup s))

end Sys2Proof.Claims

/-- R158, R159, R162 to R165, R167: the floating-point instructions with a rounding mode. -/
def Sys2Proof.Claims.FloatArithmeticRule : Prop :=
  (∀ p ∈ float32Rows, ∀ e, Computes (p.1 e) (floatForm2 1) true e (rdLoc e) 1 fun g l =>
    p.2 (wordMode e) (num g l 1 (raLoc e)) (num g l 1 (rbLoc e))) ∧
  (∀ p ∈ unary32Rows, ∀ e, Computes (p.1 e) (floatForm1 1 1) true e (rdLoc e) 1 fun g l => p.2 (wordMode e) (num g l 1 (raLoc e))) ∧
  (∀ p ∈ fusedRows, ∀ e, Computes (p.1 e) (fusedForm 1) true e (rdLoc e) 1 fun g l =>
    p.2 (wordMode e) (num g l 1 (raLoc e)) (num g l 1 (rbLoc e)) (num g l 1 (thirdOperand e))) ∧
  ∀ e,
    Computes (.daddF64 e) (floatForm2 2) true e (rdLoc e) 2
      (fun g l => floatAdd fp64 (wordMode e) (num g l 2 (raLoc e)) (num g l 2 (rbLoc e))) ∧
    Computes (.dmulF64 e) (floatForm2 2) true e (rdLoc e) 2
      (fun g l => floatMul fp64 (wordMode e) (num g l 2 (raLoc e)) (num g l 2 (rbLoc e))) ∧
    Computes (.dfmaF64 e) (fusedForm 2) true e (rdLoc e) 2
      (fun g l => floatFma fp64 (wordMode e) (num g l 2 (raLoc e)) (num g l 2 (rbLoc e)) (num g l 2 (thirdOperand e))) ∧
    Computes (.cvtF32F64 e) { rd := .reg 1 1, ra := .reg 2 2, rb := .unused, round := true } true e (rdLoc e) 1
      (fun g l => floatConvert fp64 fp32 (wordMode e) (num g l 2 (raLoc e)))

/-- R36, R158, R161, R168 to R170: minimum, maximum, sign operations and the conversions without a mode. -/
def Sys2Proof.Claims.FloatConversionsRule : Prop :=
  (∀ p ∈ conversionRows, ∀ e,
    Computes (p.1 e) { rd := .reg p.2.1.2.2.1 p.2.1.2.2.2, ra := .reg p.2.1.1 p.2.1.2.1, rb := .unused } true e (rdLoc e) p.2.1.2.2.1
      fun g l => p.2.2 (num g l p.2.1.1 (raLoc e))) ∧
  (∀ p ∈ scaledRows, ∀ e,
    Computes (p.1 e) { rd := .reg p.2.1.2.2.1 p.2.1.2.2.2, ra := .reg p.2.1.1 p.2.1.2.1, rb := .reg 1 1 } true e (rdLoc e) p.2.1.2.2.1
      fun g l => p.2.2 (num g l p.2.1.1 (raLoc e)) (num g l 1 (rbLoc e))) ∧
  ∀ e,
    let min2 : Form := { rd := .reg 1 1, ra := .reg 1 1, rb := .reg 1 1 }
    let half : Form := { rd := .reg 1 1, ra := .reg 1 1, rb := .unused, mods := 1 }
    Computes (.fminF32 e) min2 true e (rdLoc e) 1 (fun g l => floatMin fp32 (num g l 1 (raLoc e)) (num g l 1 (rbLoc e))) ∧
    Computes (.fmaxF32 e) min2 true e (rdLoc e) 1 (fun g l => floatMax fp32 (num g l 1 (raLoc e)) (num g l 1 (rbLoc e))) ∧
    Computes (.cvtF32F16 e) half true e (rdLoc e) 1
      (fun g l => floatConvert fp16 fp32 .rne (num g l 1 (raLoc e) / 2 ^ (16 * (modifier e % 2)) % 2 ^ 16)) ∧
    Computes (.cvtF32Bf16 e) half true e (rdLoc e) 1
      (fun g l => floatConvert bf16 fp32 .rne (num g l 1 (raLoc e) / 2 ^ (16 * (modifier e % 2)) % 2 ^ 16)) ∧
    Computes (.cvtF32N8 e) { rd := .reg 1 1, ra := .reg 1 1, rb := .imm, xp := .layoutB } (decide (immRri e < 4)) e (rdLocB e) 1
      (fun g l => n8Value (num g l 1 (raLocB e) / 256 ^ immRri e % 256))

/-- R155 to R170: floating-point arithmetic and conversions.
Where the spec leaves a point open the model's choice is that of log 7. -/
def Obligations.FloatResults : Prop := Sys2Proof.Claims.FloatArithmeticRule ∧ Sys2Proof.Claims.FloatConversionsRule

/-- R33, R35: a nonzero finite value is rounded to the nearest value of the format, or to the nearest in the mode's direction, and INX says
whether it has changed. -/
def Obligations.RoundingIsCorrect : Prop :=
  ∀ f ∈ [fp16, bf16, fp32, fp64], ∀ mode neg m e r, m ≠ 0 → patternRat f (roundFinite f mode neg m e).1 = some r →
    (∀ y q, y < 2 ^ (1 + f.expBits + f.fracBits) → patternRat f y = some q → roundedWell mode (ratOf neg m e) r q) ∧
    ((roundFinite f mode neg m e).2 &&& flagINX = 0 ↔ r = ratOf neg m e)

/-- R34, R171 to R174: shuffles, ballot, match, reductions and scans over the participants, a NaN result being the canonical one. -/
def Obligations.CrossLane : Prop :=
  (∀ p ∈ shuffleSources, ∀ e, Crosses (p.1 e) shuffleForm e fun s i =>
    ((readLoc (curGroup s) (shuffleFrom e s i (p.2 i ((readLoc (curGroup s) i (rbLoc e)).toNat % 32))) (raLoc e)).toNat, noFlags)) ∧
  (∀ e s, Legal { rd := .reg 1 1, ra := .pred, rb := .unused, u := .zero } true e s → ∃ t w, exec (.ballot e) s = .next t ∧
    LaneResult s t (wordLen e) (actLanes e s) (locNum (rdLoc e)) 1 (fun _ => ((w : Word).toNat, noFlags)) ∧
    ∀ i, i < 32 → w.getLsbD i = (takesPart e s i && readP (curGroup s) e.ra.toNat i)) ∧
  (∀ e s, Legal reduceForm true e s → ∃ t, ∃ w : Nat → Word, exec (.matchLanes e) s = .next t ∧
    LaneResult s t (wordLen e) (actLanes e s) (locNum (rdLoc e)) 1 (fun lane => ((w lane).toNat, noFlags)) ∧
    ∀ lane i, i < 32 → (w lane).getLsbD i =
      (takesPart e s i && decide (readLoc (curGroup s) i (raLoc e) = readLoc (curGroup s) lane (raLoc e)))) ∧
  (∀ e, Crosses (.reduceAddS32 e) reduceForm e fun s _ => ((partValues e s).sum.toNat, noFlags)) ∧
  (∀ e, Crosses (.scanAddS32 e) reduceForm e fun s i =>
    ((((laneList (actLanes e s)).filter (· ≤ i)).map fun k => readLoc (curGroup s) k (raLoc e)).sum.toNat, noFlags)) ∧
  (∀ e s, Legal reduceForm true e s → ∃ t, ∃ w : Nat → Word, exec (.reduceMinS32 e) s = .next t ∧
    LaneResult s t (wordLen e) (actLanes e s) (locNum (rdLoc e)) 1 (fun lane => ((w lane).toNat, noFlags)) ∧
    ∀ lane, takesPart e s lane = true → w lane ∈ partValues e s ∧ ∀ v ∈ partValues e s, (w lane).toInt ≤ v.toInt) ∧
  (∀ e s, Legal reduceForm true e s → ∃ t, ∃ w : Nat → Word, exec (.reduceMaxS32 e) s = .next t ∧
    LaneResult s t (wordLen e) (actLanes e s) (locNum (rdLoc e)) 1 (fun lane => ((w lane).toNat, noFlags)) ∧
    ∀ lane, takesPart e s lane = true → w lane ∈ partValues e s ∧ ∀ v ∈ partValues e s, v.toInt ≤ (w lane).toInt) ∧
  (∀ e, Crosses (.reduceAddF32 e) reduceForm e fun s _ => treeSum 5 ((List.range 32).map (laneOrZero e s))) ∧
  ∀ e, Crosses (.scanAddF32 e) reduceForm e fun s i =>
    (nanCanonical fp32 (scanFloat (((List.range 31).map fun k => laneOrZero e s (k + 1)).take i) (laneOrZero e s 0)).1,
      (scanFloat ((List.range 31).map fun k => laneOrZero e s (k + 1)) (laneOrZero e s 0)).2)

/-- R175, R176: the exact-sum instructions on the accumulator of ten registers.
Where the spec leaves a point open the model's choice is that of log 70. -/
def Obligations.ExactSums : Prop :=
  let accOf (e : Enc) (g : Group) (l : Nat) : Exact := exactOfNat (num g l 10 (rdLoc e))
  (∀ e, Computes (.xclr e) { rd := .reg 10 2, ra := .unused, rb := .unused, u := .zero } true e (rdLoc e) 10 fun _ _ => (0, noFlags)) ∧
  (∀ e, Computes (.xaccF32 e) { rd := .reg 10 2, ra := .reg 1 1, rb := .unused, u := .zero } true e (rdLoc e) 10 fun g l =>
    let v := floatValue fp32 (num g l 1 (raLoc e))
    let r := exactAddTerm (accOf e g l) v
    (natOfExact r.1, r.2 ||| snanFlags [v])) ∧
  (∀ e, Computes (.xmacF32 e) { rd := .reg 10 2, ra := .reg 1 1, rb := .reg 1 1, u := .zero } true e (rdLoc e) 10 fun g l =>
    let p := floatValue fp32 (num g l 1 (raLoc e))
    let q := floatValue fp32 (num g l 1 (rbLoc e))
    let r := exactAddTerm (accOf e g l) (numMul p q).1
    (natOfExact r.1, r.2 ||| snanFlags [p, q])) ∧
  (∀ e, Computes (.xaccX320 e) { rd := .reg 10 2, ra := .reg 10 2, rb := .unused, u := .zero } true e (rdLoc e) 10 fun g l =>
    (natOfExact (exactAdd (accOf e g l) (exactOfNat (num g l 10 (raLoc e)))), noFlags)) ∧
  (∀ e, Computes (.xrndF32 e) { rd := .reg 1 1, ra := .reg 10 2, rb := .unused, u := .zero } true e (rdLoc e) 1 fun g l =>
    exactRound (exactOfNat (num g l 10 (raLoc e)))) ∧
  ∀ e s, Legal { rd := .reg 10 2, ra := .reg 10 2, rb := .unused, u := .zero } true e s → ∃ t, exec (.xred e) s = .next t ∧
    LaneResult s t (wordLen e) (actLanes e s) (locNum (rdLoc e)) 10 fun _ =>
      (natOfExact (((laneList (actLanes e s)).map fun i => exactOfNat (num (curGroup s) i 10 (raLoc e))).foldl exactAdd (exactOfNat 0)),
        noFlags)

/-- R77, R78, R82: the compact forms. -/
def Obligations.CompactForms : Prop :=
  (∀ p ∈ compactRows, ∀ c s, CompactLegal [c.rs.toNat, c.rd.toNat] s → ∃ t, exec (p.1 c) s = .next t ∧
    CompactResult c (fun g l => oneWord (p.2 (readV g c.rd.toNat l) (readV g c.rs.toNat l))) s t) ∧
  (∀ p ∈ compactFloatRows, ∀ c s, CompactLegal [c.rs.toNat, c.rd.toNat] s → ∃ t, exec (p.1 c) s = .next t ∧
    CompactResult c (fun g l => p.2 (readV g c.rd.toNat l).toNat (readV g c.rs.toNat l).toNat) s t) ∧
  (∀ c s, CompactLegal [c.rd.toNat] s → ∃ t, exec (.compactAddi c) s = .next t ∧
    CompactResult c (fun g l => ((readV g c.rd.toNat l + c.rs.signExtend 32).toNat, noFlags)) s t) ∧
  ∀ c s, CompactLegal [c.rd.toNat] s → ∃ t, exec (.compactLi c) s = .next t ∧
    CompactResult c (fun _ _ => ((c.rs.signExtend 32).toNat, noFlags)) s t

namespace Sys2Proof.Claims

/-! ### Control flow (R177 to R182) -/

/-- A U = 1 form whose q guard is false has no effect (R65). -/
def held (e : Enc) (s : State) : Prop := e.u = true ∧ qGuard e s = false

/-- The target in the pair ra:ra+1 of a lane, or of the group: the low 57 bits (R178). -/
def pairAt (e : Enc) (s : State) (lane : Nat) : Va := (pair (curGroup s) lane (raLoc e)).setWidth 57

/-- A lane of the issuing gang is active. -/
def laneActive (s : State) (l : Nat) : Prop := l < 32 ∧ (gangLanes s).getLsbD l = true

/-- The pair names one target: the group's under U = 1, that of every active lane, of which there is one, under U = 0 (R178). -/
def namesTarget (e : Enc) (s : State) (v : Va) : Prop :=
  if e.u then pairAt e s 0 = v else (∃ l, laneActive s l) ∧ ∀ l, laneActive s l → pairAt e s l = v

/-- JMPR's and CALLR's cases by the target: none, an even one, an odd one, several (R178). -/
def JumpsByPair (i : Instr) (e : Enc) (s : State) (effect : Va → State → State → Prop) : Prop :=
  (e.u = false → (∀ l, ¬ laneActive s l) → ∃ t, exec i s = .next t ∧ GoesOn (wordLen e) s t) ∧
  (∀ v, namesTarget e s v → v.getLsbD 0 = false → ∃ t, exec i s = .next t ∧ effect v s t) ∧
  (∀ v, namesTarget e s v → v.getLsbD 0 = true → exec i s = .next (faultWith 0 4 (gangLanes s) s)) ∧
  (e.u = false → ∀ l m, laneActive s l → laneActive s m → pairAt e s l ≠ pairAt e s m →
    exec i s = .next (faultWith 0 11 (gangLanes s) s))

/-- A call: g62 and g63 hold the link `a`, the gang stands at `v`, nothing else has changed (R178). -/
def Calls (a v : Va) (s t : State) : Prop :=
  readG (curGroup t) 62 = a.setWidth 32 ∧ readG (curGroup t) 63 = (a >>> 32).setWidth 32 ∧
  (∀ n, n ≠ 62 → n ≠ 63 → readG (curGroup t) n = readG (curGroup s) n) ∧
  SlicesMove (fun _ sl => { sl with pc := v }) s t ∧
  curGroup t = { curGroup s with gregs := (curGroup t).gregs, slices := (curGroup t).slices } ∧ OnlyGroup s t ∧ SameBytes s t

/-- The forms of the branches and jumps (R177). -/
def branchForm : Form := { rd := .imm, ra := .imm, rb := .imm, xp := .layoutB, guard := .zeroLane, prologue := true }
def jumpForm : Form := { rd := .unused, ra := .reg 2 2, rb := .unused, guard := .zeroLane, prologue := true, xp := .zero }
def retForm : Form := { rd := .unused, ra := .unused, rb := .unused, xp := .zero, guard := .zeroLane, prologue := true }
def brdForm : Form := { rd := .imm, ra := .imm, rb := .imm, xp := .layoutB, u := .zero }
def bareForm : Form := { rd := .unused, ra := .unused, rb := .unused, xp := .zero, u := .zero, guard := .zero }
def exitForm : Form := { rd := .unused, ra := .imm, rb := .imm, xp := .zero, u := .zero }
def barForm : Form := { rd := .unused, ra := .imm, rb := .imm, xp := .zero, u := .zero, guard := .zero }

/-- The return address in g62 and g63. -/
def linkOf (s : State) : Va := (readG (curGroup s) 63 ++ readG (curGroup s) 62 : BitVec 64).setWidth 57

/-- BRD's taken and remaining active lanes of a slice (R122). -/
def takenOf (e : Enc) (s : State) (k : Nat) : BitVec 4 := (curSlice s k).act &&& maskOfSlice k (guardedLanes (guardNum e) s)
def restOf (e : Enc) (s : State) (k : Nat) : BitVec 4 := (curSlice s k).act &&& ~~~ maskOfSlice k (guardedLanes (guardNum e) s)

/-- RECONV on a slice at address `a` (R123): no entry names it; the first path has come, and the second starts; both have come. -/
def reconverged (a : Va) (len : Nat) (sl : Slice) : Slice :=
  let on : Va := sl.pc + BitVec.ofNat 57 len
  match sl.stack with
  | [] => { sl with pc := on }
  | en :: rest =>
    if en.rpc = a then
      if en.dpc.getLsbD 0 then { sl with act := (sl.act ||| en.dmask) &&& sl.live, stack := rest, pc := on }
      else { sl with act := en.dmask &&& sl.live, stack := ⟨a, sl.act, en.dpc ||| 1⟩ :: rest, pc := en.dpc }
    else { sl with pc := on }

/-- The top entry names `a` and lies at or below the depth at which its slice parted. -/
def mergesBelow (a : Va) (sl : Slice) : Prop := ∃ en rest d, sl.stack = en :: rest ∧ sl.part = some d ∧ en.rpc = a ∧ stackDepth sl ≤ d

/-- A slice with some of its lanes gone. -/
def without (lanes : LaneMask) (k : Nat) (sl : Slice) : Slice :=
  { sl with act := sl.act &&& ~~~ maskOfSlice k lanes, live := sl.live &&& ~~~ maskOfSlice k lanes }

/-- EXIT leaves the gang without active lanes. -/
def gangEmptied (lanes : LaneMask) (s : State) : Prop := ∀ k ∈ curSlices s, (curSlice s k).act &&& ~~~ maskOfSlice k lanes = 0

/-- The slice that another path of its stack takes up: at the reconvergence point of the top entry (R124). -/
def atTop (len : Nat) (sl : Slice) : Slice :=
  match sl.stack with
  | en :: _ => { sl with pc := en.rpc }
  | [] => { sl with pc := sl.pc + BitVec.ofNat 57 len }

/-- A slice's stack is on chip: entries above a spilled block are there (R125). -/
def onChip (sl : Slice) : Prop := sl.stack = [] → sl.spilled = 0

end Sys2Proof.Claims

/-- R178: the branches, jumps, calls and returns: targets, the link, the faults 0:4 and 0:11. -/
def Obligations.Branches : Prop :=
  (∀ e s, Legal branchForm true e s →
    (held e s → ∃ t, exec (.bra e) s = .next t ∧ GoesOn (wordLen e) s t) ∧
    (¬ held e s → ∃ t, exec (.bra e) s = .next t ∧ GoesTo (wordAddr e s + BitVec.ofInt 57 (2 * offsetB e)) s t)) ∧
  (∀ e s, Legal jumpForm true e s →
    (held e s → ∃ t, exec (.jmpr e) s = .next t ∧ GoesOn (wordLen e) s t) ∧
    (¬ held e s → JumpsByPair (.jmpr e) e s GoesTo)) ∧
  (∀ e s, Legal branchForm true e s →
    (held e s → ∃ t, exec (.call e) s = .next t ∧ GoesOn (wordLen e) s t) ∧
    (¬ held e s → wholeGang s = false → exec (.call e) s = .next (faultWith 0 11 (gangLanes s) s)) ∧
    (¬ held e s → wholeGang s = true → ∃ t, exec (.call e) s = .next t ∧
      Calls (wordAddr e s + 4) (wordAddr e s + BitVec.ofInt 57 (2 * offsetB e)) s t)) ∧
  (∀ e s, Legal jumpForm true e s →
    (held e s → ∃ t, exec (.callr e) s = .next t ∧ GoesOn (wordLen e) s t) ∧
    (¬ held e s → wholeGang s = false → exec (.callr e) s = .next (faultWith 0 11 (gangLanes s) s)) ∧
    (¬ held e s → wholeGang s = true → JumpsByPair (.callr e) e s (Calls (wordAddr e s + 4)))) ∧
  ∀ e s, Legal retForm true e s →
    (held e s → ∃ t, exec (.ret e) s = .next t ∧ GoesOn (wordLen e) s t) ∧
    (¬ held e s → wholeGang s = false → exec (.ret e) s = .next (faultWith 0 11 (gangLanes s) s)) ∧
    (¬ held e s → wholeGang s = true → (linkOf s).getLsbD 0 = true → exec (.ret e) s = .next (faultWith 0 4 (gangLanes s) s)) ∧
    (¬ held e s → wholeGang s = true → (linkOf s).getLsbD 0 = false → ∃ t, exec (.ret e) s = .next t ∧ GoesTo (linkOf s) s t)

/-- R122, R179: BRD's cases: guard 0, all taken, none taken, gang divergence, lane divergence on an on-chip stack, a stack of 288 entries
(0:13). Where no lane is active the case of none taken is the model's choice (log 79). -/
def Sys2Proof.Claims.DivergenceRule : Prop :=
  ∀ e s, Legal brdForm true e s →
    let target := wordAddr e s + BitVec.ofInt 57 (2 * simmRj e)
    let fall := wordAddr e s + 4
    let rpc := wordAddr e s + 4 + BitVec.ofNat 57 (8 * e.rd.toNat)
    let both (k : Nat) : Prop := takenOf e s k ≠ 0 ∧ restOf e s k ≠ 0
    (guardNum e = 0 → ∃ t, exec (.brd e) s = .next t ∧ GoesTo target s t) ∧
    ((∀ k ∈ curSlices s, restOf e s k = 0) → (∃ k ∈ curSlices s, takenOf e s k ≠ 0) →
      ∃ t, exec (.brd e) s = .next t ∧ GoesTo target s t) ∧
    (guardNum e ≠ 0 → (∀ k ∈ curSlices s, takenOf e s k = 0) → ∃ t, exec (.brd e) s = .next t ∧ GoesTo fall s t) ∧
    ((∀ k ∈ curSlices s, ¬ both k) → (∃ k ∈ curSlices s, takenOf e s k ≠ 0) → (∃ k ∈ curSlices s, restOf e s k ≠ 0) →
      ∃ t, exec (.brd e) s = .next t ∧
        SlicesBecome (fun k sl => { sl with pc := if takenOf e s k = 0 then fall else target, part := some (stackDepth sl) }) s t) ∧
    ((∃ k ∈ curSlices s, both k) → (∀ k ∈ curSlices s, (curSlice s k).stack.length < 32 ∧ stackDepth (curSlice s k) < 288) →
      ∃ t, exec (.brd e) s = .next t ∧
        SlicesBecome (fun k sl => { sl with act := takenOf e s k, pc := target, stack := ⟨rpc, restOf e s k, fall⟩ :: sl.stack }) s t) ∧
    ((∃ k ∈ curSlices s, both k) → (∃ k ∈ curSlices s, 288 ≤ stackDepth (curSlice s k)) →
      exec (.brd e) s = .next (faultWith 0 13 (guardedLanes (guardNum e) s) s))

/-- R123, R126: RECONV on stacks that are on chip, REGANG and PART. -/
def Sys2Proof.Claims.ReconvergenceRule : Prop :=
  ∀ e s, Legal bareForm true e s →
    ((∀ k ∈ curSlices s, onChip (curSlice s k)) → (∀ k ∈ curSlices s, ¬ mergesBelow (wordAddr e s) (curSlice s k)) →
      ∃ t, exec (.reconv e) s = .next t ∧ SlicesBecome (fun _ sl => reconverged (wordAddr e s) (wordLen e) sl) s t) ∧
    ((∀ k ∈ curSlices s, onChip (curSlice s k)) → (∃ k ∈ curSlices s, mergesBelow (wordAddr e s) (curSlice s k)) →
      exec (.reconv e) s = .next (faultWith 0 11 (gangLanes s) s)) ∧
    (issuerSlice s = none → ∃ t, exec (.part e) s = .next t ∧
      SlicesBecome (fun _ sl => { sl with part := some (stackDepth sl), pc := sl.pc + BitVec.ofNat 57 (wordLen e) }) s t) ∧
    (issuerSlice s ≠ none → ∃ t, exec (.part e) s = .next t ∧ GoesOn (wordLen e) s t) ∧
    (issuerSlice s = none → ∃ t, exec (.regang e) s = .next t ∧ GoesOn (wordLen e) s t) ∧
    (∀ k, issuerSlice s = some k → (curSlice s k).part.getD 0 < stackDepth (curSlice s k) →
      exec (.regang e) s = .next (faultWith 0 11 (gangLanes s) s)) ∧
    (∀ k, issuerSlice s = some k → stackDepth (curSlice s k) ≤ (curSlice s k).part.getD 0 →
      (∃ j, j < 8 ∧ j ≠ k ∧ ∃ sl, (curGroup s).slices[j]? = some sl ∧ sl.live ≠ 0 ∧ sl.atRegang = false) →
      ∃ t, exec (.regang e) s = .next t ∧ SlicesBecome (fun _ sl => { sl with atRegang := true, regangLen := wordLen e }) s t) ∧
    ∀ k, issuerSlice s = some k → k < 8 → (∃ sl, (curGroup s).slices[k]? = some sl ∧ sl.live ≠ 0) →
      stackDepth (curSlice s k) ≤ (curSlice s k).part.getD 0 →
      (∀ j, j < 8 → j ≠ k → ∀ sl, (curGroup s).slices[j]? = some sl → sl.live ≠ 0 → sl.atRegang = true ∧ regangAddr sl = wordAddr e s) →
      ∃ t, exec (.regang e) s = .next t ∧ OnlyGroup s t ∧ SameBytes s t ∧
        curGroup t = { curGroup s with slices := (curGroup t).slices } ∧
        ∀ j, j < 8 → (curGroup t).slices[j]? = ((curGroup s).slices[j]?).map fun sl =>
          if sl.live = 0 then sl
          else
            { sl with
              part := none, atRegang := false, pc := wordAddr e s + 4, regangLen := if j = k then wordLen e else sl.regangLen }

/-- R122, R123, R125, R126, R179: branches that part the lanes, and how they come together again.
Where the spec leaves a point open the model's choice is that of log 59, 60 and 79. -/
def Obligations.DivergenceAndReconvergence : Prop := Sys2Proof.Claims.DivergenceRule ∧ Sys2Proof.Claims.ReconvergenceRule

/-- R124, R181: EXIT removes the guarded lanes: while every slice of the gang keeps a lane, and where the whole group exits with nothing
that its exit could change; EXIT 1 kills the span with %tcause. -/
def Sys2Proof.Claims.ExitsRule : Prop :=
  ∀ e s, Legal exitForm (decide (immRj e < 2)) e s →
    let lanes := guardedLanes (guardNum e) s
    (lanes = 0 → ∃ t, exec (.exit e) s = .next t ∧ GoesOn (wordLen e) s t) ∧
    (lanes ≠ 0 → immRj e = 1 → exec (.exit e) s = .next (killSpan (curSid s) (curGroup s).tcause s)) ∧
    (lanes ≠ 0 → immRj e = 0 → (∀ k ∈ curSlices s, ∃ sl, (curGroup s).slices[k]? = some sl ∧ (without lanes k sl).live ≠ 0 ∧ onChip sl) →
      (¬ gangEmptied lanes s → ∃ t, exec (.exit e) s = .next t ∧
        SlicesBecome (fun k sl => { without lanes k sl with pc := sl.pc + BitVec.ofNat 57 (wordLen e) }) s t) ∧
      (gangEmptied lanes s → ∃ t, exec (.exit e) s = .next t ∧
        SlicesBecome (fun k sl => atTop (wordLen e) (without lanes k sl)) s t)) ∧
    ∀ sp, lanes ≠ 0 → immRj e = 0 → curSpan s = some sp → sp.trap = none → (∀ b ∈ sp.barriers, b.auto = false) →
      (∀ g ∈ sp.groups, ∀ k, groupAwaits k g = false) →
      (∀ k sl, (curGroup s).slices[k]? = some sl → (if k ∈ curSlices s then (without lanes k sl).live else sl.live) = 0) →
      ∃ t, exec (.exit e) s = .next t ∧ SlicesBecome (fun k sl => without lanes k sl) s t

/-- R224: a killed span: every group stops at once with no lane left, nothing held or waited for, its request cancelled (R261), and its
registers, operations and engine queues as they were. -/
def Sys2Proof.Claims.KilledSpanRule : Prop :=
  ∀ s sid cause sp, findSpan s sid = some sp → sp.killed = none →
    let t := killSpan sid cause s
    OnlySpan sid s t ∧ ∃ sp', findSpan t sid = some sp' ∧
      sp' = { sp with
        groups := sp'.groups, trap := none, handler := none, blocked := sp.blocked ++ sp.held.filterMap (·.2.2.2), held := [],
        marked := false, byHost := false, killed := some cause, killedAt := s.time } ∧
      sp'.groups.length = sp.groups.length ∧
      ∀ (n : Nat) g, sp.groups[n]? = some g → ∃ g', sp'.groups[n]? = some g' ∧ SameRegisters g g' ∧ g'.waits = [] ∧ g'.parked = [] ∧
        g'.ops.map OpRec.id = g.ops.map OpRec.id ∧
        ∀ k, k < 8 → ∀ sl, g'.slices[k]? = some sl → sl.act = 0 ∧ sl.live = 0

/-- R124, R181, R224: the end of lanes and of a killed span.
Where the spec leaves a point open the model's choice is that of log 59. -/
def Obligations.ExitsAndKills : Prop := Sys2Proof.Claims.ExitsRule ∧ Sys2Proof.Claims.KilledSpanRule

/-- R125: a push on a full on-chip stack writes its 32 entries to the slice's spill block and nowhere else, and the reload brings back
exactly those entries.
Where the spec leaves a point open the model's choice is that of log 11. -/
def Obligations.StackSpills : Prop :=
  ∀ sp g k en s sl, sl.stack.length = 32 →
    let a := spillBlock sp g k sl.spilled
    let t := (pushEntry sp g k en s sl).1
    let sl' := (pushEntry sp g k en s sl).2
    sl' = { sl with stack := [en], spilled := sl.spilled + 1 } ∧ t = { s with mem := t.mem } ∧
    (∀ n, (∀ i, i < 512 → n ≠ areaKey (a + i)) → readByte t.mem n = readByte s.mem n) ∧
    reloaded t sp g k { sl' with stack := [] } = sl

namespace Sys2Proof.Claims

/-! ### Barriers (R183 to R189) -/

/-- Bit `k` of `y` is `v` and its other bits are those of `x`. -/
def bitIs (x y : BitVec 16) (k : Nat) (v : Bool) : Prop := ∀ j, j < 16 → y.getLsbD j = if j = k then v else x.getLsbD j

/-- Barrier `k` alone has become `b`. -/
def BarrierIs (sp sp' : Span) (k : Nat) (b : Barrier) : Prop := ∀ j, sp'.barriers[j]? = if j = k then some b else sp.barriers[j]?

/-- Every group of `sp'` is what `p` says of its number, what it was and what it is. -/
def EachGroup (sp sp' : Span) (p : Nat → Group → Group → Prop) : Prop :=
  sp'.groups.length = sp.groups.length ∧ ∀ (n : Nat) g, sp.groups[n]? = some g → ∃ g', sp'.groups[n]? = some g' ∧ p n g g'

/-- Only the issuing span has changed, in its groups and barriers, from `sp` to `sp'`. -/
def SpanMoves (s t : State) (sp sp' : Span) : Prop :=
  OnlySpan (curSid s) s t ∧ findSpan t (curSid s) = some sp' ∧ sp' = { sp with barriers := sp'.barriers, groups := sp'.groups }

/-- The wait of a barrier. -/
def waitsFor (k : Nat) (w : Wait) : Prop := ∃ p sync token, w = .barrier k p sync token

/-- A barrier after one more arrival (R185): counted, or the phase completed. -/
def completes (b : Barrier) : Prop := b.n ≤ b.a + 1
def arrivedAt (b : Barrier) : Barrier :=
  if b.n ≤ b.a + 1 then
    { b with a := 0, ph := !b.ph, n := b.nNext, init := b.init && !(b.auto && b.nNext == 0) }
  else { b with a := b.a + 1 }

/-- The waits on the barrier's phase have come true, and no other has changed. -/
def wokenWaits (k : Nat) (l l' : List GroupWait) : Prop :=
  l'.length = l.length ∧ ∀ (i : Nat) w, l[i]? = some w → ∃ w', l'[i]? = some w' ∧ w'.slice = w.slice ∧ w'.wait = w.wait ∧
    (waitsFor k w.wait → w'.woken = true) ∧ (¬ waitsFor k w.wait → w'.woken = w.woken)

/-- What an arrival of group `n` on barrier `k` leaves of each group but its slices, its token and its waits of its own. -/
def arrivalGroup (b : Barrier) (k n m : Nat) (g g' : Group) : Prop :=
  SameRegisters g g' ∧ bitIs g.arr g'.arr k (if b.n ≤ b.a + 1 then false else if m = n then true else g.arr.getLsbD k) ∧
  bitIs g.tok g'.tok k (if m = n then b.ph else g.tok.getLsbD k) ∧ (m ≠ n → g'.tv = g.tv ∧ g'.slices = g.slices) ∧
  (m ≠ n → if b.n ≤ b.a + 1 then wokenWaits k g.waits g'.waits else g'.waits = g.waits) ∧
  g'.ops = g.ops ∧ g'.parked = g.parked

/-- A group whose barrier instruction the checks of R49, R127 and R221 let through. -/
def mayBar (s : State) : Prop := inHandler s = false ∧ wholeGang s = true ∧ (curGroup s).fsr &&& (curGroup s).fen = 0

/-- The waits of the other slices. -/
def otherWaits (s : State) : List GroupWait := (curGroup s).waits.filter fun w => w.slice != issuerSlice s

/-- The word of BAR.QRY (R189). -/
def queryWord (b : Barrier) (arrived : Bool) : Word :=
  BitVec.ofNat 16 (if b.init then b.n - b.a else 0) ++ BitVec.ofNat 8 (min b.pend 255) ++ (0 : BitVec 4) ++ BitVec.ofBool arrived ++
    BitVec.ofBool b.ph ++ BitVec.ofBool b.auto ++ BitVec.ofBool b.init

end Sys2Proof.Claims

/-- R184: BAR.INIT, whose index, count and mode its immediate gives: no effect where nothing changes, 0:15 on a barrier in use, else a
barrier initialised for every group; it changes no register. -/
def Sys2Proof.Claims.BarrierInitRule : Prop :=
  ∀ e s sp b, Legal { barForm with xp := .layoutB } (decide (1 ≤ immRj e / 32) && decide (immRj e / 32 ≤ 65535)) e s →
    curSpan s = some sp → sp.barriers[immRj e % 16]? = some b → inHandler s = false → wholeGang s = true →
    let k := immRj e % 16
    let c := immRj e / 32
    let auto := (immRj e / 16) % 2 = 1
    let same := b.init = true ∧ b.n = c ∧ b.nNext = c ∧ (b.auto = true ↔ auto)
    (same → ∃ t, exec (.barInit e) s = .next t ∧ GoesOn (wordLen e) s t) ∧
    (¬ same → b.init = true → b.a ≠ 0 ∨ b.pend ≠ 0 → exec (.barInit e) s = .next (faultWith 0 15 (gangLanes s) s)) ∧
    (¬ same → (b.init = true → b.a = 0 ∧ b.pend = 0) → ∃ t sp', exec (.barInit e) s = .next t ∧ SpanMoves s t sp sp' ∧
      Advanced (wordLen e) s t ∧ (∃ b', BarrierIs sp sp' k b' ∧ b'.init = true ∧ (b'.auto = true ↔ auto) ∧ b'.n = c ∧ b'.nNext = c ∧
        b'.a = 0 ∧ b'.ph = b.ph ∧ b'.pend = b.pend) ∧
      EachGroup sp sp' fun n g g' => bitIs g.arr g'.arr k false ∧ bitIs g.tok g'.tok k false ∧ bitIs g.tv g'.tv k false ∧
        g' = { g with arr := g'.arr, tok := g'.tok, tv := g'.tv, slices := g'.slices } ∧ (n ≠ curNum s → g'.slices = g.slices))

/-- R185: BAR.ARV arrives: an uninitialised barrier or a second arrival in a phase faults 0:15; else the arrival counts, completes the
phase where it is the last, and the gang goes on. -/
def Sys2Proof.Claims.BarrierArriveRule : Prop :=
  ∀ e s sp b, Legal barForm (decide (immRj e < 16)) e s → curSpan s = some sp → sp.barriers[immRj e]? = some b → mayBar s →
    let k := immRj e
    (b.init = false ∨ (curGroup s).arr.getLsbD k = true → exec (.barArv e) s = .next (faultWith 0 15 (gangLanes s) s)) ∧
    (b.init = true → (curGroup s).arr.getLsbD k = false → ∃ t sp', exec (.barArv e) s = .next t ∧ SpanMoves s t sp sp' ∧
      BarrierIs sp sp' k (arrivedAt b) ∧ Advanced (wordLen e) s t ∧ EachGroup sp sp' (arrivalGroup b k (curNum s)) ∧
      bitIs (curGroup s).tv (curGroup t).tv k true ∧
      (completes b → wokenWaits k (curGroup s).waits (curGroup t).waits) ∧ (¬ completes b → (curGroup t).waits = (curGroup s).waits))

/-- R185: BAR.WAIT goes on where the phase its token names has completed, or its wait has come true, and blocks on it otherwise, after
which the underrun test is made (R188). -/
def Sys2Proof.Claims.BarrierWaitRule : Prop :=
  ∀ e s sp b, Legal barForm (decide (immRj e < 16)) e s → curSpan s = some sp → sp.barriers[immRj e]? = some b →
    let k := immRj e
    let named := if (curGroup s).tv.getLsbD k then (curGroup s).tok.getLsbD k else b.ph
    (mayBar s → curWait s = none → b.init = false → exec (.barWait e) s = .next (faultWith 0 15 (gangLanes s) s)) ∧
    (mayBar s → curWait s = none → b.init = true → named ≠ b.ph → ∃ t, exec (.barWait e) s = .next t ∧
      ∃ tv, bitIs (curGroup s).tv tv k false ∧ GroupGoesOn (wordLen e) (fun g => { g with tv := tv }) s t) ∧
    (mayBar s → curWait s = none → b.init = true → named = b.ph → ∃ t, exec (.barWait e) s = .next (underrunTest (curSid s) k t) ∧
      ∃ tv, bitIs (curGroup s).tv tv k false ∧
        GroupBecomes (fun g => { g with tv := tv, waits := otherWaits s ++ [⟨issuerSlice s, .barrier k b.ph false ((curGroup s).tv.getLsbD k), false, false⟩] }) s t) ∧
    (∀ w, curWait s = some w → waitsFor k w.wait → w.woken = true → ∃ t, exec (.barWait e) s = .next t ∧
      ∃ tv, bitIs (curGroup s).tv tv k false ∧ GroupGoesOn (wordLen e) (fun g => { g with tv := tv, waits := otherWaits s }) s t) ∧
    ∀ w, curWait s = some w → waitsFor k w.wait → w.woken = false → exec (.barWait e) s = .next s

/-- R185: BAR.SYNC arrives and waits for the phase of its own arrival: it goes on at once where it completes the phase, and at its next
issue after the phase completes. -/
def Sys2Proof.Claims.BarrierSyncRule : Prop :=
  ∀ e s sp b, Legal barForm (decide (immRj e < 16)) e s → curSpan s = some sp → sp.barriers[immRj e]? = some b →
    let k := immRj e
    (mayBar s → curWait s = none → b.init = false ∨ (curGroup s).arr.getLsbD k = true →
      exec (.barSync e) s = .next (faultWith 0 15 (gangLanes s) s)) ∧
    (mayBar s → curWait s = none → b.init = true → (curGroup s).arr.getLsbD k = false → completes b → (arrivedAt b).init = true →
      ∃ t sp', exec (.barSync e) s = .next t ∧ SpanMoves s t sp sp' ∧ BarrierIs sp sp' k (arrivedAt b) ∧ Advanced (wordLen e) s t ∧
        EachGroup sp sp' (arrivalGroup b k (curNum s)) ∧ bitIs (curGroup s).tv (curGroup t).tv k false) ∧
    (mayBar s → curWait s = none → b.init = true → (curGroup s).arr.getLsbD k = false → ¬ completes b →
      ∃ t sp', exec (.barSync e) s = .next (underrunTest (curSid s) k t) ∧ SpanMoves s t sp sp' ∧ BarrierIs sp sp' k (arrivedAt b) ∧
        EachGroup sp sp' (arrivalGroup b k (curNum s)) ∧ bitIs (curGroup s).tv (curGroup t).tv k false ∧
        (curGroup t).slices = (curGroup s).slices ∧ (curGroup t).waits = otherWaits s ++ [⟨issuerSlice s, .barrier k b.ph true true, false, false⟩]) ∧
    (∀ w, curWait s = some w → waitsFor k w.wait → w.woken = true → ∃ t, exec (.barSync e) s = .next t ∧
      ∃ tv, bitIs (curGroup s).tv tv k false ∧ GroupGoesOn (wordLen e) (fun g => { g with tv := tv, waits := otherWaits s }) s t) ∧
    ∀ w, curWait s = some w → waitsFor k w.wait → w.woken = false → exec (.barSync e) s = .next s

/-- R49, R127, R185, R221: BAR.ARV, and BAR.WAIT and BAR.SYNC where the gang does not wait yet, trap 1:20 under an armed flag, before any other
check; then 0:2 in a trap handler; then 0:11 where the gang is not whole. -/
def Sys2Proof.Claims.BarrierChecksRule : Prop :=
  ∀ e s, Legal barForm (decide (immRj e < 16)) e s → curWait s = none → ∀ i ∈ [Instr.barArv e, .barWait e, .barSync e],
    ((curGroup s).fsr &&& (curGroup s).fen ≠ 0 → exec i s = .next (faultWith 1 20 (gangLanes s) s)) ∧
    ((curGroup s).fsr &&& (curGroup s).fen = 0 → inHandler s = true → exec i s = .next (faultWith 0 2 (gangLanes s) s)) ∧
    ((curGroup s).fsr &&& (curGroup s).fen = 0 → inHandler s = false → wholeGang s = false →
      exec i s = .next (faultWith 0 11 (gangLanes s) s))

/-- R49, R184, R185: arriving at a barrier and waiting for a phase, and where a barrier instruction traps.
Where the spec leaves a point open the model's choice is that of log 53 and 90. -/
def Obligations.BarrierPhases : Prop := Sys2Proof.Claims.BarrierArriveRule ∧ Sys2Proof.Claims.BarrierWaitRule ∧ Sys2Proof.Claims.BarrierSyncRule ∧ Sys2Proof.Claims.BarrierChecksRule

/-- R189: BAR.QRY writes the barrier's word and changes no barrier. -/
def Sys2Proof.Claims.BarrierQueryRule : Prop :=
  ∀ e s sp b, Legal { rd := .reg 1 1, ra := .imm, rb := .imm, xp := .zero } (decide (immRj e < 16)) e s → curSpan s = some sp →
    sp.barriers[immRj e]? = some b → ∃ t, exec (.barQry e) s = .next t ∧
      Result e (rdLocB e) 1 (fun g _ => ((queryWord b (g.arr.getLsbD (immRj e))).toNat, noFlags)) s t

/-- R184, R189: initialising and querying a barrier. -/
def Obligations.BarrierStates : Prop := Sys2Proof.Claims.BarrierInitRule ∧ Sys2Proof.Claims.BarrierQueryRule

/-- R188: the underrun test of a running span: where every live group has arrived or waits, one waits, and the arrivals missing are more
than those pending, the lowest waiting group takes 0:14, no barrier changes, a token that a wait took is its group's again, and a BAR.WAIT
leaves its wait so that it is executed again; else nothing changes.
Where the spec leaves a point open the model's choice is that of log 71. -/
def Obligations.Underrun : Prop :=
  ∀ s sid k sp b, k < 16 → findSpan s sid = some sp → sp.killed = none → sp.trap = none → sp.handler = none → sp.barriers[k]? = some b →
    let waits (g : Group) : Prop := ∃ w ∈ g.waits, waitsFor k w.wait ∧ w.woken = false
    let under := (∃ g ∈ sp.groups, waits g) ∧
      (∀ g ∈ sp.groups, (∀ sl ∈ g.slices, sl.live = 0) ∨ g.arr.getLsbD k = true ∨ waits g) ∧ b.a + b.pend < b.n
    (¬ under → underrunTest sid k s = s) ∧
    (under → ∀ la, findLaunch s sp.launch = some la → handlerVa la ≠ 0 → (∀ (n : Nat) g, sp.groups[n]? = some g → g.num = n) →
      ∃ sp', ∃ n : Nat, findSpan (underrunTest sid k s) sid = some sp' ∧ sp'.barriers = sp.barriers ∧
        (∃ g, sp.groups[n]? = some g ∧ waits g) ∧ (∀ (m : Nat) g, m < n → sp.groups[m]? = some g → ¬ waits g) ∧
        (∃ g' : Group, sp'.groups[n]? = some g' ∧ g'.tcause = causeOf 0 14) ∧
        ∀ (m : Nat) g g', sp.groups[m]? = some g → waits g → sp'.groups[m]? = some g' →
          (¬ ∃ w ∈ g'.waits ++ g'.savedWaits, ∃ p token, w.wait = .barrier k p false token) ∧
          ((∃ w ∈ g.waits, ∃ p sync, w.wait = .barrier k p sync true) → g'.tv.getLsbD k = true))

namespace Sys2Proof.Claims

/-! ### Waits (R190 to R195) -/

/-- WAITC's threshold of a class, the classes in the order ld, st, cp, mx, dc, im: 7 does not wait (R190). -/
def waitField (e : Enc) (i : Nat) : Nat := (((e.rb ++ e.ra ++ e.rd : BitVec 18) >>> (3 * i)).setWidth 3).toNat
def classAt (i : Nat) : OpClass :=
  match i with
  | 0 => .ld
  | 1 => .st
  | 2 => .cp
  | 3 => .mx
  | 4 => .dc
  | _ => .im

/-- Each class of WAITC is at most its threshold. -/
def waitcMet (e : Enc) (g : Group) : Prop := ∀ i, i < 6 → waitField e i = 7 ∨ counter g (classAt i) ≤ waitField e i

/-- A wait of the gang on counters, or none. -/
def noWait (s : State) : Prop := curWait s = none

/-- The gang waits where it stands; it counts as parked only where it did, or where its span is marked (R261). -/
def Blocks (w : Wait) (s t : State) : Prop :=
  ∃ parked, GroupBecomes (fun g => { g with waits := otherWaits s ++ [⟨issuerSlice s, w, false, parked⟩] }) s t ∧
    (curWait s = none → (∀ sp, curSpan s = some sp → sp.marked = false) → parked = false)

/-- The gang waits no longer and goes on. -/
def EndsWait (len : Nat) (s t : State) : Prop := GroupGoesOn len (fun g => { g with waits := otherWaits s }) s t

/-- A legal FENCE immediate (R193): kind 1 to 3, scope 0 to 4, rp only with acq or ar at dev. -/
def fenceImm (i : Nat) : Bool :=
  decide (i < 64) && decide (i % 4 ≠ 0) && decide (i / 4 % 8 ≤ 4) && (decide (i < 32) || (decide (i % 4 ≠ 2) && decide (i / 4 % 8 = 3)))

end Sys2Proof.Claims

/-- R190, R191, R192: WAITC, WAITR and YIELD go on where their condition holds and block otherwise; they change nothing else. -/
def Sys2Proof.Claims.CounterWaitsRule : Prop :=
  (∀ e s, Legal { rd := .imm, ra := .imm, rb := .imm, xp := .zero, u := .zero, guard := .zero } true e s → noWait s →
    (waitcMet e (curGroup s) → ∃ t, exec (.waitc e) s = .next t ∧ GoesOn (wordLen e) s t) ∧
    (¬ waitcMet e (curGroup s) → ∃ t ts, exec (.waitc e) s = .next t ∧ Blocks (.counters ts) s t ∧
      ∀ c n, (c, n) ∈ ts ↔ ∃ i, i < 6 ∧ c = classAt i ∧ n = waitField e i ∧ n ≠ 7)) ∧
  (∀ e s ts, Legal { rd := .imm, ra := .imm, rb := .imm, xp := .zero, u := .zero, guard := .zero } true e s →
    (∃ w, curWait s = some w ∧ w.wait = .counters ts) →
    ((∀ p ∈ ts, counter (curGroup s) p.1 ≤ p.2) → ∃ t, exec (.waitc e) s = .next t ∧ EndsWait (wordLen e) s t) ∧
    (¬ (∀ p ∈ ts, counter (curGroup s) p.1 ≤ p.2) → ∃ t, exec (.waitc e) s = .next t ∧ Blocks (.counters ts) s t)) ∧
  (∀ e s, Legal { rd := .unused, ra := .groupReg 1 1, rb := .imm, xp := .layoutB, u := .one } (decide (immRri e < 6)) e s → noWait s →
    let n := (readG (curGroup s) e.ra.toNat).toNat
    (qGuard e s = false ∨ counter (curGroup s) (classAt (immRri e)) ≤ n → ∃ t, exec (.waitr e) s = .next t ∧ GoesOn (wordLen e) s t) ∧
    (qGuard e s = true → n < counter (curGroup s) (classAt (immRri e)) → ∃ t, exec (.waitr e) s = .next t ∧
      Blocks (.counters [(classAt (immRri e), n)]) s t)) ∧
  ∀ e s sp, Legal { bareForm with u := .both } true e s → curSpan s = some sp →
    (inHandler s = true → exec (.yield e) s = .next (faultWith 0 2 (gangLanes s) s)) ∧
    (inHandler s = false → sp.marked = true → ∃ t, exec (.yield e) s = .next t ∧ Blocks .yield s t) ∧
    (inHandler s = false → sp.marked = false → ∃ t, exec (.yield e) s = .next t ∧ EndsWait (wordLen e) s t)

/-- R193, R195: FENCE goes on (accesses are performed in one order here, log 1); QFENCE goes on where none of the operations it covers is
in its queue, and waits otherwise for those. -/
def Sys2Proof.Claims.FencesRule : Prop :=
  (∀ e s, Legal { barForm with u := .both } (fenceImm (immRj e)) e s → ∃ t, exec (.fence e) s = .next t ∧ GoesOn (wordLen e) s t) ∧
  ∀ e s sp la, Legal { barForm with u := .both } (decide (immRj e < 256)) e s → curSpan s = some sp → curLaunch s = some la → noWait s →
    (immRj e).testBit 7 = false →
    let covers (o : Nat × Nat × Nat) : Prop := ∃ b, b < 7 ∧ (immRj e).testBit b = true ∧ o ∈ queueOps s (curSid s) sp b
    ((∀ o, ¬ covers o) → ∃ t, exec (.qfence e) s = .next t ∧ GoesOn (wordLen e) s t) ∧
    ((∃ o, covers o) → ∃ t ops, exec (.qfence e) s = .next t ∧ Blocks (.queues ops [] none) s t ∧ ∀ o, o ∈ ops ↔ covers o)

/-- R190 to R195: waits on counters, YIELD and the fences.
Where the spec leaves a point open the model's choice is that of log 72. -/
def Obligations.WaitsAndFences : Prop := Sys2Proof.Claims.CounterWaitsRule ∧ Sys2Proof.Claims.FencesRule

namespace Sys2Proof.Claims

/-! ### Traps (R196, R197, R217 to R223) -/

/-- A sibling that a halt finds stopped: each slice without lanes, at REGANG, at a wait or parked (R218). -/
def standsStill (g : Group) : Prop :=
  ∀ k, k < 8 → ∀ sl, g.slices[k]? = some sl →
    sl.live = 0 ∨ sl.atRegang = true ∨ (∃ w ∈ g.waits, (w.slice = none ∨ w.slice = some k) ∧ w.woken = false) ∨
      ∃ p ∈ g.parked, (p.slice = none ∨ p.slice = some k) ∧ p.retry = false ∧ p.cancel = false

/-- TRAP's and BKPT's lanes, and whether it traps (R196). -/
def trapsNow (e : Enc) (s : State) : Prop := if e.u then qGuard e s = true else actLanes e s ≠ 0

end Sys2Proof.Claims

/-- R196, R218: TRAP and BKPT trap with their lanes at the address after them; with no lane they go on. -/
def Obligations.SoftwareTraps : Prop :=
  ∀ e s, Legal { rd := .unused, ra := .imm, rb := .imm, xp := .zero } true e s →
    (¬ trapsNow e s → (∃ t, exec (.trap e) s = .next t ∧ GoesOn (wordLen e) s t) ∧ ∃ t, exec (.bkpt e) s = .next t ∧ GoesOn (wordLen e) s t) ∧
    (trapsNow e s → inSkid s = false → ∃ t, GoesOn (wordLen e) s t ∧
      exec (.trap e) s = .next (faultWith 0 28 (actLanes e s) t) ∧ exec (.bkpt e) s = .next (faultWith 0 27 (actLanes e s) t))

/-- R217, R218, R220: what taking a trap leaves. The cause, the lanes and each slice's resume pc are recorded; a sibling that stands still
stops; the handler is entered where every sibling stands, with every live slice in one gang at its address, else the span halts; no
register, counter, barrier or byte changes. -/
def Sys2Proof.Claims.TrapTakenRule : Prop :=
  ∀ s sid n slice src reason lanes sp la g, s.issuer = .gang sid n slice → findSpan s sid = some sp → findLaunch s sp.launch = some la →
    sp.killed = none → sp.handler = none → sp.trap = none → handlerVa la ≠ 0 → sp.groups[n]? = some g →
    let t := faultWith src reason lanes s
    let all := ∀ (m : Nat) h, m ≠ n → sp.groups[m]? = some h → (∀ sl ∈ h.slices, sl.live = 0) ∨ h.halted = true ∨ standsStill h
    OnlySpan sid s t ∧ ∃ sp', findSpan t sid = some sp' ∧
      sp' = { sp with groups := sp'.groups, trap := sp'.trap, handler := sp'.handler } ∧
      (all → sp'.trap = none ∧ sp'.handler = some n) ∧ (¬ all → sp'.trap = some (n, causeOf src reason, lanes) ∧ sp'.handler = none) ∧
      EachGroup sp sp' (fun m (h h' : Group) => SameRegisters h h' ∧ h'.ops = h.ops ∧ h'.arr = h.arr ∧ h'.tok = h.tok ∧ h'.tv = h.tv ∧
        (m ≠ n → standsStill h → h'.halted = true ∧ ∀ k, k < 8 → h'.slices[k]? = (h.slices[k]?).map fun sl => { sl with tpc := sl.pc }) ∧
        (m ≠ n → ¬ standsStill h → h'.skid = some 0 ∧ h'.slices = h.slices)) ∧
      ∃ g' : Group, sp'.groups[n]? = some g' ∧ g'.tcause = causeOf src reason ∧ g'.tlanes = lanes ∧ g'.tskid = 0 ∧
        ∀ k, k < 8 → ∀ sl, g.slices[k]? = some sl → ∃ sl', g'.slices[k]? = some sl' ∧ sl'.tpc = sl.pc ∧ sl'.live = sl.live ∧
          sl'.stack = sl.stack ∧ sl'.spilled = sl.spilled ∧
          (all → sl.live ≠ 0 → sl'.pc = BitVec.ofNat 57 (handlerVa la) ∧ sl'.act = sl.live ∧ sl'.part = none ∧ sl'.savedAct = sl.act ∧
            sl'.savedPart = sl.part) ∧
          (¬ all → sl'.pc = sl.pc ∧ sl'.act = sl.act)

/-- R220, R221: a trap without a handler address, or in the handling group, kills the span with the cause. -/
def Sys2Proof.Claims.TrapKillsRule : Prop :=
  ∀ s sid n slice src reason lanes sp, s.issuer = .gang sid n slice → findSpan s sid = some sp → sp.killed = none →
    (sp.handler ≠ none ∨ (sp.trap = none ∧ ∃ la, findLaunch s sp.launch = some la ∧ handlerVa la = 0)) →
    ∃ sp', findSpan (faultWith src reason lanes s) sid = some sp' ∧ sp'.killed = some (causeOf src reason) ∧ sp'.handler = none ∧
      sp'.trap = none ∧ ∀ g : Group, sp'.groups[n]? = some g → g.tcause = causeOf src reason

/-- R217, R218, R220, R221: taking a trap, and when it kills the span.
Where the spec leaves a point open the model's choice is that of log 51. -/
def Obligations.TrapEntry : Prop := Sys2Proof.Claims.TrapTakenRule ∧ Sys2Proof.Claims.TrapKillsRule

/-- R197, R223: RTE is barred outside a handler (0:2), on another stack depth than at entry (0:11) and with an odd recorded pc (0:4); else,
where no barrier is waited for, no cause is held and every group has a slice that does not wait at REGANG, every slice of the handling group
resumes at its recorded pc with the lanes and gang state it had (it waits at REGANG still where the handler has left its recorded pc), and no
group is halted.
Where the spec leaves a point open the model's choice is that of log 52. -/
def Obligations.TrapReturn : Prop :=
  ∀ e s sp, Legal bareForm true e s → curSpan s = some sp →
    let live (k : Nat) (sl : Slice) : Prop := (curGroup s).slices[k]? = some sl ∧ sl.live ≠ 0
    (sp.handler ≠ some (curNum s) → exec (.rte e) s = .next (faultWith 0 2 (gangLanes s) s)) ∧
    (sp.handler = some (curNum s) → (∃ k sl, live k sl ∧ stackDepth sl ≠ sl.entryDepth) →
      exec (.rte e) s = .next (faultWith 0 11 (gangLanes s) s)) ∧
    (sp.handler = some (curNum s) → (∀ k sl, live k sl → stackDepth sl = sl.entryDepth) → (∃ k sl, live k sl ∧ sl.tpc.getLsbD 0 = true) →
      exec (.rte e) s = .next (faultWith 0 4 (gangLanes s) s)) ∧
    (sp.handler = some (curNum s) → (∀ k sl, live k sl → stackDepth sl = sl.entryDepth ∧ sl.tpc.getLsbD 0 = false) → sp.held = [] →
      (∀ g ∈ sp.groups, ∀ w ∈ g.waits ++ g.savedWaits, ∀ k, ¬ waitsFor k w.wait) →
      (∀ (n : Nat) g, sp.groups[n]? = some g → (∀ sl ∈ g.slices, sl.live = 0) ∨ ∃ k sl, k < 8 ∧ g.slices[k]? = some sl ∧ sl.live ≠ 0 ∧
        (if n = curNum s then sl.savedRegang = false ∨ sl.tpc ≠ sl.savedPc else sl.atRegang = false)) →
      ∃ t sp', exec (.rte e) s = .next t ∧ OnlySpan (curSid s) s t ∧ findSpan t (curSid s) = some sp' ∧ sp'.handler = none ∧
        EachGroup sp sp' fun n (g g' : Group) => SameRegisters g g' ∧ g'.halted = false ∧ g'.skid = none ∧
          (n ≠ curNum s ∨ g.savedParked = [] → g'.ops = g.ops) ∧
          (n ≠ curNum s → g'.slices = g.slices ∧ g'.parked = g.parked ∧ (sp.marked = false → g'.waits = g.waits)) ∧
          (n = curNum s → ∀ k, k < 8 → g'.slices[k]? = (g.slices[k]?).map fun sl =>
            if sl.live = 0 then sl
            else { sl with pc := sl.tpc, act := sl.savedAct &&& sl.live, part := sl.savedPart,
                           atRegang := sl.savedRegang && sl.tpc == sl.savedPc }))

namespace Sys2Proof.Claims

/-! ### Memory access (R198 to R213) -/

/-- The byte numbers a run reaches, where all of it lies in the device's memory. -/
def memKeys : List Part → Option (List Nat)
  | [] => some []
  | p :: rest =>
    match p.at_, memKeys rest with
    | .mem key, some l => some ((List.range p.len).map (key + ·) ++ l)
    | _, _ => none

/-- The global address of a lane (R201): modulo 2^64. -/
def addressOf (e : Enc) (size : Nat) (g : Group) (lane : Nat) : Nat :=
  (pair g lane (raLoc e) + BitVec.ofInt 64 (immMem e * size)).toNat

/-- The accesses of an instruction: its lanes, or one for the group under U = 1 where its q guard is true. -/
def accessesOf (e : Enc) (s : State) : List Nat := accessLanes e.u (actLanes e s)

/-- Every access of `size` bytes, at the addresses scaled by `scale`, reaches memory at the bytes `k` names. -/
def Reaches (e : Enc) (need : Need) (size scale : Nat) (s : State) (k : Nat → List Nat) : Prop :=
  ∀ l ∈ accessesOf e s, memKeys (curRun s need (addressOf e scale (curGroup s) l) size) = some (k l)

/-- No byte of them is uncorrectable (R204). -/
def Correctable (s : State) (keys : List Nat) : Prop := ∀ k ∈ keys, cellGet 0 s.poison (k / 8) = 0

/-- The first issue of a counted instruction whose counter has room (R13, R65). -/
def FirstIssue (cls : OpClass) (e : Enc) (s : State) : Prop :=
  myParked s = [] ∧ counter (curGroup s) cls ≠ 63 ∧ ¬ held e s

/-- One counted operation is in flight at the end of the group's list, the others stand, and the gang has gone on (R12). -/
def Counted (len : Nat) (cls : OpClass) (kind : OpKind) (lanes : LaneMask) (writes : List OpWrite) (flags : Flags) (s t : State) : Prop :=
  Advanced len s t ∧
  curGroup t = { curGroup s with ops := (curGroup t).ops, opCount := (curGroup s).opCount + 1, slices := (curGroup t).slices } ∧
  (∀ (i : Nat) o, (curGroup s).ops[i]? = some o → o.id ≠ (curGroup s).opCount → (curGroup t).ops[i]? = some o) ∧
  (curGroup t).ops.length = (curGroup s).ops.length + 1 ∧
  (curGroup t).ops.getLast? = some ⟨(curGroup s).opCount, cls, kind, lanes, writes, flags, none, none, true, false, [], false⟩

/-- The registers a result of a load stands for once its granules are read (R13, R90); any other result stands for itself. -/
def storedWrites : OpWrite → List OpWrite
  | .load grp r l count signed size ps =>
    regWrites (if grp then .grp r else .lane r) l 0 (loadWords signed size count (bytesToNat (pieceBytes ps)))
  | w => [w]

/-- What a result will write if the granules it still reads are read in state `t` (R90). -/
def settled (t : State) (w : OpWrite) : List OpWrite := storedWrites (readLate t w)

/-- Granules still to be written are written, in order (R90). -/
def performed (ls : List Late) (t : State) : State := ls.foldl (fun acc w => performLate w acc) t

/-- Every access lies in one granule (R90). -/
def Narrow (size : Nat) (addrs : List Nat) : Prop := ∀ a ∈ addrs, a % 8 + size ≤ 8

/-- No atomic's granule of some bytes' lines of 64 bytes is still to be written. -/
def NoAtomicLate (s : State) (sp : Space) (keys : List Nat) : Prop :=
  ∀ w ∈ s.late, w.point ≠ none → w.space = sp → ∀ k ∈ keys, w.key / 64 ≠ k / 64

/-- After an access at the issuing pier of some bytes, of what was still to be written no atomic's granule of these bytes' lines is left whose
scope has one point for the atomic's pier and the issuer's (R83, R85). -/
def AtomicsFirst (sp : Space) (keys : List Nat) (s t : State) : Prop :=
  ∀ w ∈ s.late, w ∈ t.late → w.space = sp → (∃ k ∈ keys, w.key / 64 = k / 64) → ∀ scope o span, w.point = some scope → w.owner = some o →
    findSpan s o.1 = some span → onePoint scope (spanPier span) (some (curPier s)) = false

/-- The granules an operation has still to write at its issue stand last, in its name (R90). -/
def Leaves (sp : Space) (ls : List Late) (s t : State) : Prop :=
  t.late = s.late ++ ls ∧ ∀ w ∈ ls, w.owner = some (curSid s, curNum s, (curGroup s).opCount) ∧ w.space = sp

/-- A byte holds what all of an operation's stores leave, or, while its granule is not written, what it held before (R90). -/
def InTurn (final : Nat → Byte) (before after done : Memory) : Prop :=
  ∀ a, readByte done a = final a ∧ (readByte after a = final a ∨ readByte after a = readByte before a)

/-- The value of some bytes. -/
def valueAt (m : Nat → Byte) (keys : List Nat) : Nat := bytesToNat (keys.map m)

/-- The loads: size, registers, and the words of a value (R205). -/
def byteWord (x : Nat) : List Word := [BitVec.ofNat 32 x]
noncomputable def loadRows : List ((Enc → Instr) × (Nat × Nat) × (Nat → List Word)) :=
  [(.ldZ8, (1, 1), byteWord), (.ldS8, (1, 1), fun x => [(BitVec.ofNat 8 x).signExtend 32]),
   (.ldZ16, (2, 1), byteWord), (.ldS16, (2, 1), fun x => [(BitVec.ofNat 16 x).signExtend 32]),
   (.ldB32, (4, 1), byteWord), (.ldB64, (8, 2), wordsOf 2), (.ldB128, (16, 4), wordsOf 4)]

/-- The gathers (R206). -/
noncomputable def gatherRows : List ((Enc → Instr) × (Nat × Nat) × (Nat → List Word)) :=
  [(.gldZ8, (1, 1), byteWord), (.gldB16, (2, 1), byteWord), (.gldB32, (4, 1), byteWord), (.gldB64, (8, 2), wordsOf 2)]

/-- The stores (R205): size and registers. -/
noncomputable def storeRows : List ((Enc → Instr) × (Nat × Nat)) :=
  [(.stB8, (1, 1)), (.stB16, (2, 1)), (.stB32, (4, 1)), (.stB64, (8, 2)), (.stB128, (16, 4))]

/-- The deck loads and stores (R205), by registers. -/
noncomputable def deckLoadRows : List ((Enc → Instr) × Nat) := [(.lddB32, 1), (.lddB64, 2), (.lddB128, 4)]
noncomputable def deckStoreRows : List ((Enc → Instr) × Nat) := [(.stdB32, 1), (.stdB64, 2), (.stdB128, 4)]

/-- Forms of global and deck words (R200). -/
def globalForm (n : Nat) (orders : List Nat) : Form := { rd := .reg n n, ra := .reg 2 2, rb := .imm, mem := some ⟨orders, false, true⟩ }
def gatherForm (n : Nat) : Form := { rd := .reg n n, ra := .reg 2 2, rb := .imm, mem := some ⟨[0], false, false⟩, u := .zero }
def deckForm (n : Nat) (orders : List Nat) : Form := { rd := .reg n n, ra := .reg 1 1, rb := .imm, mem := some ⟨orders, false, false⟩ }

/-- The register results of accesses: each one's words from rd on. -/
def resultsOf (rd : Loc) (l : List Nat) (words : Nat → List Word) : List OpWrite := l.flatMap fun lane => regWrites rd lane 0 (words lane)

/-- What byte `a` holds after some bytes are stored one after another over `m`: the last one stored there (R91, R205). -/
def storedOver (stores : List (Nat × Byte)) (m : Nat → Byte) (a : Nat) : Byte := ((stores.reverse.find? fun p => p.1 == a).map (·.2)).getD (m a)

/-- The bytes an instruction stores: its accesses in ascending order, each little-endian (R205). -/
def storesOf (l : List Nat) (k : Nat → List Nat) (size : Nat) (data : Nat → Nat) : List (Nat × Byte) :=
  l.flatMap fun lane => (k lane).zip (natToBytes size (data lane))

/-- The deck offset of a lane: an exact integer (R201). -/
def deckOffset (e : Enc) (size : Nat) (g : Group) (lane : Nat) : Int := (readLoc g lane (raLoc e)).toNat + immMem e * size

/-- Every access lies in the span's deck, aligned to its size (R201, R202). -/
def OnDeck (e : Enc) (size : Nat) (sp : Span) (s : State) : Prop :=
  ∀ l ∈ accessesOf e s, let off := deckOffset e size (curGroup s) l
    0 ≤ off ∧ off + size ≤ 4096 * sp.deckUnits.length ∧ off % size = 0

/-- The byte numbers of a deck access, and that none of its words is uncorrectable (R199). -/
def deckKeys (e : Enc) (size : Nat) (sp : Span) (g : Group) (l : Nat) : List Nat :=
  (List.range size).map fun i => deckByteKey sp ((deckOffset e size g l).toNat + i)
def DeckCorrectable (e : Enc) (size : Nat) (sp : Span) (s : State) : Prop :=
  ∀ l ∈ accessesOf e s, ∀ k ∈ deckKeys e size sp (curGroup s) l, cellGet 0 s.deckPoison (k / 8) = 0

/-- Bytes over a memory of bytes. -/
def overlay (keys : List Nat) (bs : List Byte) (m : Nat → Byte) (a : Nat) : Byte :=
  (((keys.zip bs).find? fun p => p.1 == a).map (·.2)).getD (m a)

/-- Read-modify-writes one after another: the bytes left, the results (`n` words of the old value), the flags (R208). `w` bytes are
written. -/
def modifyEach (w n : Nat) (rd : Loc) (k : Nat → List Nat) (f : Nat → Nat → Nat × Flags) :
    List Nat → (Nat → Byte) → (Nat → Byte) × List OpWrite × Flags
  | [], m => (m, [], 0)
  | lane :: rest, m =>
    let old := valueAt m (k lane)
    let r := f lane old
    let q := modifyEach w n rd k f rest (overlay (k lane) (natToBytes w r.1) m)
    (q.1, regWrites rd lane 0 (wordsOf n old) ++ q.2.1, r.2 ||| q.2.2)

/-- A row of R208's table: data registers and their alignment, bytes accessed and written, result registers, and the new value. -/
structure AtomRow where
  instr : Enc → Instr
  regs : Nat
  align : Nat
  size : Nat
  stored : Nat
  results : Nat
  new : Enc → Group → Nat → Nat → Nat × Flags

/-- A 32-bit operation on the old word and the operand. -/
def wordOp (f : Word → Word → Word) (e : Enc) (g : Group) (lane m : Nat) : Nat × Flags :=
  ((f (BitVec.ofNat 32 m) (readLoc g lane (rdLoc e))).toNat, noFlags)

/-- R208's table with R210's exact add. -/
noncomputable def atomRows : List AtomRow :=
  [⟨.atomAddS32, 1, 1, 4, 4, 1, wordOp fun m x => m + x⟩,
   ⟨.atomMinS32, 1, 1, 4, 4, 1, wordOp fun m x => if m.toInt ≤ x.toInt then m else x⟩,
   ⟨.atomMaxS32, 1, 1, 4, 4, 1, wordOp fun m x => if m.toInt ≤ x.toInt then x else m⟩,
   ⟨.atomAndB32, 1, 1, 4, 4, 1, wordOp fun m x => m &&& x⟩,
   ⟨.atomOrB32, 1, 1, 4, 4, 1, wordOp fun m x => m ||| x⟩,
   ⟨.atomXorB32, 1, 1, 4, 4, 1, wordOp fun m x => m ^^^ x⟩,
   ⟨.atomXchgB32, 1, 1, 4, 4, 1, wordOp fun _ x => x⟩,
   ⟨.atomCasB32, 2, 2, 4, 4, 1, fun e g l m =>
     (if m = (readLoc g l (rdLoc e)).toNat then (readLoc g l (locAdd 1 (rdLoc e))).toNat else m, noFlags)⟩,
   ⟨.atomCasB64, 4, 4, 8, 8, 2, fun e g l m =>
     (if m = (pair g l (rdLoc e)).toNat then (pair g l (locAdd 2 (rdLoc e))).toNat else m, noFlags)⟩,
   ⟨.atomAddF32, 1, 1, 4, 4, 1, fun e g l m => floatAdd fp32 .rne m (readLoc g l (rdLoc e)).toNat⟩,
   ⟨.atomXadd, 10, 2, 64, 40, 0, fun e g l m =>
     (natOfExact (exactAdd (exactOfNat m) (exactOfNat (num g l 10 (rdLoc e)))) % 2 ^ 312, noFlags)⟩]

/-- The form of an ATOM: the address is a pair, or one register with .deck (R200). -/
def atomForm (n align : Nat) (e : Enc) : Form :=
  { rd := .reg n align, ra := if memDeck e then .reg 1 1 else .reg 2 2, rb := .imm, u := .zero, mem := some ⟨[0, 1, 2, 3], true, false⟩ }

/-- What a global access changes beside its group: translations noted, what it stores or has still to store, and its release record. -/
def OnlyMemory (s t : State) : Prop :=
  t = { (modCur s fun _ => curGroup t) with
    vm := t.vm, mem := t.mem, poison := t.poison, releases := t.releases, late := t.late, fresh := t.fresh }

/-- What a deck access changes beside its group. -/
def OnlyDeck (s t : State) : Prop :=
  t = { (modCur s fun _ => curGroup t) with deck := t.deck, deckPoison := t.deckPoison, late := t.late, fresh := t.fresh }

/-- A deck instruction of `size` bytes faults 2:5 where a lane lies outside the span's deck, else 2:4 where one is off alignment (R201, R202). -/
def DeckFaults (i : Instr) (f : Form) (cls : OpClass) (size : Nat) (e : Enc) : Prop :=
  ∀ s sp, Legal f true e s → curSpan s = some sp → FirstIssue cls e s →
    let off := deckOffset e size (curGroup s)
    ((∃ l ∈ accessesOf e s, off l < 0 ∨ 4096 * (sp.deckUnits.length : Int) < off l + size) →
      exec i s = .next (faultWith 2 5 (actLanes e s) s)) ∧
    ((∀ l ∈ accessesOf e s, 0 ≤ off l ∧ off l + size ≤ 4096 * (sp.deckUnits.length : Int)) →
      (∃ l ∈ accessesOf e s, off l % size ≠ 0) → exec i s = .next (faultWith 2 4 (actLanes e s) s))

/-- The global loads, stores and atomics: form, class, kind of access and bytes. -/
structure GlobalRow where
  instr : Enc → Instr
  form : Enc → Form
  cls : OpClass
  need : Need
  size : Nat
  natural : Bool
noncomputable def globalRows : List GlobalRow :=
  (loadRows.map fun p => ⟨p.1, fun _ => globalForm p.2.1.2 [0, 1], .ld, .load, p.2.1.1, false⟩) ++
  (storeRows.map fun p => ⟨p.1, fun _ => globalForm p.2.2 [0, 2], .st, .store, p.2.1, false⟩) ++
  ⟨.atomBump, atomForm 2 2, .ld, .atomic, 8, true⟩ ::
  atomRows.map fun p => ⟨p.instr, atomForm p.regs p.align, .ld, .atomic, p.size, true⟩

/-- A row's global form issues first: a gang's group, a legal word that does not name the deck, room in the counter, and aligned addresses where
the row wants them (R200 to R203). -/
def GlobalIssues (p : GlobalRow) (e : Enc) (s : State) : Prop :=
  Legal (p.form e) true e s ∧ GangIssues s (curSid s) (curNum s) (issuerSlice s) ∧ FirstIssue p.cls e s ∧
    (p.natural = true → memDeck e = false ∧ ∀ l ∈ accessesOf e s, addressOf e p.size (curGroup s) l % p.size = 0)

/-- The bytes of the host ring that fault records are written to (R276). -/
def InFaultRing (s : State) (a : Nat) : Prop :=
  hostKey (ringBase s.vm.faultq) ≤ a ∧ a < hostKey (ringBase s.vm.faultq) + 32 * ringSize s.vm.faultq

/-- ATOM.bump on some cells in turn (R209): `failed` are the cells of which a lane has failed. -/
def bumpEach (rd : Loc) (k : Nat → List Nat) (x : Nat → Nat) :
    List Nat → List Nat → (Nat → Byte) → (Nat → Byte) × List OpWrite
  | [], _, m => (m, [])
  | lane :: rest, failed, m =>
    let cell := valueAt m (k lane)
    let at_ := ((k lane).head?).getD 0
    let ok := !failed.contains at_ && decide (cell % 2 ^ 32 + x lane ≤ cell / 2 ^ 32)
    let q := bumpEach rd k x rest (if ok then failed else at_ :: failed)
      (if ok then overlay (k lane) (natToBytes 8 (cell + x lane)) m else m)
    (q.1, regWrite rd lane 0 (if ok then BitVec.ofNat 32 cell else 0xFFFFFFFF) :: q.2)

end Sys2Proof.Claims

/-- R90, R201, R204 to R206: loads and gathers from memory: one counted operation holds each lane's value, read at the addresses of R201, or
will read some granules of it where it has several; a misaligned gather faults 3:4; nothing is written. -/
def Sys2Proof.Claims.LoadsIssueRule : Prop :=
  (∀ p ∈ loadRows, ∀ e s k, GangIssues s (curSid s) (curNum s) (issuerSlice s) →
    Legal { globalForm p.2.1.2 [0, 1] with prologue := true } true e s → FirstIssue .ld e s →
    Reaches e .load p.2.1.1 p.2.1.1 s k → (∀ l ∈ accessesOf e s, Correctable s (k l)) → ∃ t ws, exec (p.1 e) s = .next t ∧
      Counted (wordLen e) .ld .lsu (actLanes e s) ws 0 s t ∧
      ws.flatMap (settled t) = resultsOf (rdLoc e) (accessesOf e s) (fun l => p.2.2 (valueAt (readByte s.mem) (k l))) ∧
      (Narrow p.2.1.1 ((accessesOf e s).map (addressOf e p.2.1.1 (curGroup s))) → ws.flatMap storedWrites = ws ∧ t.fresh = s.fresh) ∧
      SameBytes s t ∧ t = { (modCur s fun _ => curGroup t) with vm := t.vm, fresh := t.fresh }) ∧
  ∀ p ∈ gatherRows, ∀ e s, Legal (gatherForm p.2.1.2) true e s → FirstIssue .ld e s →
    (∀ k, (∀ l ∈ accessesOf e s, addressOf e p.2.1.1 (curGroup s) l % p.2.1.1 = 0) → Reaches e .load p.2.1.1 p.2.1.1 s k →
      (∀ l ∈ accessesOf e s, Correctable s (k l)) → ∃ t, exec (p.1 e) s = .next t ∧
      Counted (wordLen e) .ld .gather (actLanes e s)
        (resultsOf (rdLoc e) (accessesOf e s) fun l => p.2.2 (valueAt (readByte s.mem) (k l))) 0 s t ∧
      SameBytes s t ∧ t = { (modCur s fun _ => curGroup t) with vm := t.vm }) ∧
    ((∃ l ∈ accessesOf e s, addressOf e p.2.1.1 (curGroup s) l % p.2.1.1 ≠ 0) → exec (p.1 e) s = .next (faultWith 3 4 (actLanes e s) s))

/-- R85, R90, R91, R201, R205: stores: each byte stored takes the highest lane's value, at once or later (R88); every other byte of memory, and
every other memory, reads as before, and the operation is counted. Atomics that share their point with the issuer are performed before a store
on their line; the bytes are stated where no atomic's granule is late there. -/
def Sys2Proof.Claims.StoresIssueRule : Prop :=
  ∀ p ∈ storeRows, ∀ e s k, Legal (globalForm p.2.2 [0, 2]) true e s → FirstIssue .st e s → Reaches e .store p.2.1 p.2.1 s k →
    (∃ t, exec (p.1 e) s = .next t ∧ Counted (wordLen e) .st .lsu (actLanes e s) [] 0 s t ∧ OnlyMemory s t ∧
      ∀ l ∈ accessesOf e s, AtomicsFirst .mem (k l) s t) ∧
    ((∀ l ∈ accessesOf e s, NoAtomicLate s .mem (k l)) → ∃ t ls, exec (p.1 e) s = .next t ∧ Leaves .mem ls s t ∧
      InTurn (storedOver (storesOf (accessesOf e s) k p.2.1 fun l => num (curGroup s) l p.2.2 (rdLoc e)) (readByte s.mem))
        s.mem t.mem (performed ls t).mem)

/-- R12, R13, R200 to R206: global loads and stores issued.
Where the spec leaves a point open the model's choice is that of log 1, 6, 78, 80 and 85. -/
def Obligations.GlobalAccesses : Prop := Sys2Proof.Claims.LoadsIssueRule ∧ Sys2Proof.Claims.StoresIssueRule

/-- R199, R201, R202, R205: deck loads and stores within the span's deck, and the faults 2:5 and 2:4 outside it and off alignment.
Where the spec leaves a point open the model's choice is that of log 1, 64, 80 and 85. -/
def Obligations.DeckAccesses : Prop :=
  (∀ p ∈ deckLoadRows, ∀ e s sp, Legal (deckForm p.2 [0, 1]) true e s → curSpan s = some sp → FirstIssue .ld e s →
    OnDeck e (4 * p.2) sp s → DeckCorrectable e (4 * p.2) sp s → ∃ t ws, exec (p.1 e) s = .next t ∧
      Counted (wordLen e) .ld .lsu (actLanes e s) ws 0 s t ∧
      ws.flatMap (settled t) =
        resultsOf (rdLoc e) (accessesOf e s) (fun l => wordsOf p.2 (valueAt (readByte s.deck) (deckKeys e (4 * p.2) sp (curGroup s) l))) ∧
      (p.2 ≤ 2 → ws.flatMap storedWrites = ws ∧ t.fresh = s.fresh) ∧
      t = { (modCur s fun _ => curGroup t) with fresh := t.fresh } ∧ SameBytes s t) ∧
  (∀ p ∈ deckStoreRows, ∀ e s sp, Legal (deckForm p.2 [0, 2]) true e s → curSpan s = some sp → FirstIssue .st e s →
    OnDeck e (4 * p.2) sp s → DeckCorrectable e (4 * p.2) sp s →
    (∀ l ∈ accessesOf e s, NoAtomicLate s .deck (deckKeys e (4 * p.2) sp (curGroup s) l)) → ∃ t ls, exec (p.1 e) s = .next t ∧
      Counted (wordLen e) .st .lsu (actLanes e s) [] 0 s t ∧ OnlyDeck s t ∧ Leaves .deck ls s t ∧ (p.2 ≤ 2 → ls = []) ∧
      InTurn (storedOver (storesOf (accessesOf e s) (deckKeys e (4 * p.2) sp (curGroup s)) (4 * p.2)
        fun l => num (curGroup s) l p.2 (rdLoc e)) (readByte s.deck)) s.deck t.deck (performed ls t).deck) ∧
  (∀ p ∈ deckLoadRows, ∀ e, DeckFaults (p.1 e) (deckForm p.2 [0, 1]) .ld (4 * p.2) e) ∧
  (∀ p ∈ deckStoreRows, ∀ e, DeckFaults (p.1 e) (deckForm p.2 [0, 2]) .st (4 * p.2) e) ∧
  (∀ p ∈ atomRows, ∀ e, memDeck e = true → DeckFaults (p.instr e) (atomForm p.regs p.align e) .ld p.size e) ∧
  ∀ e, memDeck e = true → DeckFaults (.atomBump e) (atomForm 2 2 e) .ld 8 e

/-- R85, R90, R202, R208, R210: atomics, in memory and on the deck: lanes in ascending order, each reading what the one before it left, where no
earlier atomic's granule is late on their lines. What one leaves may be written later for those who do not share its point: of an ATOM.xadd some
granules, of another in memory at a scope below dev the whole. -/
def Sys2Proof.Claims.AtomicsRule : Prop :=
  ∀ p ∈ atomRows, ∀ e s, Legal (atomForm p.regs p.align e) true e s → FirstIssue .ld e s →
    (memDeck e = false → ∀ k, (∀ l ∈ accessesOf e s, addressOf e p.size (curGroup s) l % p.size = 0) → Reaches e .atomic p.size p.size s k →
      (∀ l ∈ accessesOf e s, Correctable s (k l)) → (∀ l ∈ accessesOf e s, NoAtomicLate s .mem (k l)) →
      let r := modifyEach p.stored p.results (rdLoc e) k (p.new e (curGroup s)) (accessesOf e s) (readByte s.mem)
      ∃ t ls, exec (p.instr e) s = .next t ∧ Counted (wordLen e) .ld .lsu (actLanes e s) r.2.1 r.2.2 s t ∧ OnlyMemory s t ∧
        Leaves .mem ls s t ∧ (p.size ≤ 8 → 3 ≤ memScope e → ls = []) ∧ (∀ a, readByte (performed ls t).mem a = r.1 a)) ∧
    (memDeck e = true → ∀ sp, curSpan s = some sp → OnDeck e p.size sp s → DeckCorrectable e p.size sp s →
      (∀ l ∈ accessesOf e s, NoAtomicLate s .deck (deckKeys e p.size sp (curGroup s) l)) →
      let r := modifyEach p.stored p.results (rdLoc e) (deckKeys e p.size sp (curGroup s)) (p.new e (curGroup s)) (accessesOf e s) (readByte s.deck)
      ∃ t ls, exec (p.instr e) s = .next t ∧ Counted (wordLen e) .ld .lsu (actLanes e s) r.2.1 r.2.2 s t ∧ OnlyDeck s t ∧
        Leaves .deck ls s t ∧ (p.size ≤ 8 → ls = []) ∧ (∀ a, readByte (performed ls t).deck a = r.1 a))

/-- R209: ATOM.bump, in memory and on the deck, takes x from a cell {limit, count} while the sum stays within the limit; the first lane that
fails on a cell makes every later one of the instruction fail there. -/
def Sys2Proof.Claims.BumpsRule : Prop :=
  ∀ e s, Legal (atomForm 2 2 e) true e s → FirstIssue .ld e s →
    let by_ (l : Nat) : Nat := (readLoc (curGroup s) l (rdLoc e)).toNat
    (memDeck e = false → ∀ k, (∀ l ∈ accessesOf e s, addressOf e 8 (curGroup s) l % 8 = 0) → Reaches e .atomic 8 8 s k →
      (∀ l ∈ accessesOf e s, Correctable s (k l)) → (∀ l ∈ accessesOf e s, NoAtomicLate s .mem (k l)) →
      let r := bumpEach (rdLoc e) k by_ (accessesOf e s) [] (readByte s.mem)
      ∃ t ls, exec (.atomBump e) s = .next t ∧ Counted (wordLen e) .ld .lsu (actLanes e s) r.2 0 s t ∧ OnlyMemory s t ∧ Leaves .mem ls s t ∧
        (3 ≤ memScope e → ls = []) ∧ ∀ a, readByte (performed ls t).mem a = r.1 a) ∧
    (memDeck e = true → ∀ sp, curSpan s = some sp → OnDeck e 8 sp s → DeckCorrectable e 8 sp s →
      (∀ l ∈ accessesOf e s, NoAtomicLate s .deck (deckKeys e 8 sp (curGroup s) l)) →
      let r := bumpEach (rdLoc e) (deckKeys e 8 sp (curGroup s)) by_ (accessesOf e s) [] (readByte s.deck)
      ∃ t, exec (.atomBump e) s = .next t ∧ Counted (wordLen e) .ld .lsu (actLanes e s) r.2 0 s t ∧ OnlyDeck s t ∧ t.late = s.late ∧
        ∀ a, readByte t.deck a = r.1 a)

/-- R202, R208 to R210: the atomics and ATOM.bump.
Where the spec leaves a point open the model's choice is that of log 1, 18, 82 and 83. -/
def Obligations.AtomicAccesses : Prop := Sys2Proof.Claims.AtomicsRule ∧ Sys2Proof.Claims.BumpsRule

/-- R202, R203: the first check that some lane fails, in the order of its table, is the fault of a load, store or atomic: an atomic's 3:4 off
alignment; then 3:6 outside the address space, 3:9, 3:7, 3:6 malformed or absent, 3:10; the instruction makes no access. -/
def Sys2Proof.Claims.AccessFaultsRule : Prop :=
  let order : List (Nat × Nat) := [(2, 6), (3, 9), (3, 7), (3, 8), (4, 6), (5, 10)]
  let fails (p : GlobalRow) (e : Enc) (s : State) (sr : Nat × Nat) : Prop := ∃ l ∈ accessesOf e s,
    ∃ q ∈ curRun s p.need (addressOf e p.size (curGroup s) l) p.size, partFault (curReplay s) sr.1 sr.2 q = true
  (∀ p ∈ globalRows, ∀ e s (i : Nat) sr, GlobalIssues p e s → order[i]? = some sr → fails p e s sr →
    (∀ (j : Nat) sr', j < i → order[j]? = some sr' → ¬ fails p e s sr') → exec (p.instr e) s = .next (faultWith 3 sr.2 (actLanes e s) s)) ∧
  ∀ p ∈ globalRows, p.natural = true → ∀ e s, Legal (p.form e) true e s → memDeck e = false → FirstIssue p.cls e s →
    (∃ l ∈ accessesOf e s, addressOf e p.size (curGroup s) l % p.size ≠ 0) → exec (p.instr e) s = .next (faultWith 3 4 (actLanes e s) s)

/-- R203, R204, R276: where every access of a load, store or atomic meets an absent translation in a replayable launch, the lanes park at the
instruction, each at the pages of its access, with one counted operation that is not ready; no byte changes but those of the fault ring. -/
def Sys2Proof.Claims.AccessesParkRule : Prop :=
  ∀ p ∈ globalRows, ∀ e s, GlobalIssues p e s → curReplay s = true → accessesOf e s ≠ [] →
    (∀ l ∈ accessesOf e s, ∀ q ∈ curRun s p.need (addressOf e p.size (curGroup s) l) p.size, q.at_ = .absent) →
    let lanesOf (l : Nat) : LaneMask := if e.u then actLanes e s else (1 : LaneMask) <<< l
    ∃ t, exec (p.instr e) s = .next t ∧ (curGroup t).slices = (curGroup s).slices ∧ SameRegisters (curGroup s) (curGroup t) ∧
      t.late = s.late ∧ (∀ a, readByte t.deck a = readByte s.deck a ∧ readByte t.peer a = readByte s.peer a) ∧
      (∀ a, ¬ InFaultRing s a → readByte t.mem a = readByte s.mem a) ∧
      (∃ o, (curGroup t).ops.getLast? = some o ∧ o.cls = p.cls ∧ o.ready = false ∧ o.writes = []) ∧
      ∃ ps, (curGroup t).parked = (curGroup s).parked ++ ps ∧
        (∀ l ∈ accessesOf e s, ∃ q ∈ ps, q.lanes = lanesOf l) ∧
        ∀ q ∈ ps, q.slice = issuerSlice s ∧ q.cause = causeOf 3 6 ∧ q.retry = false ∧ q.cancel = false ∧
          ∃ l ∈ accessesOf e s, q.lanes = lanesOf l ∧ ∃ r ∈ curRun s p.need (addressOf e p.size (curGroup s) l) p.size,
            q.ctx = (faultPlace s (curCtx s) r.va).1 ∧ q.page = (faultPlace s (curCtx s) r.va).2 / 4096

/-- R202, R203, R204: loads, stores and atomics that fault, and those that park.
Where the spec leaves a point open the model's choice is that of log 41 and 81. -/
def Obligations.AccessChecks : Prop := Sys2Proof.Claims.AccessFaultsRule ∧ Sys2Proof.Claims.AccessesParkRule

/-- R211, R212: the tag table: what is installed is found, in its set; other keys are found as before; a full set offers its least recent
slot and installs nothing; an evicted slot is free again. -/
def Sys2Proof.Claims.TagTableRule : Prop :=
  ∀ (sp : Span) (k j : Nat), k < 2 ^ 48 → j ≤ 8 → sp.tags.length = 4 * 2 ^ j →
    let h := k * 0x5851F42D4C95 % 2 ^ 48 / 2 ^ 40
    let base := 4 * (h / 2 ^ (8 - j))
    let i := tagInstall k sp
    (i.2.toNat < 0x80000000 → (tagLookup k i.1).2 = i.2 ∧ base ≤ i.2.toNat ∧ i.2.toNat < base + 4 ∧
      ∀ k', k' < 2 ^ 48 → k' ≠ k → tagFind i.1 k' = tagFind sp k') ∧
    (0x80000000 ≤ i.2.toNat → i.1 = sp ∧ tagFind sp k = none ∧ ∃ v, i.2.toNat = 0x80000000 + v ∧ base ≤ v ∧ v < base + 4 ∧
      ∀ w, w < 4 → (tagAt sp (base + w)).valid = true ∧ (tagAt sp v).used ≤ (tagAt sp (base + w)).used) ∧
    (∀ k', k' < 2 ^ 48 → k' ≠ k → tagFind (tagEvict k sp).1 k' = tagFind sp k') ∧
    (∀ n, tagFind sp k = some n → (tagEvict k sp).2 = BitVec.ofNat 32 n ∧ (tagAt (tagEvict k sp).1 n).valid = false) ∧
    (tagFind sp k = none → (tagEvict k sp).2 = 0xFFFFFFFF ∧ (tagLookup k sp).2 = 0xFFFFFFFF)

/-- R211, R212, R213: the tag instructions apply their keys in ascending lane order and count one operation; without a partition they fault
2:5; CCTL discards fetched copies or release records, changes no byte, and counts one. -/
def Sys2Proof.Claims.TagsAndCacheControlRule : Prop :=
  (∀ p ∈ [((Instr.tagl : Enc → Instr), tagLookup), (.tagi, tagInstall), (.tage, tagEvict)], ∀ e s sp,
    Legal { rd := .reg 1 1, ra := .reg 2 2, rb := .unused, mem := some ⟨[0], false, false⟩ } true e s → curSpan s = some sp →
    counter (curGroup s) .ld ≠ 63 → ¬ held e s →
    (sp.tags = [] → exec (p.1 e) s = .next (faultWith 2 5 (actLanes e s) s)) ∧
    (sp.tags ≠ [] →
      let r := (accessesOf e s).foldl (fun (acc : Span × List OpWrite) l =>
        let q := p.2 ((pair (curGroup s) l (raLoc e)).toNat % 2 ^ 48) acc.1
        (q.1, acc.2 ++ [regWrite (rdLoc e) l 0 q.2])) (sp, [])
      ∃ t sp', exec (p.1 e) s = .next t ∧ Counted (wordLen e) .ld .lsu (actLanes e s) r.2 0 s t ∧ OnlySpan (curSid s) s t ∧
        findSpan t (curSid s) = some sp' ∧ sp'.tags = r.1.tags ∧
        sp' = { sp with tags := sp'.tags, tagClock := sp'.tagClock, groups := sp'.groups } ∧
        ∀ n, n ≠ curNum s → sp'.groups[n]? = sp.groups[n]?)) ∧
  ∀ e s, Legal { rd := .index 5, ra := .reg 2 2, rb := .imm, mem := some ⟨[0], false, false⟩ } true e s → FirstIssue .st e s →
    (e.rd = 3 → ∃ t, exec (.cctl e) s = .next t ∧ Counted (wordLen e) .st .lsu (actLanes e s) [] 0 s t ∧ OnlyGroup s t ∧ SameBytes s t) ∧
    (e.rd = 4 → ∃ t, exec (.cctl e) s = .next t ∧ Counted (wordLen e) .st .lsu (actLanes e s) [] 0 s t ∧ SameBytes s t ∧
      t = { (modCur s fun _ => curGroup t) with icache := if actLanes e s = 0 then s.icache else [] }) ∧
    (e.rd.toNat < 3 → ∀ k, Reaches e .load 1 64 s k →
      ∃ t, exec (.cctl e) s = .next t ∧ Counted (wordLen e) .st .lsu (actLanes e s) [] 0 s t ∧ SameBytes s t ∧
        t = { (modCur s fun _ => curGroup t) with vm := t.vm, icache := t.icache, releases := t.releases } ∧
        (∀ b, b ∈ t.icache ↔ b ∈ s.icache ∧ ¬ (e.rd = 0 ∧ ∃ l ∈ accessesOf e s, ∃ a ∈ k l, b.2.1 = a / 64 * 64)) ∧
        ∀ r, r ∈ t.releases ↔ r ∈ s.releases ∧
          ¬ (e.rd = 2 ∧ r.1 = curPier s / 64 ∧ ∃ l ∈ accessesOf e s, ∃ a ∈ k l, r.2.1 = a / 128))

/-- R211 to R213: the tag table and cache control.
Where the spec leaves a point open the model's choice is that of log 78 and 84. -/
def Obligations.TagsAndCaches : Prop := Sys2Proof.Claims.TagTableRule ∧ Sys2Proof.Claims.TagsAndCacheControlRule

namespace Sys2Proof.Claims

/-- The last result for a lane register, or for a group register. -/
def lastLane (ws : List OpWrite) (r lane : Nat) : Option Word :=
  ws.reverse.findSome? fun w =>
    match w with
    | .lane r' l' v => if 32 * r' + l' = 32 * r + lane then some v else none
    | _ => none
def lastGroup (ws : List OpWrite) (r : Nat) : Option Word :=
  ws.reverse.findSome? fun w =>
    match w with
    | .group r' v => if r' = r then some v else none
    | _ => none

/-- What the completion of operation `o` leaves of its group (R12, R13, R14, R182): its results in the registers while a lane lives, its
flags merged, its counter lowered where it comes first of its class; behind another of its class it is marked done and no counter changes. -/
structure Completed (o : OpRec) (g g' : Group) : Prop where
  lanes : ∀ r lane, lane < 32 → readV g' r lane = if groupExited g then readV g r lane else (lastLane (o.writes.flatMap storedWrites) r lane).getD (readV g r lane)
  groups : ∀ r, readG g' r = if groupExited g then readG g r else (lastGroup (o.writes.flatMap storedWrites) r).getD (readG g r)
  flags : g'.fsr = g.fsr ||| o.flags
  lowered : (∀ x ∈ g.ops, x.done = false) → (∀ (i j : Nat) x y, i < j → g.ops[i]? = some x → g.ops[j]? = some y → x.id ≠ y.id) →
    (∀ (i j : Nat) x, i < j → g.ops[i]? = some x → g.ops[j]? = some o → x.cls ≠ o.cls) →
    g'.ops = g.ops.filter fun x => x.id ≠ o.id
  waits : (∀ x ∈ g.ops, x.done = false) → (∀ (i j : Nat) x y, i < j → g.ops[i]? = some x → g.ops[j]? = some y → x.id ≠ y.id) →
    (∃ i j : Nat, ∃ x, i < j ∧ g.ops[i]? = some x ∧ g.ops[j]? = some o ∧ x.cls = o.cls) →
    (g'.ops = g.ops.map fun x => if x.id = o.id then { x with done := true, writes := [], flags := 0 } else x) ∧
      ∀ c, counter g' c = counter g c
  rest : g' = { g with
    vregs := g'.vregs, gregs := g'.gregs, ivHead := g'.ivHead, ivBody := g'.ivBody, fsr := g'.fsr, ops := g'.ops }

/-- The four completions of the load-store path by the kind they complete (R13, R207, R311, R317). -/
def completionRows : List ((Nat → Nat → Nat → Instr) × OpKind) :=
  [(.lsuOpComplete, .lsu), ((fun a b c => .gatherReturn a b c 0), .gather), (.conversionOpComplete, .conversion),
   (.decodeOpComplete, .decode)]

/-- Group `n` alone of a span, and the span's tables, have changed. -/
def OnlyGroupOf (sid n : Nat) (s t : State) (sp sp' : Span) : Prop :=
  OnlySpan sid s t ∧ findSpan t sid = some sp' ∧ sp' = { sp with groups := sp'.groups, tables := sp'.tables } ∧
  ∀ m, m ≠ n → sp'.groups[m]? = sp.groups[m]?

end Sys2Proof.Claims

namespace Sys2Proof.Claims

/-- Nothing of a group's accesses is still to be performed (R90). -/
def AllPerformed (s : State) (sid n : Nat) (g : Group) : Prop := (∀ w ∈ s.late, lateOf sid n w = false) ∧ groupLoadOpen g = false

/-- The state with an operation's writes to peer windows performed there (R431). -/
def peersWritten (o : OpRec) (s : State) : State := { s with peer := o.writes.foldl (fun m w => applyPeer w m) s.peer }

/-- The operation may complete: every lane has been performed, and the owners of peer windows have answered (R13, R432). -/
def MayComplete (o : OpRec) (k : OpKind) : Prop := o.kind = k ∧ o.ready = true ∧ o.done = false ∧ (o.ports = [] ∨ o.remoteLoad = true)

/-- Its span is on a pier. -/
def OnAPier (sp : Span) : Prop := ∃ pier, sp.place = .running pier ∨ sp.place = .waiting pier

/-- A completion cause of a conversion after which its registers are unspecified (R309). -/
def Breaks (o : OpRec) : Prop := o.kind = .conversion ∧ ∃ c, o.cause = some c ∧ c.toNat / 32 = 5

/-- A result for a lane register other than register `r` of a lane. -/
def OtherRegister (r lane : Nat) : OpWrite → Prop
  | .lane r' l' _ => l' < 32 ∧ (r', l') ≠ (r, lane)
  | _ => False

end Sys2Proof.Claims

/-- R12, R13, R86, R90, R207, R309, R311, R317, R431: an operation completes once its group's accesses are performed: results, flags,
its writes in peer windows, and its counter where it is first of its class: behind another of its class it is only marked done, and the counter
stands (R12); its cause, or the error of a gathered element, is taken as a completion cause (R204, R222). A conversion that
fails leaves its registers unspecified, and no other register changes.
Where the spec leaves a point open the model's choice is that of log 18, 63, 68, 73 and 80. -/
def Obligations.OperationsComplete : Prop :=
  (∀ p ∈ completionRows, ∀ s sid n id sp g o, findSpan s sid = some sp → OnAPier sp → sp.groups[n]? = some g → findOp g id = some o →
    MayComplete o p.2 → AllPerformed s sid n g → ¬ Breaks o →
    ∃ t sp' g', OnlyGroupOf sid n (peersWritten o s) t sp sp' ∧ sp'.groups[n]? = some g' ∧ Completed o g g' ∧
      (o.cause = none → exec (p.1 sid n id) s = .next t) ∧
      (∀ c, o.cause = some c → exec (p.1 sid n id) s = .next (completionCause sid (some n) c o.lanes o.block (noteError c t)))) ∧
  (∀ s sid n id sp g o, findSpan s sid = some sp → OnAPier sp → sp.groups[n]? = some g → findOp g id = some o → MayComplete o .lsu →
    exec (.lsuOpComplete sid n id) s = exec (.lsuOpComplete sid n id) (settleGroup sid n s)) ∧
  (∀ p ∈ completionRows, ∀ s sid n id sp g o, findSpan s sid = some sp → sp.groups[n]? = some g → findOp g id = some o →
    (o.ready = false ∨ o.done = true ∨ o.kind ≠ p.2) → exec (p.1 sid n id) s = .next s) ∧
  (∀ s sid n id sp g o c, findSpan s sid = some sp → OnAPier sp → sp.groups[n]? = some g → findOp g id = some o → MayComplete o .conversion →
    o.cause = some c → c.toNat / 32 = 5 →
    ∃ t, exec (.conversionOpComplete sid n id) s = .next (completionCause sid (some n) c o.lanes o.block (noteError c t)) ∧
      ∃ g', findGroup t sid n = some g' ∧ g'.fsr = g.fsr ||| o.flags ∧
        ∀ r lane, lane < 32 → (∀ w ∈ o.writes, OtherRegister r lane w) → readV g' r lane = readV g r lane) ∧
  ∀ s sid n id errors sp g o l, findSpan s sid = some sp → OnAPier sp → sp.groups[n]? = some g →
    findOp g id = some o → MayComplete o .gather → o.cause = none →
    l < 32 → errors.getLsbD l = true → o.lanes.getLsbD l = true →
    ∃ t, exec (.gatherReturn sid n id errors) s = .next (completionCause sid (some n) (causeOf 3 25) o.lanes o.block (noteError (causeOf 3 25) t)) ∧
      ∃ g', findGroup t sid n = some g' ∧ g'.fsr = g.fsr ||| o.flags ∧
        ∀ r lane, lane < 32 → errors.getLsbD lane = false → (∀ w ∈ o.writes, ∃ r' l' v, w = .lane r' l' v ∧ l' < 32) → groupExited g = false →
          readV g' r lane = (lastLane o.writes r lane).getD (readV g r lane)

namespace Sys2Proof.Claims

/-! ### Translation (R268 to R274) -/

/-- A leaf's attributes allow an access (R203 step 3). -/
def allows (need : Need) (x : Xlat) : Prop :=
  (needReads need = true → x.r = true) ∧ (needWrites need = true → x.w = true) ∧ (need = .fetch → x.x = true)

end Sys2Proof.Claims

/-- R268, R271, R274: an address with a bit of [63:57] set faults 3:6 and one with bit 56 names a peer; a context that is not valid translates
nothing; a window serves its range; a page of a walk is found by the index bits of R272; a context entry or a table in
a frame that is not present is malformed (R268); and a translation once used is held by the TLBs of its pier and die whatever is then stored.
Where the spec leaves a point open the model's choice is that of log 8 and 41. -/
def Obligations.Translation : Prop :=
  (∀ s pier ctx va, 2 ^ 57 ≤ va → look s pier ctx va = .outside) ∧
  (∀ s pier ctx va, va < 2 ^ 57 → 2 ^ 56 ≤ va → look s pier ctx va = .peer (va / 2 ^ 47 % 2 ^ 9) (va % 2 ^ 47)) ∧
  (∀ s pier ctx va, va < 2 ^ 56 → heldWindow s ctx = none → ctxPresent s ctx = true → ctxEntry s ctx % 2 = 0 → look s pier ctx va = .absent) ∧
  (∀ s pier ctx va, va < 2 ^ 56 → heldWindow s ctx = none → ctxPresent s ctx = false → look s pier ctx va = .malformed) ∧
  (∀ s va tier table n, frameExists s tier (table / 2 ^ 21) = false → walkFrom s va tier table n = .malformed) ∧
  (∀ s pier ctx va w, va < 2 ^ 56 → heldWindow s ctx = some w → w.valid = true → w.base ≤ va → va < w.limit → windowLegal w = true →
    ∃ x, look s pier ctx va = .ok x ∧ x.tier = 0 ∧ leafPa x va % 2 ^ 21 = va % 2 ^ 21 ∧
      x.base = (va / 2 ^ 21 * 2 ^ 21 + w.offset) % 2 ^ 52 ∧ x.r = w.attrs.getLsbD 1 ∧ x.w = w.attrs.getLsbD 2 ∧ x.x = w.attrs.getLsbD 3) ∧
  (∀ s ctx va t0 t1 t2 t3 p0 p1 p2 p3 e, va < 2 ^ 56 → t0 < 3 → t1 < 3 → t2 < 3 → t3 < 3 → p1 < 2 ^ 52 → p2 < 2 ^ 52 → p3 < 2 ^ 52 →
    p1 % 4096 = 0 → p2 % 4096 = 0 → p3 % 4096 = 0 → ctxPresent s ctx = true →
    (∀ tp ∈ [(t0, p0), (t1, p1), (t2, p2), (t3, p3)], frameExists s tp.1 (tp.2 / 2 ^ 21) = true) → ctxEntry s ctx / 2 ^ 54 % 4 = t0 → ctxEntry s ctx / 2 ^ 20 % 2 ^ 32 * 2 ^ 20 = p0 →
    readPhys s t0 (p0 + 8 * (va / 2 ^ 39)) 8 = 1 + p1 + 2 ^ 54 * t1 → readPhys s t1 (p1 + 8 * (va / 2 ^ 30 % 512)) 8 = 1 + p2 + 2 ^ 54 * t2 →
    readPhys s t2 (p2 + 8 * (va / 2 ^ 21 % 512)) 8 = 1 + p3 + 2 ^ 54 * t3 → readPhys s t3 (p3 + 8 * (va / 2 ^ 12 % 512)) 8 = e →
    e % 4 = 3 → e.testBit 52 = false → walk s ctx va = leafOf e 12) ∧
  (∀ s p ctx va x m w, heldWindow s ctx = some w → look s (some p) ctx va = .ok x →
    look { noteUse (some p) ctx va s with mem := m } (some p) ctx va = .ok x) ∧
  ∀ s pier ctx need va x, look s pier ctx va = .ok x →
    (needReads need = true → x.r = false → reach s pier ctx need va = .fault 3 9) ∧
    (needReads need = false → needWrites need = true → x.w = false → reach s pier ctx need va = .fault 3 7) ∧
    (allows need x → frameExists s x.tier (leafPa x va / 2 ^ 21) = true → x.hostOwned = true →
      reach s pier ctx need va = .hostOwned x.tier) ∧
    (allows need x → frameExists s x.tier (leafPa x va / 2 ^ 21) = true → x.hostOwned = false →
      frameLocked s x.tier (leafPa x va / 2 ^ 21) = false → reach s pier ctx need va = .mem (memKey x.tier (placedPa x va)))

namespace Sys2Proof.Claims

/-! ### Conversion instructions (R310 to R318) -/

/-- The form of BLD, BST and SMP (R310): as many data registers as the record's elements take, three coordinate registers, a record below
the launch's count. -/
def recordForm (orders : List Nat) (s : State) (r : BitVec 320) : Form :=
  { rd := .reg (elemRegs r) (elemAlign r), ra := .reg 3 1, rb := .index (curRecords s), u := .zero, mem := some ⟨orders, false, true⟩ }

/-- The code of `w` bits from bit `b` of the bytes of a run that lies in memory. -/
def ReadsCode (s : State) (need : Need) (va len b w code : Nat) : Prop :=
  ∃ keys, memKeys (curRun s need va len) = some keys ∧ Correctable s keys ∧ code = valueAt (readByte s.mem) keys / 2 ^ b % 2 ^ w

/-- The channels of element (x, y, z) of a record of encodings 0, 1, 2 and 5 as a load gives them (R298, R301). -/
def LoadsElement (s : State) (r : BitVec 320) (x y z : Nat) (cs : List (Nat × Flags)) : Prop :=
  ∃ (scale : Nat) (code : Nat → Nat), (bufEnc r ≠ 2 → scale = 127) ∧ (bufEnc r = 2 → ReadsCode s .load (scaleVa r x y z) 1 0 8 scale) ∧
    (∀ c, c < bufChannels r → ReadsCode s .load (elemRun r x y z c).va (elemRun r x y z c).len (elemRun r x y z c).bit
      (formatBits (bufFormat r)) (code c)) ∧
    cs = (List.range (bufChannels r)).map fun c => elemLoad r scale (code c)

/-- What a lane of BLD loads: the element after the border mode, or zeros where border mode zero leaves none (R299, R312). -/
def LoadsLane (s : State) (r : BitVec 320) (e : Enc) (lane : Nat) (w : List Word × Flags) : Prop :=
  match laneTexel r false (curGroup s) e lane with
  | .at x y z => ∃ cs, LoadsElement s r x y z cs ∧ w = (channelWords r cs, cs.foldl (fun f c => f ||| c.2) 0)
  | .gone => w = (List.replicate (elemRegs r) 0, 0)
  | .fault => False

/-- A texel as SMP uses it: integers converted exactly, 0 outside under border mode zero (R314). -/
def LoadsTexel (s : State) (r : BitVec 320) (t : Texel) (cs : List (Nat × Flags)) : Prop :=
  match t with
  | .at x y z => ∃ ds, LoadsElement s r x y z ds ∧ cs = ds.map (texelValue r)
  | .gone => cs = List.replicate (bufChannels r) (0, noFlags)
  | .fault => False

/-- The flags of some lanes together. -/
def allFlags (l : List Nat) (f : Nat → Flags) : Flags := l.foldl (fun acc i => acc ||| f i) 0

/-- Elements written one after another over bytes: keys, first bit, width, code. -/
def writeElements (w : Nat) : List (List Nat × Nat × Nat) → (Nat → Byte) → Nat → Byte
  | [], m => m
  | (keys, b, code) :: rest, m =>
    let old := valueAt m keys
    let new := old - old / 2 ^ b % 2 ^ w * 2 ^ b + code % 2 ^ w * 2 ^ b
    writeElements w rest (overlay keys (natToBytes keys.length new) m)

/-- The elements a lane of BST writes through a record of encodings 0, 1, 4 and 5, and its flags (R300, R302, R313). -/
def StoresLane (s : State) (r : BitVec 320) (e : Enc) (lane : Nat) (els : List (List Nat × Nat × Nat)) (fl : Flags) : Prop :=
  match laneTexel r true (curGroup s) e lane with
  | .at x y z =>
    let value (c : Nat) : Nat × Flags := elemStore r 127 (channelValue r (curGroup s) e lane c)
    List.Forall₂ (fun c el => memKeys (curRun s .store (elemRun r x y z c).va (elemRun r x y z c).len) = some el.1 ∧
        el.1.length = (elemRun r x y z c).len ∧ el.2 = ((elemRun r x y z c).bit, (value c).1))
      (storedChannels r (curPattern s r) x y z) els ∧
    fl = (List.range (bufChannels r)).foldl (fun f c => f ||| (value c).2) 0
  | .gone => els = [] ∧ fl = 0
  | .fault => False

/-- Every lane of BST stores a format merged into a byte, or one channel in one granule: nothing of it is performed later (R90, R202). -/
def StoresWhole (s : State) (r : BitVec 320) (e : Enc) : Prop :=
  formatBits (bufFormat r) % 8 ≠ 0 ∨ ∀ l ∈ accessesOf e s, ∀ x y z, laneTexel r true (curGroup s) e l = .at x y z →
    bufChannels r = 1 ∧ (elemRun r x y z 0).va % 8 + (elemRun r x y z 0).len ≤ 8

noncomputable def samplerRows : List ((Enc → Instr) × Sampler) := [(.smpNear, .near), (.smpBil, .bil), (.smpEpb, .epb)]

/-- The sample of a channel: the texel of SMP.near, else the weighted sum (R60, R315). -/
def sampleChannel (k : Sampler) (ts : List ((Nat × Flags) × Nat)) : Nat × Flags :=
  match k with
  | .near => ((ts.head?).map (·.1)).getD (0, noFlags)
  | _ => texFilter ts

/-- What a lane of SMP samples. -/
def SamplesLane (k : Sampler) (s : State) (r : BitVec 320) (e : Enc) (lane : Nat) (w : List Word × Flags) : Prop :=
  ∃ data, List.Forall₂ (fun p d => LoadsTexel s r p.1 d) (sampleTexels k r e (curGroup s) lane) data ∧
    let channel (c : Nat) : Nat × Flags :=
      sampleChannel k ((data.zip ((sampleTexels k r e (curGroup s) lane).map (·.2))).map fun d => ((d.1[c]?).getD (0, noFlags), d.2))
    w = ((List.range (bufChannels r)).map (fun c => BitVec.ofNat 32 (channel c).1),
      ((List.range (bufChannels r)).foldl (fun f c => f ||| (channel c).2) 0) ||| (samplePoints k (coordAt (curGroup s) e lane)).2)

/-- Only the issuing group and the translations noted have changed. -/
def OnlyGroupAndNotes (s t : State) : Prop := t = { (modCur s fun _ => curGroup t) with vm := t.vm }

end Sys2Proof.Claims

/-- R90, R298 to R302, R310 to R315: BLD, BST and SMP over the record they name.
Where the spec leaves a point open the model's choice is that of log 61, 77 and 80. -/
def Obligations.BufferAccesses : Prop :=
  (∀ e s r (w : Nat → List Word × Flags), Legal (recordForm [0, 1] s r) (!memRp e) e s → curRecord s e.rb.toNat = some r → FirstIssue .ld e s →
    bufEnc r ∈ [0, 1, 2, 5] → (∀ l ∈ accessesOf e s, LoadsLane s r e l (w l)) → ∃ t, exec (.bld e) s = .next t ∧
      Counted (wordLen e) .ld .conversion (actLanes e s) (resultsOf (rdLoc e) (accessesOf e s) fun l => (w l).1)
        (allFlags (accessesOf e s) fun l => (w l).2) s t ∧ SameBytes s t ∧ OnlyGroupAndNotes s t) ∧
  (∀ e s r els fl, Legal (recordForm [0, 2] s r) (!memRp e) e s → curRecord s e.rb.toNat = some r → FirstIssue .st e s →
    bufEnc r ∈ [0, 1, 4, 5] → bufReadOnly r = false → (∀ l ∈ accessesOf e s, StoresLane s r e l (els l) (fl l)) →
    (∀ l ∈ accessesOf e s, ∀ el ∈ els l, NoAtomicLate s .mem el.1) → ∃ t ls, exec (.bst e) s = .next t ∧
      Counted (wordLen e) .st .conversion (actLanes e s) [] (allFlags (accessesOf e s) fl) s t ∧ OnlyMemory s t ∧ Leaves .mem ls s t ∧
      (StoresWhole s r e → ls = []) ∧
      InTurn (writeElements (formatBits (bufFormat r)) ((accessesOf e s).flatMap els) (readByte s.mem)) s.mem t.mem (performed ls t).mem) ∧
  (∀ e s r, Legal (recordForm [0, 2] s r) (!memRp e) e s → curRecord s e.rb.toNat = some r → FirstIssue .st e s →
    bufReadOnly r = true → exec (.bst e) s = .next (faultWith 3 7 (actLanes e s) s)) ∧
  (∀ p ∈ samplerRows, ∀ e s r (w : Nat → List Word × Flags), Legal (recordForm [0, 1] s r) (!memRp e) e s → curRecord s e.rb.toNat = some r → FirstIssue .ld e s →
    bufEnc r ∈ [0, 1, 2, 5] → bufFormat r ∉ [fmtZ32, fmtS32, fmtF64, fmtE8] →
    (∀ l ∈ accessesOf e s, SamplesLane p.2 s r e l (w l)) → ∃ t, exec (p.1 e) s = .next t ∧
      Counted (wordLen e) .ld .conversion (actLanes e s) (resultsOf (rdLoc e) (accessesOf e s) fun l => (w l).1)
        (allFlags (accessesOf e s) fun l => (w l).2) s t ∧ SameBytes s t ∧ OnlyGroupAndNotes s t)

namespace Sys2Proof.Claims

/-! ### Decoding (R303 to R309, R316 to R318) -/

/-- VDEC's form: the cursor is a g pair named through the XP (R310, R316). -/
def vdecForm : Form := { rd := .reg 1 1, ra := .reg 2 2, rb := .unused, u := .zero, mem := some ⟨[0], false, false⟩ }

/-- VDEC and VDECQ: elements a form decodes, and a lane's word of them (R317). -/
noncomputable def vdecRows : List ((Enc → Instr) × Nat × (List Nat → Nat → Word)) :=
  [(.vdec, 128, fun es i => BitVec.ofNat 32 ((es[4 * i]?).getD 0 + 256 * (es[4 * i + 1]?).getD 0 + 65536 * (es[4 * i + 2]?).getD 0 +
      16777216 * (es[4 * i + 3]?).getD 0)),
   (.vdecq, 32, fun es i => BitVec.ofNat 32 ((es[i]?).getD 0))]

/-- The cursor in a pair of g registers: offset, elements taken, tile index (R316). -/
def cursorOf (g : Group) (r : Nat) : Cursor :=
  ⟨(readG g r).toNat % 2 ^ 24, (readG g r).toNat / 2 ^ 24, (readG g (r + 1)).toNat⟩

end Sys2Proof.Claims

/-- R317, R318: VDEC and VDECQ decode from the deck at their cursor, write the cursor back and count one operation; a part of all lanes
faults 5:11; decoding n and then m elements is decoding n + m; LDT reads a table, which its completion installs.
Where the spec leaves a point open the model's choice is that of log 61. -/
def Obligations.Decoding : Prop :=
  (∀ p ∈ vdecRows, ∀ e s sp es c', Legal vdecForm (xpBit e 13) e s → curSpan s = some sp → actLanes e s = 0xFFFFFFFF →
    counter (curGroup s) .dc ≠ 63 →
    let r := locNum (raLoc e)
    let c := cursorOf (curGroup s) r
    c.off % 64 = 0 → vdecWalk sp.tables (deckSize sp) (deckLine s sp) (deckSize sp / 64 + 1) c p.2.1 = .ok (es, c') →
    ∃ t gregs, exec (p.1 e) s = .next t ∧ OnlyGroup s t ∧ SameBytes s t ∧ Advanced (wordLen e) s t ∧
      curGroup t = { curGroup s with
        gregs := gregs, ops := (curGroup t).ops, opCount := (curGroup s).opCount + 1, slices := (curGroup t).slices } ∧
      (∀ n, readG (curGroup t) n = if n = r then BitVec.ofNat 32 (c'.off % 2 ^ 24 + 2 ^ 24 * (c'.used % 256))
        else if n = r + 1 then BitVec.ofNat 32 c'.idx else readG (curGroup s) n) ∧
      (curGroup t).ops.getLast? = some ⟨(curGroup s).opCount, .dc, .decode, actLanes e s,
        (List.range 32).map (fun i => regWrite (rdLoc e) i 0 (p.2.2 es i)), 0, none, none, true, false, [], false⟩) ∧
  (∀ p ∈ vdecRows, ∀ e s sp, Legal vdecForm (xpBit e 13) e s → curSpan s = some sp → actLanes e s ≠ 0xFFFFFFFF →
    exec (p.1 e) s = .next (faultWith 5 11 (actLanes e s) s)) ∧
  (∀ tables size line c n m es c' es' c'', 0 < n → 0 < m →
    vdecWalk tables size line (size / 64 + 1) c n = .ok (es, c') → vdecWalk tables size line (size / 64 + 1) c' m = .ok (es', c'') →
    vdecWalk tables size line (size / 64 + 1) c (n + m) = .ok (es ++ es', c'')) ∧
  ∀ e s keys, Legal { rd := .unused, ra := .reg 2 2, rb := .index 8, u := .one, mem := some ⟨[0, 1], false, false⟩ } (!memRp e) e s →
    FirstIssue .dc e s → actLanes e s ≠ 0 →
    let va := (pair (curGroup s) 0 (raLoc e)).toNat
    (va % 128 ≠ 0 → exec (.ldt e) s = .next (faultWith 3 4 (actLanes e s) s)) ∧
    (va % 128 = 0 → memKeys (curRun s .load va 128) = some keys → Correctable s keys →
      tableLegal (BitVec.ofNat 1024 (valueAt (readByte s.mem) keys)) = true → ∃ t, exec (.ldt e) s = .next t ∧
        Counted (wordLen e) .dc .decode (actLanes e s) [.table e.rb.toNat (BitVec.ofNat 1024 (valueAt (readByte s.mem) keys))] 0 s t ∧
        SameBytes s t ∧ OnlyGroupAndNotes s t)

namespace Sys2Proof.Claims

/-! ### The matrix engine (R319 to R346) -/

/-- An entry is at the end of the issuing pier's FIFO, counted by the mx counter, its barrier's pend raised; nothing else has changed but
translations noted (R328, R186). -/
def PostsMatrix (e : Enc) (res : Nat) (kind : MatrixKind) (barrier : Option Nat) (sp : Span) (s t : State) : Prop :=
  Counted (wordLen e) .mx .engine (actLanes e s) [] 0 s t ∧
  fifo t (curPier s) = fifo s (curPier s) ++ [⟨curSid s, curNum s, (curGroup s).opCount, res, kind, barrier, false⟩] ∧
  (∀ p, p ≠ curPier s → fifo t p = fifo s p) ∧ t = { s with spans := t.spans, matrix := t.matrix, vm := t.vm } ∧
  (∀ x, x ≠ curSid s → findSpan t x = findSpan s x) ∧
  ∃ sp', findSpan t (curSid s) = some sp' ∧ sp' = { sp with groups := sp'.groups, barriers := sp'.barriers } ∧
    (∀ n, n ≠ curNum s → sp'.groups[n]? = sp.groups[n]?) ∧
    ∀ j, sp'.barriers[j]? = (sp.barriers[j]?).map fun b => if barrier = some j then { b with pend := b.pend + 1 } else b

/-- The FIFO and the mx counter have room (R9, R12). -/
def matrixRoom (s : State) : Prop := (fifo s (curPier s)).length < 32 ∧ counter (curGroup s) .mx ≠ 63

/-- One reservation of the issuing span is rewritten and the gang goes on. -/
def ReservationBecomes (e : Enc) (k : Nat) (r : Reservation) (sp : Span) (s t : State) : Prop :=
  Advanced (wordLen e) s t ∧ OnlySpan (curSid s) s t ∧ SameBytes s t ∧
  curGroup t = { curGroup s with slices := (curGroup t).slices } ∧
  ∃ sp', findSpan t (curSid s) = some sp' ∧ sp' = { sp with reservations := sp'.reservations, groups := sp'.groups } ∧
    (∀ n, n ≠ curNum s → sp'.groups[n]? = sp.groups[n]?) ∧
    ∀ j, sp'.reservations[j]? = (sp.reservations[j]?).map fun x => if j = k then r else x

/-- The rows of R329: the instruction and its form. -/
noncomputable def mmaRows : List ((Enc → Instr) × MmaForm) :=
  [(.mmaT8, .t8), (.mmaT6, .t6), (.mmaS8, .s8), (.mmaBf16, .bf16), (.mmaF16, .f16), (.mmaT8s, .t8s), (.mmaT6s, .t6s),
   (.mmaxT8, .xt8), (.mmaxT6, .xt6), (.mmaxS8, .xs8)]

/-- The form of an MMA (R343). -/
def mmaForm (m : MmaShape) : Form :=
  { rd := .reg m.cRegs m.cRegs, ra := .reg m.aRegs m.aAlign, rb := .imm, rc := if m.scaled then .always else .unused, u := .zero,
    mods := 0x1F }

/-- C's registers overlap A's, or hold the scale register (R329). -/
def overlaps (m : MmaShape) (e : Enc) : Prop :=
  (∃ r, locNum (rdLoc e) ≤ r ∧ r < locNum (rdLoc e) + m.cRegs ∧ locNum (raLoc e) ≤ r ∧ r < locNum (raLoc e) + m.aRegs) ∨
    (m.scaled = true ∧ locNum (rdLoc e) ≤ rcField e ∧ rcField e < locNum (rdLoc e) + m.cRegs)

end Sys2Proof.Claims

/-- R338 to R346: OBRES, OBREL and OBQ on the reservation they name; OBLD, OBLDT, MMA and MMAX post one FIFO entry with the A registers
and addresses read at issue; a part of all lanes faults 4:11, an overlap of C 0:0, an unfit reservation 4:21, at OBLDT whatever its entry
holds; XFIX rounds a Q40.24 once.
Where the spec leaves a point open the model's choice is that of log 62. -/
def Obligations.MatrixIssue : Prop :=
  (∀ e s sp, Legal { rd := .reg 1 1, ra := .unused, rb := .index 16, xp := .zero, u := .one } true e s → curSpan s = some sp → ¬ held e s →
    (grantRes sp e.rb.toNat (readG (curGroup s) e.rd.toNat).toNat = none → exec (.obres e) s = .next (faultWith 4 21 (gangLanes s) s)) ∧
    (∀ rec, grantRes sp e.rb.toNat (readG (curGroup s) e.rd.toNat).toNat = some rec →
      ∃ t, exec (.obres e) s = .next t ∧ ReservationBecomes e e.rb.toNat ⟨rec, 0⟩ sp s t)) ∧
  (∀ e s sp, Legal { rd := .unused, ra := .unused, rb := .index 16, xp := .zero, u := .one } true e s → curSpan s = some sp → ¬ held e s →
    (resValid (spanRes sp e.rb.toNat) = false → exec (.obrel e) s = .next (faultWith 4 21 (gangLanes s) s)) ∧
    (resValid (spanRes sp e.rb.toNat) = true → resPending s (curSid s) e.rb.toNat = true → exec (.obrel e) s = .next s) ∧
    (resValid (spanRes sp e.rb.toNat) = true → resPending s (curSid s) e.rb.toNat = false →
      ∃ t, exec (.obrel e) s = .next t ∧ ReservationBecomes e e.rb.toNat ⟨0, 0⟩ sp s t)) ∧
  (∀ e s sp, Legal { rd := .reg 2 2, ra := .unused, rb := .index 16, xp := .zero, u := .one } true e s → curSpan s = some sp → ¬ held e s →
    let r := spanRes sp e.rb.toNat
    ∃ t, exec (.obq e) s = .next t ∧ GroupResult s t (wordLen e) true e.rd.toNat 2
      (if resValid r then resPos r % 2 ^ 32 + 2 ^ 32 * (obqWord r (resPending s (curSid s) e.rb.toNat) % 2 ^ 32) else 0, noFlags)) ∧
  (∀ e s sp, Legal { rd := .reg 1 1, ra := .reg 2 2, rb := .imm, u := .zero, mem := some ⟨[0, 1], false, true⟩ } (decide (e.rb.toNat / 16 < 3))
    e s → curSpan s = some sp → myParked s = [] →
    let mode := e.rb.toNat / 16
    let k := e.rb.toNat % 16
    let r := spanRes sp k
    let va (l : Nat) : Nat := (pair (curGroup s) l (raLoc e)).toNat
    let n (l : Nat) : Nat := (readLoc (curGroup s) l (rdLoc e)).toNat
    (actLanes e s ≠ 0xFFFFFFFF → exec (.obld e) s = .next (faultWith 4 11 (actLanes e s) s)) ∧
    (actLanes e s = 0xFFFFFFFF → resValid r = false → exec (.obld e) s = .next (faultWith 4 21 (actLanes e s) s)) ∧
    (actLanes e s = 0xFFFFFFFF → resValid r = true → (mode = 2 → resBlock r = 5) → (∀ l, l < 32 → obldOut mode r (n l) = false ∧ va l % 8 = 0) →
      matrixRoom s → (∀ l, l < 32 → ∃ keys, memKeys (curRun s .load (va l) (if mode = 2 then 32 else rowBytes (resFormat r))) = some keys) →
      ∃ t, exec (.obld e) s = .next t ∧ PostsMatrix e k (.load mode ((List.range 32).map fun l => (l, va l, n l))) none sp s t)) ∧
  (∀ e s sp keys keys', Legal { rd := .reg 2 2, ra := .reg 2 2, rb := .index 16, u := .one, mem := some ⟨[0, 1], false, true⟩ } true e s →
    curSpan s = some sp → myParked s = [] → ¬ held e s → actLanes e s = 0xFFFFFFFF → matrixRoom s →
    let va := (pair (curGroup s) 0 (raLoc e)).toNat
    let base := (pair (curGroup s) 0 (rdLoc e)).toNat
    va % 16 = 0 → base % 64 = 0 → memKeys (curRun s .load va 16) = some keys → Correctable s keys →
    let entry := valueAt (readByte s.mem) keys
    (obldtRefused (spanRes sp e.rb.toNat) (some entry) = true → exec (.obldt e) s = .next (faultWith 4 21 (actLanes e s) s)) ∧
    (obldtRefused (spanRes sp e.rb.toNat) (some entry) = false → memKeys (curRun s .load (base + 64 * tileOffset entry) (64 * tileLines entry)) = some keys' →
      ∃ t, exec (.obldt e) s = .next t ∧ PostsMatrix e e.rb.toNat (.loadCoded (BitVec.ofNat 128 entry) base) none sp s t)) ∧
  (∀ e s sp keys, Legal { rd := .reg 2 2, ra := .reg 2 2, rb := .index 16, u := .one, mem := some ⟨[0, 1], false, true⟩ } true e s →
    curSpan s = some sp → myParked s = [] → ¬ held e s → actLanes e s = 0xFFFFFFFF → matrixRoom s →
    (pair (curGroup s) 0 (raLoc e)).toNat % 16 = 0 → (pair (curGroup s) 0 (rdLoc e)).toNat % 64 = 0 →
    memKeys (curRun s .load (pair (curGroup s) 0 (raLoc e)).toNat 16) = some keys →
    let r := spanRes sp e.rb.toNat
    (resValid r = false ∨ resFormat r ∉ [fmtT8, fmtS8] ∨ resBlock r ≠ 0) → exec (.obldt e) s = .next (faultWith 4 21 (actLanes e s) s)) ∧
  (∀ p ∈ mmaRows, ∀ e s sp, let m := mmaShape p.2
    Legal (mmaForm m) (mmaLegal e) e s → curSpan s = some sp →
    let k := e.rb.toNat % 16
    let mode := projectedMode s (curSid s) k sp
    let barrier := if modifier e / 16 % 2 = 1 then some (modifier e % 16) else none
    (actLanes e s ≠ 0xFFFFFFFF → exec (p.1 e) s = .next (faultWith 4 11 (actLanes e s) s)) ∧
    (actLanes e s = 0xFFFFFFFF → overlaps m e → exec (p.1 e) s = .next (faultWith 0 0 (actLanes e s) s)) ∧
    (actLanes e s = 0xFFFFFFFF → ¬ overlaps m e → mmaRefused m (spanRes sp k) mode = true → exec (p.1 e) s = .next (faultWith 4 21 (actLanes e s) s)) ∧
    (actLanes e s = 0xFFFFFFFF → ¬ overlaps m e → mmaRefused m (spanRes sp k) mode = false → (∀ b, barrier = some b → (spanBarrier sp b).init = true) →
      matrixRoom s → ∃ t, exec (p.1 e) s = .next t ∧ PostsMatrix e k (.mma p.2
        ((List.range 32).map fun l => (List.range m.aRegs).map fun j => readV (curGroup s) (locNum (raLoc e) + j) l)
        ((List.range 32).map fun l => if m.scaled then readV (curGroup s) (rcField e) l else 0) (locNum (rdLoc e)) mode) barrier sp s t)) ∧
  ∀ e, Computes (.xfixF32 e) { rd := .reg 1 1, ra := .reg 2 2, rb := .unused } true e (rdLoc e) 1 fun g lane =>
    let v := (pair g lane (raLoc e)).toInt
    roundNum fp32 .rne (.fin (decide (v < 0)) v.natAbs (-24))

namespace Sys2Proof.Claims

/-- Element (k, j) of the S8 rows of a dense reservation, from its read position (R322 to R324). -/
def denseS8 (s : State) (sp : Span) (r : Reservation) (k j : Nat) : Int :=
  (readByte s.opbuf (resKey sp r (32 * ((resPos r + k) % resRows r) + j))).toInt

/-- Element (i, k) of A in a lane's 16 registers of S8 (R330). -/
def s8At (a : List (List Word)) (i k : Nat) : Int :=
  ((((a[i]?).getD [])[k / 4]?).getD 0).toNat / 256 ^ (k % 4) % 256 |> fun x => (BitVec.ofNat 8 x).toInt

/-- The word of one accumulator element from its pair of registers. -/
def accumAt (g : Group) (c i j : Nat) : BitVec 64 := readV g (c + 2 * j + 1) i ++ readV g (c + 2 * j) i

end Sys2Proof.Claims

/-- R53, R324, R326, R328, R331, R344: the head of a pier's FIFO starts and completes: an OBLD of a plain form copies its rows; MMAX.s8 adds
to each Q40.24 of C the exact sum of 64 products of A and the reservation's next rows, wrapping; the completion writes C, makes the
arrival and takes the entry out; an entry that has not started does not complete.
Where the spec leaves a point open the model's choice is that of log 61 and 70. -/
def Obligations.MatrixArray : Prop :=
  (∀ s pier x rest sp g o a sc c mode, fifo s pier = x :: rest → x.started = false → findSpan s x.sid = some sp → sp.groups[x.g]? = some g →
    findOp g x.op = some o → o.cause = none → x.kind = .mma .xs8 a sc c mode → mode = 1 → resMode (spanRes sp x.res) = 1 →
    x.res < sp.reservations.length → 0 < resRows (spanRes sp x.res) → resFormat (spanRes sp x.res) = fmtS8 →
    resPoisoned s sp (spanRes sp x.res) 0 (1024 * resSize (spanRes sp x.res)) = false → ∃ t sp' g' o', exec (.matrixEntryStart pier) s = .next t ∧
      fifo t pier = { x with started := true } :: rest ∧ findSpan t x.sid = some sp' ∧ sp'.groups[x.g]? = some g' ∧ findOp g' x.op = some o' ∧
      SameRegisters g g' ∧ t.opbuf = s.opbuf ∧ t.mem = s.mem ∧ t.deck = s.deck ∧ t.peer = s.peer ∧
      resPos (spanRes sp' x.res) = (resPos (spanRes sp x.res) + 64) % resRows (spanRes sp x.res) ∧
      ∀ i j, i < 32 → j < 32 →
        let q := accumAt g c i j + BitVec.ofInt 64 (2 ^ 24 * ((List.range 64).map fun k => s8At a i k * denseS8 s sp (spanRes sp x.res) k j).sum)
        lastLane o'.writes (c + 2 * j) i = some (q.setWidth 32) ∧ lastLane o'.writes (c + 2 * j + 1) i = some ((q >>> 32).setWidth 32)) ∧
  (∀ s pier x rest sp g o items (K : Nat → List Nat), fifo s pier = x :: rest → x.started = false → findSpan s x.sid = some sp →
    sp.groups[x.g]? = some g → findOp g x.op = some o → o.cause = none → x.kind = .load 0 items →
    (∀ i ∈ items, memKeys (reachRun s (some (spanPier sp)) (spanCtx s sp) .engineRead i.2.1 (rowBytes (resFormat (spanRes sp x.res)))) =
      some (K i.1) ∧ Correctable s (K i.1)) →
    (∀ (m n : Nat) i j, m < n → items[m]? = some i → items[n]? = some j → i.1 ≠ j.1) →
    let r := spanRes sp x.res
    ∃ t, exec (.matrixEntryStart pier) s = .next t ∧ fifo t pier = { x with started := true } :: rest ∧ t.mem = s.mem ∧ t.deck = s.deck ∧
      ∀ a, readByte t.opbuf a = storedOver (items.flatMap fun i => ((List.range (rowBytes (resFormat r))).map fun o =>
        resKey sp r (rowBytes (resFormat r) * i.2.2 + o)).zip ((K i.1).map (readByte s.mem))) (readByte s.opbuf) a) ∧
  (∀ s pier x rest, fifo s pier = x :: rest → x.started = false → exec (.matrixEntryComplete pier) s = .next s) ∧
  (∀ s pier x rest sp g o, fifo s pier = x :: rest → x.started = true → findSpan s x.sid = some sp → sp.groups[x.g]? = some g →
    findOp g x.op = some o → o.cause = none → o.done = false → x.barrier = none → AllPerformed s x.sid x.g g →
    ∃ t sp' g', exec (.matrixEntryComplete pier) s = .next t ∧ fifo t pier = rest ∧ findSpan t x.sid = some sp' ∧ sp'.groups[x.g]? = some g' ∧
      Completed o g g' ∧ t = { peersWritten o s with spans := t.spans, matrix := t.matrix }) ∧
  ∀ s pier x rest sp g o k b, fifo s pier = x :: rest → x.started = true → findSpan s x.sid = some sp → sp.groups[x.g]? = some g →
    findOp g x.op = some o → o.cause = none → o.done = false → x.barrier = some k → sp.barriers[k]? = some b → b.a + 1 < b.n →
    ∃ t sp', exec (.matrixEntryComplete pier) s = .next t ∧ fifo t pier = rest ∧ findSpan t x.sid = some sp' ∧
      sp'.barriers[k]? = some { b with a := b.a + 1, pend := b.pend - 1 }

namespace Sys2Proof.Claims

/-! ### The transfer engine (R350 to R370) -/

/-- An entry is at the end of queue `q` of the issuing span, counted by the cp counter, its barrier's pend raised (R186, R350, R365). -/
def PostsTransfer (e : Enc) (kind : TransferKind) (barrier : Option Nat) (peer : Bool) (sp : Span) (s t : State) : Prop :=
  let q := e.rb.toNat % 4
  Counted (wordLen e) .cp .engine (actLanes e s) [] 0 s t ∧ OnlySpan (curSid s) s t ∧
  ∃ sp', findSpan t (curSid s) = some sp' ∧ sp' = { sp with groups := sp'.groups, barriers := sp'.barriers, queues := sp'.queues } ∧
    (∀ n, n ≠ curNum s → sp'.groups[n]? = sp.groups[n]?) ∧
    (∀ j, sp'.barriers[j]? = (sp.barriers[j]?).map fun b => if barrier = some j then { b with pend := b.pend + 1 } else b) ∧
    ∀ j, sp'.queues[j]? = (sp.queues[j]?).map fun l =>
      if j = q then l ++ [⟨curNum s, (curGroup s).opCount, kind, barrier, peer, false, [], none, [], [], none⟩] else l

/-- The queue named has room, the cp counter too, and the barrier named is initialised (R350, R365). -/
def mayPost (e : Enc) (barrier : Option Nat) (sp : Span) (s : State) : Prop :=
  ((sp.queues[e.rb.toNat % 4]?).getD []).length < 16 ∧ counter (curGroup s) .cp ≠ 63 ∧ ∀ k, barrier = some k → (spanBarrier sp k).init = true

/-- The per-lane copies by size. -/
noncomputable def cpyRows : List ((Enc → Instr) × Nat) := [(.cpy4, 4), (.cpy8, 8), (.cpy16, 16)]

/-- A lane's source and destination of a CPY: a deck offset in one register, or an address in a pair (R366). -/
def cpySource (e : Enc) (g : Group) (l : Nat) : Nat :=
  if e.rb.getLsbD 2 then (readLoc g l (raLoc e)).toNat else (pair g l (raLoc e)).toNat
def cpyDest (e : Enc) (g : Group) (l : Nat) : Nat := if e.rb.getLsbD 3 then (readLoc g l (rdLoc e)).toNat else (pair g l (rdLoc e)).toNat

/-- A side of a transfer is aligned and within the deck or the 56-bit addresses (R203 step 2). -/
def sideFits (deck : Bool) (sp : Span) (n a : Nat) : Prop := a % n = 0 ∧ if deck then a + n ≤ deckSize sp else a < 2 ^ 56

/-- The barrier an rc field names (R364). -/
def rcNames (e : Enc) : Option Nat := if rcField e / 16 % 2 = 1 then some (rcField e % 16) else none

/-- The form of CPY by its deck bits. -/
def cpyForm (e : Enc) : Form :=
  { rd := if e.rb.getLsbD 3 then .reg 1 1 else .reg 2 2, ra := if e.rb.getLsbD 2 then .reg 1 1 else .reg 2 2, rb := .imm, rc := .bits,
    u := .zero, mem := some ⟨[0, 1, 2, 3], false, true⟩ }

/-- The form of a descriptor instruction, and its eight words (R354). -/
def descForm (nt : Bool) : Form := { rd := .reg 8 8, ra := .unused, rb := .imm, u := .one, mem := some ⟨[0, 1, 2, 3], false, nt⟩ }
def wordsAt (e : Enc) (s : State) : List Nat := (List.range 8).map fun i => (readG (curGroup s) (locNum (rdLoc e) + i)).toNat

/-- The copies of the rows of a descriptor (R354). -/
def rowsOf (ws : List Nat) (src dst : Nat → Place) : TransferKind :=
  .copy ((List.range (descRows ws)).map fun r => ⟨src r, dst r, descRowBytes ws⟩)

/-- The checks of the descriptor of a CPYB pass: fields, then deck, then addresses (R354, R367). -/
def cpybFits (ws : List Nat) (sp : Span) : Prop :=
  descLegal ws = true ∧ descFlag ws 2 = false ∧ descFlag ws 1 = false ∧ descMembers ws = 0 ∧ dw ws 3 = 0 ∧ dw ws 2 < 2 ^ 20 ∧ dw ws 6 < 2 ^ 20 ∧
  dw ws 2 + descExtent ws (dw ws 6) ≤ deckSize sp ∧ dw ws 2 % 8 = 0 ∧ dw ws 6 % 8 = 0 ∧ descVa ws % 8 = 0 ∧ dw ws 5 % 8 = 0 ∧
  descVa ws < 2 ^ 56

end Sys2Proof.Claims

/-- R350, R363 to R370: a transfer instruction checks its operands, its barrier (0:15) and its room, and posts one entry with what it copies:
lanes for CPY, rows for CPYB and CPYP, records for BINS, members for MCAST; a full queue stalls. -/
def Sys2Proof.Claims.TransferIssueRule : Prop :=
  (∀ p ∈ cpyRows, ∀ e s sp, Legal (cpyForm e) (decide (e.rb.toNat < 16) && rcBarrierLegal e) e s → curSpan s = some sp →
    let sd := e.rb.getLsbD 2
    let dd := e.rb.getLsbD 3
    let lanes := laneList (actLanes e s)
    (∀ l ∈ lanes, sideFits sd sp p.2 (cpySource e (curGroup s) l) ∧ sideFits dd sp p.2 (cpyDest e (curGroup s) l)) →
    (mayPost e (rcNames e) sp s → ∃ t, exec (p.1 e) s = .next t ∧ PostsTransfer e (.copy (lanes.map fun l =>
      ⟨if sd then .deck (curSid s) (cpySource e (curGroup s) l) else .mem (cpySource e (curGroup s) l),
       if dd then .deck (curSid s) (cpyDest e (curGroup s) l) else .mem (cpyDest e (curGroup s) l), p.2⟩)) (rcNames e) false sp s t) ∧
    ((∃ k, rcNames e = some k ∧ (spanBarrier sp k).init = false) → exec (p.1 e) s = .next (faultWith 0 15 (actLanes e s) s)) ∧
    ((∀ k, rcNames e = some k → (spanBarrier sp k).init = true) → 16 ≤ ((sp.queues[e.rb.toNat % 4]?).getD []).length →
      exec (p.1 e) s = .next s)) ∧
  (∀ p ∈ cpyRows, ∀ e s sp l, Legal (cpyForm e) (decide (e.rb.toNat < 16) && rcBarrierLegal e) e s → curSpan s = some sp →
    l ∈ laneList (actLanes e s) → e.rb.getLsbD 2 = true → deckSize sp < cpySource e (curGroup s) l + p.2 →
    exec (p.1 e) s = .next (faultWith 2 5 (actLanes e s) s)) ∧
  (∀ e s sp, Legal (descForm true) (decide (e.rb.toNat < 4)) e s → curSpan s = some sp → ¬ held e s →
    let ws := wordsAt e s
    let glob (r : Nat) : Place := .mem (descVa ws + r * dw ws 5)
    let deck (r : Nat) : Place := .deck (curSid s) (dw ws 2 + r * dw ws 6)
    cpybFits ws sp → mayPost e (descBarrier ws) sp s → ∃ t, exec (.cpyb e) s = .next t ∧
      PostsTransfer e (if descFlag ws 0 then rowsOf ws deck glob else rowsOf ws glob deck) (descBarrier ws) false sp s t) ∧
  (∀ e s sp, Legal (descForm true) (decide (e.rb.toNat < 4)) e s → curSpan s = some sp → ¬ held e s →
    let ws := wordsAt e s
    let deck := descFlag ws 1
    let va := dw ws 3 + 2 ^ 32 * (dw ws 6 / 2 ^ 7)
    let peer (r : Nat) : Place := .mem (descVa ws + r * dw ws 5)
    let here (r : Nat) : Place := if deck then .deck (curSid s) (dw ws 2 + r * dw ws 6) else .mem (va + r * (dw ws 6 % 2 ^ 7 * 8))
    descLegal ws = true → descFlag ws 2 = false → descMembers ws = 0 → descVa ws % 8 = 0 → dw ws 5 % 8 = 0 →
    (deck = true → dw ws 3 = 0 ∧ dw ws 6 < 2 ^ 20 ∧ dw ws 2 + descExtent ws (dw ws 6) ≤ deckSize sp ∧ dw ws 2 % 8 = 0 ∧ dw ws 6 % 8 = 0) →
    (deck = false → va % 8 = 0) →
    (descVa ws / 2 ^ 56 ≠ 1 ∨ (deck = false ∧ 2 ^ 56 ≤ va) → exec (.cpyp e) s = .next (faultWith 3 6 (actLanes e s) s)) ∧
    (descVa ws / 2 ^ 56 = 1 → (deck = false → va < 2 ^ 56) → mayPost e (descBarrier ws) sp s → ∃ t, exec (.cpyp e) s = .next t ∧
      PostsTransfer e (if descFlag ws 0 then rowsOf ws here peer else rowsOf ws peer here) (descBarrier ws) true sp s t)) ∧
  (∀ e s sp, let n := 2 ^ (e.rb.toNat / 4 % 4)
    Legal { rd := .reg (1 + n) 1, ra := .reg 2 2, rb := .imm, rc := .bits, u := .zero, mem := some ⟨[0, 1, 2, 3], false, false⟩ }
      (decide (e.rb.toNat < 16) && decide (e.rb.toNat / 4 < 3) && xpBit e 13 && rcBarrierLegal e) e s → curSpan s = some sp →
    let table := (pair (curGroup s) 0 (raLoc e)).toNat
    (table % 16 ≠ 0 → exec (.bins e) s = .next (faultWith 3 4 (actLanes e s) s)) ∧
    (table % 16 = 0 → table < 2 ^ 56 → mayPost e (rcNames e) sp s → ∃ t, exec (.bins e) s = .next t ∧
      PostsTransfer e (.bins table (e.rb.toNat / 4) ((laneList (actLanes e s)).map fun l =>
        (l, (readLoc (curGroup s) l (rdLoc e)).toNat, (List.range n).map fun j => readLoc (curGroup s) l (locAdd (1 + j) (rdLoc e))))
        (locNum (rdLoc e))) (rcNames e) false sp s t)) ∧
  ∀ e s sp, Legal (descForm false) (decide (e.rb.toNat < 4)) e s → curSpan s = some sp → ¬ held e s →
    let ws := wordsAt e s
    descLegal ws = true → descFlag ws 0 = false → descMembers ws ≠ 0 → descMembers ws < 2 ^ (setMembers s sp).length →
    (descFlag ws 2 = true → dw ws 2 < 2 ^ 24) → (descFlag ws 2 = false → dw ws 2 < 2 ^ 20 ∧ dw ws 2 % 8 = 0) →
    dw ws 6 < 2 ^ 20 → dw ws 6 % 8 = 0 → dw ws 3 + 8 ≤ deckSize sp → dw ws 3 % 8 = 0 →
    (descFlag ws 1 = true → dw ws 0 + descExtent ws (dw ws 5) ≤ deckSize sp ∧ dw ws 0 % 8 = 0 ∧ dw ws 5 % 8 = 0) →
    (descFlag ws 1 = false → descVa ws % 8 = 0 ∧ dw ws 5 % 8 = 0 ∧ descVa ws < 2 ^ 56) → mayPost e none sp s →
    let ms := classifyMembers ws s sp
    (descFlag ws 3 = false → ∃ t, exec (.mcast e) s = .next t ∧
      PostsTransfer e (.mcast (ws.map (BitVec.ofNat 32)) ms) none false sp s t) ∧
    (descFlag ws 3 = true → (∀ m ∈ ms, m.failed = none) → ∃ t sp',
      let s' := ms.foldl (fun acc m => raisePend m.sid (dw ws 7 / 16 % 16) acc) s
      curSpan s' = some sp' ∧ exec (.mcast e) s = .next t ∧ PostsTransfer e (.mcast (ws.map (BitVec.ofNat 32)) ms) none false sp' s' t)

namespace Sys2Proof.Claims

/-- The bytes of a source place as the engine reads them: memory it reaches, or the deck, all correctable (R360). -/
def SourceBytes (s : State) (sp : Span) (p : Place) (n : Nat) (bs : List Byte) : Prop :=
  match p with
  | .mem va => ∃ keys, memKeys (reachRun s (some (spanPier sp)) (spanCtx s sp) .engineRead va n) = some keys ∧ Correctable s keys ∧
      bs = keys.map (readByte s.mem)
  | .deck sid off => ∃ x, findSpan s sid = some x ∧ deckPoisoned s x off n = false ∧
      bs = (List.range n).map fun i => readByte s.deck (deckByteKey x (off + i))
  | .buffer _ _ _ => False

/-- The byte numbers a destination place writes: in memory, or in a deck. -/
def DestKeys (s : State) (sp : Span) (p : Place) (n : Nat) (mem deck : List Nat) : Prop :=
  match p with
  | .mem va => deck = [] ∧ memKeys (reachRun s (some (spanPier sp)) (spanCtx s sp) .engineWrite va n) = some mem
  | .deck sid off => mem = [] ∧ ∃ x, findSpan s sid = some x ∧ ((off % 8 = 0 ∧ n % 8 = 0) ∨ deckPoisoned s x off n = false) ∧ deck = (List.range n).map fun i => deckByteKey x (off + i)
  | .buffer _ _ _ => False

/-- The head of queue `q` has become `t'`; the queue's other entries, and the other spans, stand. -/
def HeadBecomes (sid q : Nat) (t' : TransferEntry) (sp : Span) (s t : State) : Prop :=
  (∀ x, x ≠ sid → findSpan t x = findSpan s x) ∧
  ∃ sp', findSpan t sid = some sp' ∧ sp' = { sp with queues := sp'.queues } ∧
    ∀ j, sp'.queues[j]? = (sp.queues[j]?).map fun l => if j = q then t' :: l.drop 1 else l

/-- The bytes a run of a copy stores, of the granules that `pick` names: in memory by address, on a deck by offset (R90, R353). -/
def pickedStores (pick : Nat → Bool) (dst : Place) (keys : List Nat) (bs : List Byte) : List (Nat × Byte) :=
  match dst with
  | .mem va => ((List.range bs.length).zip (keys.zip bs)).filterMap fun x => if pick (va + x.1) then some x.2 else none
  | .deck _ off => ((List.range bs.length).zip (keys.zip bs)).filterMap fun x => if pick (2 ^ 59 + off + x.1) then some x.2 else none
  | .buffer _ _ _ => []

/-- Memory and the decks after the granules that `pick` names of a copy's writes, row after row (R354). -/
def Wrote (pick : Nat → Bool) (pieces : List Piece) (data : List (List Byte)) (M D : Piece → List Nat) (s t : State) : Prop :=
  (∀ a, readByte t.mem a = storedOver ((pieces.zip data).flatMap fun d => pickedStores pick d.1.dst (M d.1) d.2) (readByte s.mem) a) ∧
  ∀ a, readByte t.deck a = storedOver ((pieces.zip data).flatMap fun d => pickedStores pick d.1.dst (D d.1) d.2) (readByte s.deck) a

/-- The granules an even or an uneven draw names. -/
def drawn (d : Nat) (addr : Nat) : Bool := isLate (some d) addr

/-- The bins' table as a start finds it: capacities within 31 bits. -/
def smallBins (entry : Nat → Nat) : Prop := ∀ b, binCap entry b ≤ 0x7FFFFFFF

end Sys2Proof.Claims

/-- R90, R350, R351, R353 to R358: at its start a copy of a span on a pier reads every byte of its sources, some of which it reads again
before its writes begin; it writes them, row after row, some granules at once and the others as it completes, when it leaves its queue; a
span away from a pier is not served; the lanes of BINS receive slots of their bin, each once, below its capacity; MCAST_COMPLETE writes the
completion word. -/
def Sys2Proof.Claims.TransferStepsRule : Prop :=
  (∀ s sid q sp pier l t pieces data, findSpan s sid = some sp → sp.place = .running pier → sp.queues[q]? = some (t :: l) → t.started = false →
    isBlocked sp q = false → t.kind = .copy pieces → List.Forall₂ (fun p bs => SourceBytes s sp p.src p.len bs) pieces data →
    (∀ p ∈ pieces, ∃ mem deck, DestKeys s sp p.dst p.len mem deck) → ∃ t' d, exec (.transferOpStart sid q) s = .next t' ∧
      HeadBecomes sid q { t with started := true, data := data, early := some (d, false), pending := [], readPorts := [], cause := none } sp s t' ∧
      t' = { s with spans := t'.spans, vm := t'.vm, served := t'.served, fresh := t'.fresh } ∧ keyFind pier t'.served = some (sid, q)) ∧
  (∀ s sid q sp pier l t pieces d now (M D : Piece → List Nat), findSpan s sid = some sp → sp.place = .running pier →
    sp.queues[q]? = some (t :: l) → t.started = true → t.kind = .copy pieces → t.cause = none → t.early = some (d, false) → t.peer = false →
    List.Forall₂ (fun p bs => SourceBytes s sp p.src p.len bs) pieces now → List.Forall₂ (fun p bs => bs.length = p.len) pieces t.data →
    (∀ p ∈ pieces, DestKeys s sp p.dst p.len (M p) (D p)) → ∃ t' k data, exec (.transferOpComplete sid q) s = .next t' ∧
      HeadBecomes sid q { t with data := data, early := some (k, true), readPorts := [] } sp s t' ∧
      t' = { s with
        spans := t'.spans, mem := t'.mem, poison := t'.poison, deck := t'.deck, deckPoison := t'.deckPoison, fresh := t'.fresh } ∧
      (∀ (i j : Nat) old new x, t.data[i]? = some old → now[i]? = some new → data[i]? = some x → x[j]? = old[j]? ∨ x[j]? = new[j]?) ∧
      data.length = pieces.length ∧ Wrote (drawn k) pieces data M D s t') ∧
  (∀ s sid q sp pier l t pieces k (M D : Piece → List Nat) g o, findSpan s sid = some sp → sp.place = .running pier →
    sp.queues[q]? = some (t :: l) → t.started = true → t.kind = .copy pieces → t.cause = none → t.early = some (k, true) → t.pending = [] →
    t.barrier = none → List.Forall₂ (fun p bs => bs.length = p.len) pieces t.data →
    (∀ p ∈ pieces, DestKeys s sp p.dst p.len (M p) (D p)) →
    sp.groups[t.g]? = some g → findOp g t.op = some o → o.done = false → o.cause = none → AllPerformed s sid t.g g →
    ∃ t' sp' g', exec (.transferOpComplete sid q) s = .next t' ∧ Wrote (fun a => !drawn k a) pieces t.data M D s t' ∧
      t'.peer = (peersWritten o s).peer ∧ findSpan t' sid = some sp' ∧ sp'.queues[q]? = some l ∧
      (∀ j, j ≠ q → sp'.queues[j]? = sp.queues[j]?) ∧ sp'.groups[t.g]? = some g' ∧ Completed o g g') ∧
  (∀ s sid q sp image, findSpan s sid = some sp → sp.place = .saved image →
    exec (.transferOpStart sid q) s = .next s ∧ exec (.transferOpComplete sid q) s = .next s) ∧
  (∀ s sid q sp, findSpan s sid = some sp → (sp.queues[q]? = some [] ∨ ∃ t l, sp.queues[q]? = some (t :: l) ∧ t.started = false) →
    exec (.transferOpComplete sid q) s = .next s ∧ exec (.mcastComplete sid q) s = .next s) ∧
  (∀ entry mode ov d items, smallBins entry →
    let st := (items : List (Nat × Nat × List Word)).foldl (binLane entry mode ov) ⟨[], d, [], []⟩
    st.results.map (·.1) = items.map (·.1) ∧
    (∀ (i j : Nat) x y, i < j → st.stores[i]? = some x → st.stores[j]? = some y → x.1 = y.1 → x.2.1 < y.2.1) ∧
    ∀ x ∈ st.stores, bitsOf (entry x.1) 127 96 ≤ x.2.1 ∧ x.2.1 < binCap entry x.1) ∧
  ∀ s sid q sp l t words ms g o, findSpan s sid = some sp → sp.queues[q]? = some (t :: l) → t.started = true → t.kind = .mcast words ms →
    t.barrier = none → (∀ m ∈ ms, m.done = true) → sp.groups[t.g]? = some g → findOp g t.op = some o → o.done = false → o.cause = none →
    AllPerformed s sid t.g g → ∃ t' sp', exec (.mcastComplete sid q) s = .next t' ∧ findSpan t' sid = some sp' ∧ sp'.queues[q]? = some l ∧
      (∀ a, readByte t'.mem a = readByte s.mem a) ∧
      ∀ i, i < 8 → (∀ j, j < 8 → j ≠ i → deckByteKey sp (dw (words.map (·.toNat)) 3 + i) ≠ deckByteKey sp (dw (words.map (·.toNat)) 3 + j)) →
        readByte t'.deck (deckByteKey sp (dw (words.map (·.toNat)) 3 + i)) =
          BitVec.ofNat 8 (mcastWord (descMembers (words.map (·.toNat))) ms / 256 ^ i)

/-- R350 to R370: the transfer engine, its instructions and its steps.
Where the spec leaves a point open the model's choice is that of log 9, 54 and 80. -/
def Obligations.Transfers : Prop := Sys2Proof.Claims.TransferIssueRule ∧ Sys2Proof.Claims.TransferStepsRule

namespace Sys2Proof.Claims

/-! ### Interval registers (R385, R399 to R402) -/

/-- The interval registers named hold new intervals in the active lanes, the others stand, and nothing else changes but the pc. -/
structure IvResult (s t : State) (len : Nat) (lanes : LaneMask) (w : List (Nat × (Nat → List Word))) : Prop where
  written : ∀ p ∈ w, ∀ lane, lane < 32 → lanes.getLsbD lane = true → readInterval (curGroup t) p.1 lane = p.2 lane
  kept : ∀ k lane, lane < 32 → ¬ (lanes.getLsbD lane = true ∧ k ∈ w.map (·.1)) → readInterval (curGroup t) k lane = readInterval (curGroup s) k lane
  advanced : Advanced len s t
  group : curGroup t = { curGroup s with ivHead := (curGroup t).ivHead, ivBody := (curGroup t).ivBody, slices := (curGroup t).slices }
  rest : OnlyGroup s t
  bytes : SameBytes s t

/-- Words as one number, the first lowest. -/
def numOf (ws : List Word) : Nat := ws.foldr (fun w n => w.toNat + 2 ^ 32 * n) 0

/-- Six words with bits [7:6] of the first cleared. -/
def cleared (ws : List Word) : List Word := (ws.take 1).map (· &&& 0xFFFFFF3F) ++ ws.drop 1

/-- The interval an IV instruction names, and six registers of a lane. -/
def ivOfLane (e : Enc) (s : State) (lane : Nat) : List Word := readInterval (curGroup s) e.rb.toNat lane
def sixWords (e : Enc) (s : State) (lane : Nat) : List Word := (List.range 6).map fun k => readV (curGroup s) (e.ra.toNat + k) lane

/-- A mask whose views do not lie between the first and the last (R400). -/
def badInterval (ws : List Word) : Prop :=
  ivMask ws ≠ 0 ∧ (ivLast ws < ivFirst ws ∨ ∃ v, (ivMask ws).testBit v = true ∧ (v < ivFirst ws ∨ ivLast ws < v))

/-- `n` is what IVREP gives of an interval for the reference `ch` (R401). -/
def isRepresentative (ws : List Word) (ch n : Nat) : Prop :=
  (ivMask ws = 0 → n = 0xFFFFFFFF) ∧ ∀ v, v < 64 → (ivMask ws).testBit v = true →
    (∀ u, u < 64 → (ivMask ws).testBit u = true → (2 * (v : Int) - ch).natAbs < (2 * (u : Int) - ch).natAbs ∨
      (2 * (v : Int) - ch).natAbs = (2 * (u : Int) - ch).natAbs ∧ v ≤ u) →
    n = 2 ^ 16 * ((ivPixel ws v) % (2 ^ 16 : Nat)).toNat + v

/-- IV forms (R394). -/
def ivForm (rd ra : FieldUse) : Form := { rd := rd, ra := ra, rb := .index 8, xp := .zero, u := .zero }

end Sys2Proof.Claims

/-- R399 to R402: the seven IV instructions act on each active lane's interval registers: moves clear bits [7:6] of word 0, IVLD refuses a
mask outside its views with 7:0, the queries answer as R401's table says, and a reshaped interval is normalised: it has the views given,
its first and last are the lowest and highest of them, and every view keeps its pixel. -/
def Obligations.IntervalRegisters : Prop :=
  (∀ e s, Legal (ivForm (.reg 6 1) .unused) true e s → ∃ t, exec (.ivmov e) s = .next t ∧
    LaneResult s t (wordLen e) (actLanes e s) e.rd.toNat 6 fun l => (numOf (cleared (ivOfLane e s l)), noFlags)) ∧
  (∀ e s, Legal (ivForm .unused (.reg 6 1)) true e s →
    ((∃ l, l < 32 ∧ (actLanes e s).getLsbD l = true ∧ badInterval (sixWords e s l)) → exec (.ivld e) s = .next (faultWith 7 0 (actLanes e s) s)) ∧
    ((∀ l, l < 32 → (actLanes e s).getLsbD l = true → ¬ badInterval (sixWords e s l)) → ∃ t, exec (.ivld e) s = .next t ∧
      IvResult s t (wordLen e) (actLanes e s)
        [(e.rb.toNat, fun l => if ivMask (sixWords e s l) = 0 then [63, 0, 0, 0, 0, 0] else cleared (sixWords e s l))])) ∧
  (∀ e s, Legal (ivForm (.reg 1 1) (.reg 1 1)) true e s → ∃ t, ∃ f : Nat → Nat, exec (.ivrep e) s = .next t ∧
    (∀ l, isRepresentative (ivOfLane e s l) ((readV (curGroup s) e.ra.toNat l).toNat % 128) (f l)) ∧
    LaneResult s t (wordLen e) (actLanes e s) e.rd.toNat 1 fun l => (f l, noFlags)) ∧
  (∀ e s, Legal (ivForm (.reg 1 1) (.reg 1 1)) true e s → ∃ t, exec (.ivpos e) s = .next t ∧
    LaneResult s t (wordLen e) (actLanes e s) e.rd.toNat 1 fun l =>
      let v := (readV (curGroup s) e.ra.toNat l).toNat % 64
      (if (ivMask (ivOfLane e s l)).testBit v = true then (BitVec.ofInt 32 (ivPixel (ivOfLane e s l) v)).toNat else 0x80000000, noFlags)) ∧
  (∀ e s, Legal (ivForm (.reg 1 1) .unused) true e s → ∃ t, exec (.ivcnt e) s = .next t ∧
    LaneResult s t (wordLen e) (actLanes e s) e.rd.toNat 1 fun l =>
      (((List.range 64).filter fun v => (ivMask (ivOfLane e s l)).testBit v).length, noFlags)) ∧
  (∀ e s, Legal (ivForm .unused (.reg 2 2)) true e s → ∃ t, exec (.ivmask e) s = .next t ∧
    IvResult s t (wordLen e) (actLanes e s) [(e.rb.toNat, fun l => ivNorm (ivOfLane e s l)
      (ivMask (ivOfLane e s l) &&& (readV (curGroup s) (e.ra.toNat + 1) l ++ readV (curGroup s) e.ra.toNat l : BitVec 64).toNat))]) ∧
  (∀ e s, Legal (ivForm (.index 8) (.reg 1 1)) (e.rd != e.rb) e s → ∃ t, exec (.ivsplit e) s = .next t ∧
    let cut (l : Nat) : Nat := 2 ^ ((readV (curGroup s) e.ra.toNat l).toNat % 128)
    IvResult s t (wordLen e) (actLanes e s)
      [(e.rd.toNat, fun l => ivNorm (ivOfLane e s l) (ivMask (ivOfLane e s l) / cut l * cut l)),
       (e.rb.toNat, fun l => ivNorm (ivOfLane e s l) (ivMask (ivOfLane e s l) % cut l))]) ∧
  ∀ ws m, m < 2 ^ 64 → (∀ v, m.testBit v = true → ivFirst ws ≤ v) →
    (m = 0 → ivNorm ws m = [63, 0, 0, 0, 0, 0]) ∧
    (m ≠ 0 → ivMask (ivNorm ws m) = m ∧ m.testBit (ivFirst (ivNorm ws m)) = true ∧ m.testBit (ivLast (ivNorm ws m)) = true ∧
      (∀ v, m.testBit v = true → ivFirst (ivNorm ws m) ≤ v ∧ v ≤ ivLast (ivNorm ws m)) ∧ ivSeq (ivNorm ws m) = ivSeq ws ∧
      ivDsign (ivNorm ws m) = ivDsign ws ∧ ivFollower (ivNorm ws m) = ivFollower ws ∧
      (∀ v, ivSteps (ivNorm ws m) / 2 ^ v % 2 = 1 → ivFirst (ivNorm ws m) ≤ v ∧ v < ivLast (ivNorm ws m)) ∧
      ∀ v, v < 64 → m.testBit v = true → ivPixel (ivNorm ws m) v = ivPixel ws v)

namespace Sys2Proof.Claims

/-! ### The raster engine (R374 to R398, R403) -/

/-- One more entry stands at the end of the raster queue of the issuer's pier; its span has become `f` of itself but for the issuing group;
no other span, register or byte has changed. -/
def RasterPosted (k : RasterKind) (f : Span → Span) (s t : State) : Prop :=
  rasterQueue t (curPier s) = rasterQueue s (curPier s) ++ [⟨curSid s, curNum s, (curGroup s).opCount, k⟩] ∧
  (∀ p, p ≠ curPier s → rasterQueue t p = rasterQueue s p) ∧ (∀ x, x ≠ curSid s → findSpan t x = findSpan s x) ∧
  (∀ sp, curSpan s = some sp → ∃ sp', curSpan t = some sp' ∧ sp' = { f sp with groups := sp'.groups } ∧
    ∀ n, n ≠ curNum s → sp'.groups[n]? = sp.groups[n]?) ∧
  t = { s with spans := t.spans, raster := t.raster, vm := t.vm }

/-- An entry no counter counts: it takes a number in its group's issue order. -/
def Uncounted (len : Nat) (s t : State) : Prop :=
  Advanced len s t ∧ curGroup t = { curGroup s with opCount := (curGroup s).opCount + 1, slices := (curGroup t).slices }

/-- Every part of a run lies in the device's memory: none faults or parks. -/
def Passes (ps : List Part) : Prop := ∃ keys, memKeys ps = some keys

/-- The state word of an ERSET (R376). -/
def rasterWord (e : Enc) (s : State) : BitVec 64 :=
  readG (curGroup s) (e.rd.toNat + 1) ++ readG (curGroup s) e.rd.toNat

/-- The state once the view-set reads of panel `p` are made: translations noted (R274). -/
def panelRead (s : State) (p : Nat) : State := noteRuns (curPier s) (curCtx s) [(0, viewParts s p)] s

/-- The panel's entry as an ERSET finds it, within R374. -/
def PanelFound (s : State) (p : Nat) (v : BitVec 256) : Prop :=
  Passes (viewParts s p) ∧ partsPoisoned (panelRead s p) (viewParts (panelRead s p) p) = false ∧ viewOf (panelRead s p) p = some v

/-- An instruction faults with 7:0 once its reads are made in state `u`. -/
def Refused (i : Instr) (lanes : LaneMask) (s u : State) : Prop := ∃ q, q = { u with vm := q.vm } ∧ exec i s = .next (faultWith 7 0 lanes q)

/-- Forms of the engine's instructions (R394). -/
def ersetForm : Form := { rd := .reg 2 2, ra := .unused, rb := .unused, u := .one, xp := .zero }
def erprimForm (e : Enc) : Form :=
  { rd := .index 2, ra := if e.rd = 0 then .reg 2 2 else .reg 1 1, rb := .imm, u := .one, mem := some ⟨[0, 1], false, false⟩ }
def erfetchForm : Form := { rd := .reg 6 1, ra := .index 8, rb := .unused, u := .zero }
def erflushForm : Form := { rd := .unused, ra := .unused, rb := .unused, u := .one, xp := .zero }

/-- The state once what the issuer has still to write of the record's bytes is written (R86). -/
def primSettled (e : Enc) (s : State) (sp : Span) : State :=
  if e.rd = 0 then settleRead (curRun s .load (addressOf e 64 (curGroup s) 0) 64) s
  else settleWrites (fun w => lateOf (curSid s) (curNum s) w && lateIn .deck (deckByteKey sp (deckOffset e 64 (curGroup s) 0).toNat) 64 w) s

/-- The bytes of a record an ERPRIM reads, in memory or in the deck, correctable and aligned (R396). -/
def PrimBytes (e : Enc) (s : State) (sp : Span) (record : Nat) : Prop :=
  if e.rd = 0 then
    addressOf e 64 (curGroup s) 0 % 64 = 0 ∧ ∃ keys, memKeys (curRun s .load (addressOf e 64 (curGroup s) 0) 64) = some keys ∧
      Correctable s keys ∧ record = valueAt (readByte s.mem) keys
  else
    let off := deckOffset e 64 (curGroup s) 0
    0 ≤ off ∧ off + 64 ≤ 4096 * sp.deckUnits.length ∧ off % 64 = 0 ∧ deckPoisoned s sp off.toNat 64 = false ∧
      record = valueAt (readByte s.deck) (deckKeys e 64 sp (curGroup s) 0)

/-- The slice word of a lane of an IVST, and the state once what the issuer has still to write of the view set's bytes is written (R86) and
its reads are made. -/
def sliceWord (e : Enc) (s : State) (l : Nat) : Word := readLoc (curGroup s) l (raLoc e)
def ivstRead (e : Enc) (s : State) : State :=
  let u := settlePanels ((laneList (actLanes e s)).map fun l => slicePanel (sliceWord e s l)) s
  noteRuns (curPier u) (curCtx u) ((laneList (actLanes e s)).map fun l => (l, panelParts u (slicePanel (sliceWord e s l)))) u

end Sys2Proof.Claims

/-- R376, R387, R394 to R398, R403: the raster engine's instructions: each posts one entry where the queue has room; a state takes effect
for later primitives; a state or a record outside its limits faults with 7:0 and a primitive without a state with 7:2; a primitive stalls at
16 pending; ERFETCH needs the whole gang (7:11); IVST faults with 7:0 at a panel or a row its view set lacks.
Where the spec leaves a point open the model's choice is that of log 43. -/
def Obligations.RasterIssue : Prop :=
  (∀ e s v, Legal ersetForm true e s → (curSpan s).isSome = true → ¬ held e s → myParked s = [] →
    let w := rasterWord e s
    (rsLegal w = false ∨ curPanelVa s = 0 → exec (.erset e) s = .next (faultWith 7 0 (actLanes e s) s)) ∧
    let u := settlePanels [rsPanel w] s
    (rsLegal w = true → curPanelVa s ≠ 0 → PanelFound u (rsPanel w) v → rsFits w v = false → Refused (.erset e) (actLanes e s) s u) ∧
    (rsLegal w = true → curPanelVa s ≠ 0 → PanelFound u (rsPanel w) v → rsFits w v = true →
      let r := (curRecord s (viewDepth v)).getD 0
      (bufBase r + bufAux r) % 8 = 0 →
      (rasterFull s = true → ∃ t, exec (.erset e) s = .next t ∧ t = { u with vm := t.vm }) ∧
      (rasterFull s = false → ∃ t, exec (.erset e) s = .next t ∧ Uncounted (wordLen e) u t ∧
        RasterPosted .set (fun sp => { sp with raster := some (w, v, bufBase r + bufAux r) }) u t))) ∧
  (∀ e s sp, Legal (erprimForm e) true e s → curSpan s = some sp → ¬ held e s →
    (sp.raster = none → exec (.erprim e) s = .next (faultWith 7 2 (actLanes e s) s)) ∧
    let u := primSettled e s sp
    (∀ r record, sp.raster = some r → myParked s = [] → PrimBytes e u sp record → primLegal (BitVec.ofNat 512 record) = false →
      Refused (.erprim e) (actLanes e s) s u) ∧
    (∀ w v base record, sp.raster = some (w, v, base) → myParked s = [] → PrimBytes e u sp record → primLegal (BitVec.ofNat 512 record) = true →
      (16 ≤ sp.prims.length → ∃ t, exec (.erprim e) s = .next t ∧ t = { u with vm := t.vm }) ∧
      (sp.prims.length < 16 → rasterFull s = false → ∃ t, exec (.erprim e) s = .next t ∧ Uncounted (wordLen e) u t ∧
        RasterPosted .prim (fun sp => { sp with prims := sp.prims ++ [⟨BitVec.ofNat 512 record, w, v, base, rsYFirst w, [], none⟩] }) u t))) ∧
  (∀ e s, Legal erfetchForm true e s → (curSpan s).isSome = true →
    (actLanes e s ≠ 0xFFFFFFFF → exec (.erfetch e) s = .next (faultWith 7 11 (actLanes e s) s)) ∧
    (actLanes e s = 0xFFFFFFFF → counter (curGroup s) .ld ≠ 63 → rasterFull s = false → ∃ t, exec (.erfetch e) s = .next t ∧
      Counted (wordLen e) .ld .engine (actLanes e s) [] 0 s t ∧ RasterPosted (.fetch e.ra.toNat (locNum (rdLoc e))) (fun sp => sp) s t)) ∧
  (∀ e s, Legal erflushForm true e s → (curSpan s).isSome = true → ¬ held e s →
    (rasterFull s = true → exec (.erflush e) s = .next s) ∧
    (rasterFull s = false → ∃ t, exec (.erflush e) s = .next t ∧ Uncounted (wordLen e) s t ∧ RasterPosted .flush (fun sp => sp) s t)) ∧
  ∀ e s r items, Legal { recordForm [0, 2] s r with ra := .reg 1 1, rc := .bits } (!memRp e && decide (rcField e < 8)) e s →
    (curSpan s).isSome = true → curRecord s e.rb.toNat = some r → myParked s = [] →
    (bufReadOnly r = true ∨ bufEnc r = 3 → exec (.ivst e) s = .next (faultWith 3 7 (actLanes e s) s)) ∧
    let u := ivstRead e s
    (bufReadOnly r = false → bufEnc r ≠ 3 → curPanelVa s ≠ 0 → counter (curGroup s) .st ≠ 63 → rasterFull s = false →
      (∀ l ∈ laneList (actLanes e s), Passes (panelParts u (slicePanel (sliceWord e s l))) ∧
        partsPoisoned u (panelParts u (slicePanel (sliceWord e s l))) = false) →
      let lacks (l : Nat) : Prop := viewPanels u ≤ slicePanel (sliceWord e s l) ∨
        viewRows (viewRaw u (slicePanel (sliceWord e s l))) ≤ sliceRow (sliceWord e s l)
      ((∃ l ∈ laneList (actLanes e s), lacks l) → Refused (.ivst e) (actLanes e s) s u) ∧
      (items = (laneList (actLanes e s)).map (ivstItem e r u) → (∀ l ∈ laneList (actLanes e s), ¬ lacks l) →
        (∀ i ∈ items, (∀ v ∈ viewsOf (ivMask i.interval), ivstTexel r i.interval (sliceY i.slice) v ≠ .fault) ∧
          Passes (ivstParts u r i.interval (sliceY i.slice))) → ∃ t, exec (.ivst e) s = .next t ∧
        Counted (wordLen e) .st .engine (actLanes e s) [] 0 u t ∧
        RasterPosted (.store e.rb.toNat (decide (memOrder e = 2) && decide (memScope e ≤ 1)) items 0) (fun sp => sp) u t))

namespace Sys2Proof.Claims

/-- Samples of a slice: views and pixels in range, and no two of a view with one key and rank (R382). -/
def Samples (ss : List Sample) : Prop :=
  (∀ t ∈ ss, t.v < 64 ∧ t.x < 2 ^ 14) ∧
  ss.Pairwise fun a b => a.v < b.v ∨ (a.v = b.v ∧ (a.key ≠ b.key ∨ a.rank ≠ b.rank))

/-- A depth granule's eight bytes: the depth below, the sequence id above (R375). -/
def granuleAt (m : Nat → Byte) (keys : List Nat) : Nat := valueAt m keys

/-- Samples, each with its granule's bytes in memory, no two in one. -/
def Granules (ts : List (Sample × List Part)) (keys : Nat → List Nat) : Prop :=
  (∀ (i : Nat) t, ts[i]? = some t → memKeys t.2 = some (keys i) ∧ (keys i).length = 8 ∧ (keys i).Nodup ∧
    (∀ a ∈ keys i, ∀ b ∈ keys i, a / 8 = b / 8) ∧ t.1.w < 2 ^ 32) ∧
  (∀ i j, i < ts.length → j < ts.length → i ≠ j → ∀ a ∈ keys i, a ∉ keys j)

/-- Depth granules written by an engine: the values the tests leave, a granule not yet performed holding what it held before (R90). -/
def TestsLeave (owner : Nat × Nat × Nat) (keys : Nat → List Nat) (n : Nat) (final : Nat → Nat) (s t : State) : Prop :=
  ∃ ls, t.late = s.late ++ ls ∧ (∀ w ∈ ls, w.owner = some owner ∧ w.space = .mem) ∧
    (∀ i, i < n → granuleAt (readByte (performed ls t).mem) (keys i) = final i ∧
      (granuleAt (readByte t.mem) (keys i) = final i ∨ granuleAt (readByte t.mem) (keys i) = granuleAt (readByte s.mem) (keys i))) ∧
    ∀ a, (∀ i, i < n → a ∉ keys i) → readByte t.mem a = readByte s.mem a ∧ readByte (performed ls t).mem a = readByte s.mem a

/-- A raster entry leaves the queue of its pier. -/
def RasterLeaves (pier : Nat) (before rest : List RasterEntry) (s t : State) : Prop :=
  rasterQueue t pier = before ++ rest ∧ ∀ p, p ≠ pier → rasterQueue t p = rasterQueue s p

/-- The span alone, the queue and the operation's group have changed. -/
def RasterActs (sid : Nat) (s t : State) : Prop :=
  (∀ x, x ≠ sid → findSpan t x = findSpan s x) ∧ t = { s with spans := t.spans, raster := t.raster }

end Sys2Proof.Claims

/-- R380, R382 to R389, R393, R397, R398, R403: the engine's steps. A depth test passes a nearer sample, or one as near with a sequence id
that is no higher, and writes the granule; every interval formed shows, in each of its views, the pixel of a sample of its key and rank;
a slice delivers as many of its intervals as 256 places leave room for
and is rasterised again for the rest; ERFETCH delivers the next 32 intervals in order and empty ones after them; ERFLUSH discards those undelivered; an owner-checked IVST
stores only where the granule holds its sequence id.
Where the spec leaves a point open the model's choice is that of log 42, 43, 76 and 80. -/
def Obligations.RasterSteps : Prop :=
  (∀ s owner d seq ts keys, seq < 2 ^ 32 → Granules ts keys →
    let r := testSamples owner d seq ts s
    r.1 = (ts.filter fun t => depthPasses t.1.w seq (granuleAt (readByte s.mem) ((memKeys t.2).getD []))).map (·.1) ∧
    TestsLeave owner keys ts.length (fun i => ((ts[i]?).map fun t =>
      if depthPasses t.1.w seq (granuleAt (readByte s.mem) (keys i)) then t.1.w + 2 ^ 32 * seq else granuleAt (readByte s.mem) (keys i)).getD 0)
      s r.2) ∧
  (∀ p y single b ss, Samples ss → ∀ i ∈ formIntervals p y (sliceRuns single b ss),
    ivMask i.words ≠ 0 ∧ ∀ v, (ivMask i.words).testBit v = true → v < 64 ∧
      ∃ t ∈ ss, t.v = v ∧ t.key = i.key ∧ t.rank = i.rank ∧ ivPixel i.words v = t.x) ∧
  (∀ p y single b ss, Samples ss → ∀ t ∈ ss, ∃ i ∈ formIntervals p y (sliceRuns single b ss),
    i.key = t.key ∧ i.rank = t.rank ∧ (ivMask i.words).testBit t.v = true) ∧
  (∀ s pier before x rest, rasterNext s pier (fun k => k == .set || k == .prim) = some (before, x, rest) → x.kind = .set →
    ∃ t, exec (.rasterPrimitive pier) s = .next t ∧ RasterLeaves pier before rest s t ∧ t = { s with raster := t.raster }) ∧
  (∀ s pier before x rest sp p is s1, rasterNext s pier (fun k => k == .set || k == .prim) = some (before, x, rest) → x.kind = .prim →
    findSpan s x.sid = some sp → openPrim sp = some p → isBlocked sp 4 = false → discards (rasterQueue s pier) x.sid sp = false →
    rasterSlice sp (x.sid, x.g, x.op) p (settleTests pier s) = .done is s1 → ∃ t, exec (.rasterPrimitive pier) s = .next t ∧
      t = { s1 with spans := t.spans, raster := t.raster } ∧
      let new := is.filter fun i => !beforeResume p.resume i
      let room := 256 - undelivered sp
      (new.length ≤ room ∧ rsYLast p.state ≤ p.nextY → RasterLeaves pier before rest s t) ∧
      (room < new.length ∨ p.nextY < rsYLast p.state → rasterQueue t pier = rasterQueue s pier) ∧
      ∃ sp', findSpan t x.sid = some sp' ∧ sp' = { sp with prims := sp'.prims } ∧
        (room < new.length → (openPrim sp').map (·.nextY) = some p.nextY) ∧
        sp'.prims.flatMap (·.intervals) = (sp.prims.takeWhile fun q => !primOpen q).flatMap (·.intervals) ++ p.intervals ++
          new.take room ++ ((sp.prims.dropWhile fun q => !primOpen q).drop 1).flatMap (·.intervals)) ∧
  (∀ s pier before rest sid n id iv rd sp g o, rasterNext s pier (fun k => match k with
      | .fetch _ _ => true
      | _ => false) = some (before, ⟨sid, n, id, .fetch iv rd⟩, rest) →
    findSpan s sid = some sp → sp.groups[n]? = some g → findOp g id = some o → o.done = false → o.cause = none → groupExited g = false →
    AllPerformed (settleTests pier s) sid n g → (∀ p ∈ sp.prims, ∀ i ∈ p.intervals, i.words.length = 6 ∧ i.fetch.length = 6) →
    ∃ t sp' g', exec (.erfetchComplete pier) s = .next t ∧ RasterLeaves pier before rest s t ∧ RasterActs sid (settleTests pier s) t ∧
      findSpan t sid = some sp' ∧ sp'.groups[n]? = some g' ∧ (∀ m, m ≠ n → sp'.groups[m]? = sp.groups[m]?) ∧
      sp'.prims.flatMap (·.intervals) = (sp.prims.flatMap (·.intervals)).drop 32 ∧
      (∀ l, l < 32 → readInterval g' iv l = (((sp.prims.flatMap (·.intervals))[l]?).map (·.words)).getD [63, 0, 0, 0, 0, 0]) ∧
      ∀ l j, l < 32 → j < 6 → readV g' (rd + j) l =
        (((((sp.prims.flatMap (·.intervals))[l]?).map (·.fetch)).getD [0, 0xFFFFFFFF, 0, 0, 0, 0])[j]?).getD 0) ∧
  (∀ s pier before x rest sp, rasterNext s pier (fun k => k == .flush) = some (before, x, rest) → findSpan s x.sid = some sp →
    ∃ t sp', exec (.erflushComplete pier) s = .next t ∧ RasterLeaves pier before rest s t ∧ RasterActs x.sid (settleTests pier s) t ∧
      findSpan t x.sid = some sp' ∧ sp' = { sp with prims := sp'.prims } ∧
      ∀ p, p ∈ sp'.prims ↔ ∃ q ∈ sp.prims, primOpen q = true ∧ p = { q with intervals := [] }) ∧
  (∀ s sp owner d r release i v ps, bufOwned r = true → (0 ≤ ivPixel i.interval v ∧ ivPixel i.interval v < viewWidth i.view ∧ v < viewViews i.view) →
    touchMem s sp 7 .engineRead (granuleVa (bufBase r + bufAux r) i.view (sliceRow i.slice) (sliceY i.slice) (ivPixel i.interval v).toNat v) 8 = .ok ps →
    bytesToNat (readParts s ps) / 2 ^ 32 ≠ ivSeq i.interval → ivstView s sp owner d r release i v = .ok (s, noFlags)) ∧
  (∀ s sp owner d r release i v t f, engineStore s sp owner d 3 false r release (ivstTexel r i.interval (sliceY i.slice) v) (listChannel r i.colour) = .ok (t, f) →
    (bufOwned r = false ∨ ∃ ps, (0 ≤ ivPixel i.interval v ∧ ivPixel i.interval v < viewWidth i.view ∧ v < viewViews i.view) ∧
      touchMem s sp 7 .engineRead (granuleVa (bufBase r + bufAux r) i.view (sliceRow i.slice) (sliceY i.slice) (ivPixel i.interval v).toNat v) 8 = .ok ps ∧
      bytesToNat (readParts s ps) / 2 ^ 32 = ivSeq i.interval) → ivstView s sp owner d r release i v = .ok (t, f)) ∧
  ∀ s pier before rest sid n id buf release items served sp la r s1 fl k g o, rasterNext s pier (fun k => match k with
      | .store _ _ _ _ => true
      | _ => false) = some (before, ⟨sid, n, id, .store buf release items served⟩, rest) →
    findSpan s sid = some sp → findLaunch s sp.launch = some la → la.buffers[buf]? = some r →
    let u := draw (settleWrites (lateOfOp (sid, n, id)) (settleTests pier s))
    let run := ivstRun sp (sid, n, id) u.1 r release ((ivstViews items).drop served) served noFlags u.2
    (run = (s1, fl, k, .paused) → ∃ t, exec (.ivstPerform pier) s = .next t ∧
      rasterQueue t pier = before ++ ⟨sid, n, id, .store buf release items k⟩ :: rest ∧ t = { s1 with spans := t.spans, raster := t.raster }) ∧
    (run = (s1, fl, k, .over) → sp.groups[n]? = some g → findOp g id = some o → o.done = false → o.cause = none →
      ∃ t g', exec (.ivstPerform pier) s = .next t ∧ RasterLeaves pier before rest s t ∧ SameBytes (peersWritten o (settleGroup sid n s1)) t ∧
        findGroup t sid n = some g' ∧ g'.fsr = g.fsr ||| (o.flags ||| fl))

namespace Sys2Proof.Claims

/-! ### Symmetry (R410 to R419) -/

/-- Launch `l` alone has become `la'`. -/
def LaunchBecomes (l : Nat) (la' : Launch) (s t : State) : Prop :=
  findLaunch t l = some la' ∧ (∀ x, x ≠ l → findLaunch t x = findLaunch s x) ∧ t = { s with launches := t.launches }

/-- A point's coordinates as words. -/
def pointWords (p : List Int) : List Word := p.map (BitVec.ofInt 32)

/-- The order of a launch's group, 1 outside a symmetry launch (R418). -/
def orderOf (la : Launch) : Nat := max ((la.symmetry.map fun sy => sy.elements.length).getD 0) 1

/-- What a SYMQ asks of a point: outside on some axis of span space, or of a symmetry launch's element space. -/
def isOutside (la : Launch) (spanSpace : Bool) (p : List Int) : Prop :=
  ∃ n, (if spanSpace then some (gridExtents la) else la.symmetry.map (·.extents)) = some n ∧ ∃ x ∈ n.zip p, x.2 < 0 ∨ (x.1 : Int) ≤ x.2

/-- The image of a natural point under an element, in span or element space (R411). -/
def symImage (la : Launch) (sy : Symmetry) (spanSpace : Bool) (el : SymElement) (p : List Nat) : List Nat :=
  if spanSpace then spanImage la el p else elementImage sy el p

/-- The four words SYMQ gives for a point (R418). -/
def symqIs (la : Launch) (k : Nat) (spanSpace : Bool) (p : List Int) (ws : List Word) : Prop :=
  (orderOf la ≤ k ∨ isOutside la spanSpace p → ∃ a b : Nat, (a = 1 ↔ orderOf la ≤ k) ∧ (b = 1 ↔ isOutside la spanSpace p) ∧ a ≤ 1 ∧ b ≤ 1 ∧
    ws = pointWords p ++ [BitVec.ofNat 32 (2 ^ 31 * a + 2 ^ 30 * b)]) ∧
  (k < orderOf la → ¬ isOutside la spanSpace p → la.symmetry = none → ws = pointWords p ++ [0]) ∧
  ∀ sy el, la.symmetry = some sy → sy.elements[k]? = some el → ¬ isOutside la spanSpace p →
    let q := symImage la sy spanSpace el (p.map Int.toNat)
    ∃ a b : Nat, a ≤ 1 ∧ b ≤ 1 ∧ (a = 1 ↔ 0 < k ∧ q = p.map Int.toNat) ∧
      (b = 1 ↔ ∃ (j : Nat) (x : SymElement), 0 < j ∧ j < k ∧ sy.elements[j]? = some x ∧ symImage la sy spanSpace x (p.map Int.toNat) = q) ∧
      ws = q.map (BitVec.ofNat 32) ++ [BitVec.ofNat 32 (el.t + 2 ^ 6 * a + 2 ^ 7 * b)]

/-- The coordinates SYMQ takes in a lane. -/
def symqPoint (e : Enc) (g : Group) (l : Nat) : List Int := (List.range 3).map fun k => (readLoc g l (locAdd k (raLocB e))).toInt

/-- IMST and IMSTX with the mask each takes in a lane. -/
def imstForm (x : Bool) (s : State) (r : BitVec 320) : Form :=
  { recordForm [0, 2] s r with rc := if x then .always else .unused }
noncomputable def imstRows : List ((Enc → Instr) × Bool × (Enc → Group → Nat → Nat)) :=
  [(.imst, false, fun _ _ _ => 2 ^ 16 - 1), (.imstx, true, fun e g l => (readLoc g l (rcLoc e)).toNat % 2 ^ 16)]

/-- The point and the colour of a lane of an IMST, and its list of writes (R415). -/
def imstPoint (e : Enc) (s : State) (l : Nat) : List Int := (List.range 3).map fun k => (readLoc (curGroup s) l (locAdd k (raLoc e))).toInt
def imstColour (e : Enc) (s : State) (r : BitVec 320) (l : Nat) : List Word :=
  (List.range (elemRegs r)).map fun c => readLoc (curGroup s) l (locAdd c (rdLoc e))
def imstList (e : Enc) (s : State) (la : Launch) (r : BitVec 320) (mask : Enc → Group → Nat → Nat) (l : Nat) : List ImageWrite × Bool :=
  imageList la r (mask e (curGroup s) l) (imstPoint e s l) (imstColour e s r l)

/-- An image entry at the end of the queue of the issuer's pier. -/
def ImagePosted (x : ImageEntry) (s t : State) : Prop :=
  imageQueue t (curPier s) = imageQueue s (curPier s) ++ [x] ∧ (∀ p, p ≠ curPier s → imageQueue t p = imageQueue s p) ∧
  (∀ y, y ≠ curSid s → findSpan t y = findSpan s y) ∧
  (∀ sp, curSpan s = some sp → ∃ sp', curSpan t = some sp' ∧ sp' = { sp with groups := sp'.groups } ∧
    ∀ n, n ≠ curNum s → sp'.groups[n]? = sp.groups[n]?) ∧
  t = { s with spans := t.spans, image := t.image, vm := t.vm }

end Sys2Proof.Claims

/-- R411, R413 to R419: the walker tests the next span point and gives it where it is the least of its orbit; SYMQ answers as R418 says;
IMST and IMSTX refuse what R414 and R415 refuse (3:7, 8:24, 8:5), list each point once with the colour of its first element, and post one
entry; the image unit performs an entry's writes in order and completes it.
Where the spec leaves a point open the model's choice is that of log 44 and 80. -/
def Obligations.SymmetricImages : Prop :=
  (∀ s l la sy, findLaunch s l = some la → la.symmetry = some sy → la.phase = .running →
    sy.next < gridExtent la 0 * gridExtent la 1 * gridExtent la 2 → ∃ t sy', exec (.walkerTestPoint l) s = .next t ∧
      LaunchBecomes l { la with symmetry := some sy' } s t ∧ sy' = { sy with next := sy.next + 1, found := sy'.found } ∧
      ((∀ el ∈ sy.elements, sy.next ≤ gridIndex (gridExtents la) (spanImage la el (gridPoint (gridExtents la) sy.next))) →
        sy'.found = sy.found ++ [sy.next]) ∧
      (¬ (∀ el ∈ sy.elements, sy.next ≤ gridIndex (gridExtents la) (spanImage la el (gridPoint (gridExtents la) sy.next))) →
        sy'.found = sy.found)) ∧
  (∀ e s la, Legal { rd := .reg 4 4, ra := .reg 3 1, rb := .imm, xp := .layoutB } (decide (immRri e < 32)) e s → curLaunch s = some la →
    ∃ t, ∃ ws : Group → Nat → List Word, exec (.symq e) s = .next t ∧
      (∀ g l, symqIs la (immRri e % 16) ((immRri e).testBit 4) (symqPoint e g l) (ws g l)) ∧
      Result e (rdLocB e) 4 (fun g l => (numOf (ws g l), noFlags)) s t) ∧
  (∀ p ∈ imstRows, ∀ e s r la, Legal (imstForm p.2.1 s r) (!memRp e) e s → (curSpan s).isSome = true → curRecord s e.rb.toNat = some r →
    curLaunch s = some la → myParked s = [] →
    let ls := laneList (actLanes e s)
    let out := ∃ sy, la.symmetry = some sy ∧ ∃ l ∈ ls, ∃ x ∈ sy.extents.zip (imstPoint e s l), x.2 < 0 ∨ (x.1 : Int) ≤ x.2
    (bufReadOnly r = true ∨ bufEnc r = 3 → exec (p.1 e) s = .next (faultWith 3 7 (actLanes e s) s)) ∧
    (bufReadOnly r = false → bufEnc r ≠ 3 → imageRefused la r = true → exec (p.1 e) s = .next (faultWith 8 24 (actLanes e s) s)) ∧
    (bufReadOnly r = false → bufEnc r ≠ 3 → imageRefused la r = false → out → exec (p.1 e) s = .next (faultWith 8 5 (actLanes e s) s)) ∧
    (bufReadOnly r = false → bufEnc r ≠ 3 → imageRefused la r = false → ¬ out →
      (∀ l ∈ ls, ∀ w ∈ (imstList e s la r p.2.2 l).1, imageTexel r w ≠ .fault ∧ Passes (imageParts s r w)) →
      counter (curGroup s) .im ≠ 63 → (imageQueue s (curPier s)).length < 64 → ∃ t fl, exec (p.1 e) s = .next t ∧
        Counted (wordLen e) .im .engine (actLanes e s) [] 0 s t ∧
        (fl = flagSYMC ∧ (∃ l ∈ ls, (imstList e s la r p.2.2 l).2 = true) ∨ fl = 0 ∧ ∀ l ∈ ls, (imstList e s la r p.2.2 l).2 = false) ∧
        ImagePosted ⟨curSid s, curNum s, (curGroup s).opCount, e.rb.toNat, decide (memOrder e = 2) && decide (memScope e ≤ 1),
          ls.flatMap fun l => (imstList e s la r p.2.2 l).1, 0, fl⟩ s t)) ∧
  (∀ la r mask p x,
    let self (j : Nat × Option SymElement) : Prop := 0 < j.1 ∧ imagePoint la j.2 p = p
    let colour (j : Nat × Option SymElement) : List Word := transformColour r ((j.2.map (·.t)).getD 0) x
    let ws := (imageList la r mask p x).1
    (∀ w ∈ ws, ∃ j ∈ imageElements la, mask.testBit j.1 = true ∧ ¬ self j ∧ w = imageWrite (imagePoint la j.2 p) (colour j)) ∧
    (∀ j ∈ imageElements la, mask.testBit j.1 = true → ¬ self j →
      ∃ w ∈ ws, w = { imageWrite (imagePoint la j.2 p) (colour j) with regs := w.regs }) ∧
    ws.Pairwise (fun a b => ¬ (a.x = b.x ∧ a.y = b.y ∧ a.z = b.z)) ∧
    ((imageList la r mask p x).2 = true ↔ ∃ j ∈ imageElements la, self j ∧ colourChanged r (colour j) x = true)) ∧
  ∀ s pier x sp la r s1 fl k g o, (imageQueue s pier).find? (fun y => !imageHeld s y) = some x → findSpan s x.sid = some sp →
    isBlocked sp 5 = false → findLaunch s sp.launch = some la → la.buffers[x.buf]? = some r →
    let u := draw (settleWrites (lateOfOp (x.sid, x.g, x.op)) s)
    let run := imageRun sp (x.sid, x.g, x.op) u.1 r x.release (x.writes.drop x.done) x.done x.flags u.2
    let mine (y : ImageEntry) : Bool := y.sid == x.sid && y.g == x.g && y.op == x.op
    (run = (s1, fl, k, .paused) → ∃ t, exec (.imageEntryComplete pier) s = .next t ∧ t = { s1 with image := t.image } ∧
      imageQueue t pier = (imageQueue s pier).map fun y => if mine y then { x with done := k, flags := fl } else y) ∧
    (run = (s1, fl, k, .over) → sp.groups[x.g]? = some g → findOp g x.op = some o → o.done = false → o.cause = none →
      ∃ t g', exec (.imageEntryComplete pier) s = .next t ∧ SameBytes (peersWritten o (settleGroup x.sid x.g s1)) t ∧
        findGroup t x.sid x.g = some g' ∧ g'.fsr = g.fsr ||| fl ∧ imageQueue t pier = (imageQueue s pier).filter fun y => !mine y)

namespace Sys2Proof.Claims

/-! ### The trestle (R282 to R293) -/

/-- Launch `l` has a trestle `tr`, and nothing else of the launch has changed. -/
def TrestleIs (l : Nat) (la : Launch) (tr : Trestle) (t : State) : Prop := findLaunch t l = some { la with trestle := tr }

/-- The first page and the count an SMWAIT names (R289). -/
def smwaitStart (e : Enc) (s : State) : Nat :=
  (((pair (curGroup s) 0 (raLoc e)).toNat / 2 ^ 21 * 2 ^ 21 : Int) + immMem e * 2 ^ 21).emod (2 ^ 64) |>.toNat
def smwaitPages (e : Enc) (s : State) : Nat × Nat := (smwaitStart e s / 2 ^ 21, (readLoc (curGroup s) 0 (rdLoc e)).toNat)

/-- The form of SMWAIT and RESQ. -/
def pagesForm (u : UUse) : Form := { rd := .reg 1 1, ra := .reg 2 2, rb := .imm, u := u }

/-- The wait of a PMARK of a serial number. -/
def marksWait (serial : Nat) (w : GroupWait) : Prop := w.wait = .pmark serial false

/-- What a PMARK's answer makes of its group's waits. -/
def answeredWaits (serial : Nat) (a : GroupWait → GroupWait) (l l' : List GroupWait) : Prop :=
  l'.length = l.length ∧ ∀ (i : Nat) w, l[i]? = some w → ∃ w', l'[i]? = some w' ∧ (marksWait serial w → w' = a w) ∧ (¬ marksWait serial w → w' = w)

end Sys2Proof.Claims

/-- R287 to R290: PMARK is posted to its launch's trestle and its group waits; a miss under TRAP traps 9:23 past it; SMWAIT goes on once its
range is resident and blocks until then; RESQ gives the page's state; each changes nothing else. -/
def Sys2Proof.Claims.ResidencyInstructionsRule : Prop :=
  (∀ e s l la, Legal { rd := .unused, ra := .imm, rb := .imm, xp := .layoutB, u := .one } true e s → (curSpan s).isSome = true → ¬ held e s →
    curLaunchId s = some l → findLaunch s l = some la →
    (noWait s → ∃ t, exec (.pmark e) s = .next t ∧ t = { s with spans := t.spans, launches := t.launches } ∧
      (∀ y, y ≠ curSid s → findSpan t y = findSpan s y) ∧ (∀ x, x ≠ l → findLaunch t x = findLaunch s x) ∧
      TrestleIs l la { la.trestle with posted := la.trestle.posted ++ [(s.time, curSid s, curNum s, immRj e)] } t ∧
      curGroup t = { curGroup s with waits := otherWaits s ++ [⟨issuerSlice s, .pmark s.time false, false, false⟩] }) ∧
    (∀ w n, curWait s = some w → w.wait = .pmark n false →
      (w.woken = true → ∃ t, exec (.pmark e) s = .next t ∧ EndsWait (wordLen e) s t) ∧ (w.woken = false → exec (.pmark e) s = .next s)) ∧
    (∀ w n, curWait s = some w → w.wait = .pmark n true → inSkid s = false →
      ∃ t, EndsWait (wordLen e) s t ∧ exec (.pmark e) s = .next (faultWith 9 23 (actLanes e s) t)) ∧
    (∀ w rs, curWait s = some w → w.wait = .pages rs true →
      ((∀ r ∈ rs, rangeResident s (curCtx s) r = true) → ∃ t, exec (.pmark e) s = .next t ∧ EndsWait (wordLen e) s t) ∧
      (¬ (∀ r ∈ rs, rangeResident s (curCtx s) r = true) → exec (.pmark e) s = .next s))) ∧
  (∀ e s, Legal { pagesForm .one with mem := some ⟨[0], false, false⟩ } true e s → ¬ held e s →
    (inHandler s = true → exec (.smwait e) s = .next (faultWith 0 2 (gangLanes s) s)) ∧
    (inHandler s = false → noWait s → 2 ^ 57 ≤ smwaitStart e s → exec (.smwait e) s = .next (faultWith 3 6 (actLanes e s) s)) ∧
    (inHandler s = false → noWait s → smwaitStart e s < 2 ^ 57 → rangeResident s (curCtx s) (smwaitPages e s) = true →
      ∃ t, exec (.smwait e) s = .next t ∧ GoesOn (wordLen e) s t) ∧
    (inHandler s = false → noWait s → smwaitStart e s < 2 ^ 57 → rangeResident s (curCtx s) (smwaitPages e s) = false →
      ∃ t, exec (.smwait e) s = .next t ∧ Blocks (.pages [smwaitPages e s] false) s t) ∧
    (∀ w rs, inHandler s = false → curWait s = some w → w.wait = .pages rs false →
      ((∀ r ∈ rs, rangeResident s (curCtx s) r = true) → ∃ t, exec (.smwait e) s = .next t ∧ EndsWait (wordLen e) s t) ∧
      (¬ (∀ r ∈ rs, rangeResident s (curCtx s) r = true) → exec (.smwait e) s = .next s))) ∧
  (∀ e s la, Legal (pagesForm .both) true e s → curLaunch s = some la → ∃ t, exec (.resq e) s = .next t ∧
    Result e (rdLoc e) 1 (fun g l => (pageWord s la (addressOf e (2 ^ 21) g l), noFlags)) s t) ∧
  (∀ s la va x, look s none la.ctx va = .ok x →
    let w := pageWord s la va
    w / 64 = x.tier ∧ (w.testBit 5 = true ↔ x.window = true) ∧ (w.testBit 4 = true ↔ x.hostOwned = true) ∧
    (w.testBit 3 = true ↔ pinCount la.trestle (va / 2 ^ 21) ≠ 0) ∧ (w.testBit 2 = true ↔ frameLocked s x.tier (leafPa x va / 2 ^ 21) = true) ∧
    (w.testBit 1 = true ↔ (managedPage s la.ctx (va / 2 ^ 21)).isSome = true) ∧
    (w.testBit 0 = true ↔ pageResident s la.ctx (va / 2 ^ 21) = true)) ∧
  (∀ s la va, (∀ x, look s none la.ctx va ≠ .ok x) →
    ((pageWord s la va).testBit 3 = true ↔ pinCount la.trestle (va / 2 ^ 21) ≠ 0) ∧ pageWord s la va / 64 = 3) ∧
  ∀ s ctx p n, rangeResident s ctx (p, n) = true ↔ ∀ i, i < n → pageResident s ctx (p + i) = true

/-- R285 to R287, R293: PMARK_APPLY raises the marker by the amount of the first PMARK posted, up to its top, counts a miss where a REQUIRE it
crosses is not resident, and answers its group by the policy; a move starts for the first ready wish by priority, entry and page, its frame
taken from the end of a list; in host-assisted mode the host is asked instead; sixteen moves are the most. -/
def Sys2Proof.Claims.TrestleStepsRule : Prop :=
  (∀ s sid n sp la g serial amount rest, findSpan s sid = some sp → findLaunch s sp.launch = some la → sp.groups[n]? = some g →
    la.trestle.posted = (serial, sid, n, amount) :: rest →
    let new := min (la.trestle.marker + amount) (2 ^ 64 - 1)
    (missedEntries s la la.trestle.marker new = none → exec (.pmarkApply sid n) s = .next s) ∧
    ∀ missed, missedEntries s la la.trestle.marker new = some missed → ∃ t tr g', exec (.pmarkApply sid n) s = .next t ∧ SameBytes s t ∧ TrestleIs sp.launch la tr t ∧ tr.marker = new ∧ tr.posted = rest ∧
      findGroup t sid n = some g' ∧ SameRegisters g g' ∧
      (missed = [] → tr.misses = la.trestle.misses ∧ tr.lastMiss = la.trestle.lastMiss ∧
        answeredWaits serial (fun w => { w with woken := true }) g.waits g'.waits) ∧
      (missed ≠ [] → tr.misses = min (la.trestle.misses + 1) 0xFFFFFFFF ∧ (∃ r ∈ missed, tr.lastMiss = r.1) ∧
        (∀ r ∈ missed, r.1 ≤ tr.lastMiss) ∧
        (la.trestle.policy = 0 → answeredWaits serial (fun w => { w with wait := .pmark serial true }) g.waits g'.waits) ∧
        (la.trestle.policy = 1 → answeredWaits serial (fun w => { w with wait := .pages (missed.map fun r => (r.2.1, r.2.2)) true }) g.waits g'.waits) ∧
        (2 ≤ la.trestle.policy → answeredWaits serial (fun w => { w with woken := true }) g.waits g'.waits))) ∧
  (∀ s l la w x, let s1 := settleTrestle l s
    findLaunch s1 l = some la → la.trestle.ended = false → lastRunOver s1 l la = false → hwMode s 2 = true → (trestleMoves s1 l).length < 16 →
    firstWish ((windowWishes s1 l la.ctx la.trestle [] la.trestle.window).filter (wishReady s1 l la.trestle)) = some w →
    managedPage s1 la.ctx w.page = some x → ∃ t m tr, exec (.trestleMoveStart l) s = .next t ∧ t = { s1 with launches := t.launches, vm := t.vm } ∧
      t.vm = { s1.vm with moves := s1.vm.moves ++ [m], nextMove := s1.vm.nextMove + 1 } ∧ m.page = w.page ∧ m.ctx = la.ctx ∧ m.srcTier = x.tier ∧
      m.srcFrame = x.base / 2 ^ 21 ∧ m.started = false ∧ TrestleIs l la tr t ∧
      (w.toHbm = true → m.dstTier = 0 ∧ la.trestle.hbmList.getLast? = some m.dstFrame ∧ tr = { la.trestle with hbmList := la.trestle.hbmList.dropLast }) ∧
      (w.toHbm = false → m.dstTier = 1 ∧ la.trestle.farList.getLast? = some m.dstFrame ∧ tr = { la.trestle with farList := la.trestle.farList.dropLast })) ∧
  (∀ s l la, let s1 := settleTrestle l s
    findLaunch s1 l = some la → hwMode s 2 = true → 16 ≤ (trestleMoves s1 l).length → exec (.trestleMoveStart l) s = .next s1) ∧
  (∀ s l la w, let s1 := settleTrestle l s
    findLaunch s1 l = some la → la.trestle.ended = false → lastRunOver s1 l la = false → hwMode s 2 = false →
    firstWish ((windowWishes s1 l la.ctx la.trestle [] la.trestle.window).filter (wishReady s1 l la.trestle)) = some w →
    ∃ t tr, t = { s1 with launches := t.launches } ∧ TrestleIs l la tr t ∧ tr = { la.trestle with window := tr.window } ∧
      (tr.window = la.trestle.window.map fun v => if v.index = w.entry then { v with asked := v.asked ++ [w.page - v.page] } else v) ∧
      exec (.trestleMoveStart l) s = .next
        (queueFault ⟨la.ctx, 512 * w.page, causeOf 9 23, if w.toHbm then 6 else 7, 0, 2 ^ 21 * w.page, false⟩ t)) ∧
  ∀ l w, firstWish l = some w → w ∈ l ∧ ∀ v ∈ l, wishBefore v w = false

/-- R284 to R293: the trestle, its instructions and its steps.
Where the spec leaves a point open the model's choice is that of log 45, 46 and 47. -/
def Obligations.TrestleResidency : Prop := Sys2Proof.Claims.ResidencyInstructionsRule ∧ Sys2Proof.Claims.TrestleStepsRule

namespace Sys2Proof.Claims

/-! ### Items, children and prologues (R237, R238, R252 to R254) -/

/-- The form of QPOP and QPUSH. -/
def itemForm : Form := { rd := .reg 2 2, ra := .unused, rb := .unused, mem := some ⟨[0], false, false⟩ }

/-- A bay of a launch has an input, and an output (R252). -/
def bayTakes (la : Launch) (b : Nat) : Prop := recPipeline la.record ≠ 0 ∧ b ≠ 0
def bayGives (la : Launch) (b : Nat) : Prop := recPipeline la.record ≠ 0 ∧ b + 1 < la.bays.length

/-- The queue of items of bay `b` of launch `l` alone has changed, to `f` of itself; the issuing group too. -/
def ItemsBecome (l b : Nat) (f : List (BitVec 64) → List (BitVec 64)) (la : Launch) (s t : State) : Prop :=
  t = { (modCur s fun _ => curGroup t) with launches := t.launches } ∧ (∀ x, x ≠ l → findLaunch t x = findLaunch s x) ∧
  ∃ la', findLaunch t l = some la' ∧ la' = { la with bays := la'.bays } ∧
    ∀ j, la'.bays[j]? = (la.bays[j]?).map fun y => if j = b then { y with input := f y.input } else y

/-- Registers other than the pairs written stand. -/
def PairsKept (e : Enc) (s t : State) : Prop :=
  let rd := locNum (rdLoc e)
  (∀ r l, l < 32 → (e.u = true ∨ (actLanes e s).getLsbD l = false ∨ r < rd ∨ rd + 2 ≤ r) → readV (curGroup t) r l = readV (curGroup s) r l) ∧
  ∀ r, (e.u = false ∨ r < rd ∨ rd + 2 ≤ r) → readG (curGroup t) r = readG (curGroup s) r

end Sys2Proof.Claims

/-- R252: QPOP gives each lane the next item of its bay's input, and the end code beyond them; it blocks while the input is empty and more may
come. QPUSH appends the lanes' items to the next bay's input, or blocks for room. Either is illegal where the bay has no such queue. -/
def Sys2Proof.Claims.ItemsRule : Prop :=
  (∀ e s sp la b, Legal itemForm true e s → curSpan s = some sp → findLaunch s sp.launch = some la → la.bays[sp.bay]? = some b → ¬ held e s →
    inHandler s = false →
    (¬ bayTakes la sp.bay → exec (.qpop e) s = .next (faultWith 0 2 (actLanes e s) s)) ∧
    (bayTakes la sp.bay → wholeGang s = false → exec (.qpop e) s = .next (faultWith 0 11 (actLanes e s) s)) ∧
    (bayTakes la sp.bay → wholeGang s = true → actLanes e s = 0 → ∃ t, exec (.qpop e) s = .next t ∧ GoesOn (wordLen e) s t) ∧
    (bayTakes la sp.bay → wholeGang s = true → actLanes e s ≠ 0 → b.input = [] → inputEnded s sp.launch la sp.bay = false →
      ∃ t, exec (.qpop e) s = .next t ∧ Blocks .pop s t) ∧
    (bayTakes la sp.bay → wholeGang s = true → actLanes e s ≠ 0 → b.input ≠ [] ∨ inputEnded s sp.launch la sp.bay = true →
      ∃ t, exec (.qpop e) s = .next t ∧ ItemsBecome sp.launch sp.bay (List.drop (accessesOf e s).length) la s t ∧ Advanced (wordLen e) s t ∧
        (∀ (i : Nat) l, (accessesOf e s)[i]? = some l → pair (curGroup t) l (rdLoc e) = (b.input[i]?).getD 0xFFFFFFFFFFFFFFFF) ∧
        PairsKept e s t ∧ curGroup t = { curGroup s with
          vregs := (curGroup t).vregs, gregs := (curGroup t).gregs, waits := otherWaits s, slices := (curGroup t).slices })) ∧
  ∀ e s sp la b b', Legal itemForm true e s → curSpan s = some sp → findLaunch s sp.launch = some la → la.bays[sp.bay]? = some b →
    (bayGives la sp.bay → la.bays[sp.bay + 1]? = some b') → ¬ held e s → inHandler s = false →
    let n := (accessesOf e s).length
    (¬ bayGives la sp.bay → exec (.qpush e) s = .next (faultWith 0 2 (actLanes e s) s)) ∧
    (bayGives la sp.bay → wholeGang s = false → exec (.qpush e) s = .next (faultWith 0 11 (actLanes e s) s)) ∧
    (bayGives la sp.bay → wholeGang s = true → actLanes e s ≠ 0 → b.capacity - b'.input.length < n →
      ∃ t, exec (.qpush e) s = .next t ∧ Blocks (.push n) s t) ∧
    (bayGives la sp.bay → wholeGang s = true → actLanes e s ≠ 0 → n ≤ b.capacity - b'.input.length →
      ∃ t, exec (.qpush e) s = .next t ∧
        ItemsBecome sp.launch (sp.bay + 1) (fun q => q ++ (accessesOf e s).map fun l => pair (curGroup s) l (rdLoc e)) la s t ∧
        Advanced (wordLen e) s t ∧ curGroup t = { curGroup s with waits := otherWaits s, slices := (curGroup t).slices })

/-- R253, R254: SPAWN enters a child launch and gives the number of children not complete; a misaligned record traps 3:4 and a ninth level
10:2, and 256 children not dispatched stall it. JOIN goes on once every child of its first issue has completed, and blocks until then. -/
def Sys2Proof.Claims.ChildrenRule : Prop :=
  (∀ e s sp la, Legal { rd := .reg 1 1, ra := .reg 2 2, rb := .imm, u := .one, mem := some ⟨[0], false, false⟩ } true e s → curSpan s = some sp →
    findLaunch s sp.launch = some la → ¬ held e s →
    let va := addressOf e 128 (curGroup s) 0
    (inHandler s = true → exec (.spawn e) s = .next (faultWith 0 2 (gangLanes s) s)) ∧
    (inHandler s = false → wholeGang s = false → exec (.spawn e) s = .next (faultWith 0 11 (gangLanes s) s)) ∧
    (inHandler s = false → wholeGang s = true →
      (va % 128 ≠ 0 → exec (.spawn e) s = .next (faultWith 3 4 (gangLanes s) s)) ∧
      (va % 128 = 0 → 8 ≤ la.depth → exec (.spawn e) s = .next (faultWith 10 2 (gangLanes s) s)) ∧
      (va % 128 = 0 → la.depth < 8 → 256 ≤ waitingChildren s la.slot → exec (.spawn e) s = .next s) ∧
      (va % 128 = 0 → la.depth < 8 → waitingChildren s la.slot < 256 → ∀ s1 s2,
        consumeLaunch (fun rec => newLaunch la.slot none la.ctx (some (curSid s)) (la.depth + 1) rec none la.destroyed) la.ctx va s = (some s1, s2) →
        ∃ t sp1 sp', exec (.spawn e) s = .next t ∧ curSpan s1 = some sp1 ∧ OnlySpan (curSid s) s1 t ∧ findSpan t (curSid s) = some sp' ∧
          sp' = { sp1 with children := sp1.children ++ [s.fe.nextLaunch], groups := sp'.groups } ∧
          (∀ n, n ≠ curNum s → sp'.groups[n]? = sp1.groups[n]?) ∧ Advanced (wordLen e) s1 t ∧
          curGroup t = { curGroup s1 with gregs := (curGroup t).gregs, slices := (curGroup t).slices } ∧
          ∀ r, readG (curGroup t) r = if r = locNum (rdLoc e) then BitVec.ofNat 32 (min (sp.children.length + 1) 65535)
            else readG (curGroup s1) r))) ∧
  ∀ e s sp, Legal { rd := .unused, ra := .unused, rb := .unused, u := .one } true e s → curSpan s = some sp → ¬ held e s →
    inHandler s = false → wholeGang s = true →
    (noWait s → ((∀ c ∈ sp.children, findLaunch s c = none) → ∃ t, exec (.join e) s = .next t ∧ EndsWait (wordLen e) s t) ∧
      (¬ (∀ c ∈ sp.children, findLaunch s c = none) → ∃ t, exec (.join e) s = .next t ∧ Blocks (.join sp.children) s t)) ∧
    ∀ w cs, curWait s = some w → w.wait = .join cs →
      ((∀ c ∈ cs, findLaunch s c = none) → ∃ t, exec (.join e) s = .next t ∧ EndsWait (wordLen e) s t) ∧
      (¬ (∀ c ∈ cs, findLaunch s c = none) → ∃ t, exec (.join e) s = .next t ∧ Blocks (.join cs) s t)

/-- R252 to R254: work items and child launches.
Where the spec leaves a point open the model's choice is that of log 16 and 17. -/
def Obligations.QueuesAndItems : Prop := Sys2Proof.Claims.ItemsRule ∧ Sys2Proof.Claims.ChildrenRule

namespace Sys2Proof.Claims

/-- Prologue engine `k` runs the prologue of launch `l`. -/
def RunsPrologue (s : State) (k l : Nat) (la : Launch) : Prop :=
  s.issuer = .prologue k ∧ (∃ en, s.fe.engines[k]? = some en ∧ en.launch = some l) ∧ findLaunch s l = some la

/-- The forms of the instructions that end a prologue. -/
def endForm (imm : Bool) : Form :=
  if imm then { rd := .unused, ra := .imm, rb := .imm, xp := .layoutB, u := .one, prologue := true }
  else { rd := .unused, ra := .unused, rb := .unused, u := .one, prologue := true }

/-- PEND and PREPEAT: their form, their limit, and the n that g16 is compared with, 0 for PEND (R238). -/
noncomputable def endRows : List ((Enc → Instr) × Bool × (Enc → Bool) × (Enc → Nat)) :=
  [(.pend, false, fun _ => true, fun _ => 0),
   (.prepeat, true, fun e => decide (1 ≤ immRj e) && decide (immRj e < 4096), immRj)]

/-- The launch with the record its prologue leaves: words 0 to 15 from g0 to g15 (R237). -/
def RecordFrom (g : Group) (la la' : Launch) : Prop :=
  (∀ k, k < 16 → la'.record.toNat / 2 ^ (32 * k) % 2 ^ 32 = (readG g k).toNat) ∧ la'.record.toNat / 2 ^ 512 = la.record.toNat / 2 ^ 512

/-- The launch once its prologue has run, before its check. -/
def ranPrologue (s : State) (la : Launch) (n : Nat) (la' : Launch) : Prop :=
  la' = { la with
    record := la'.record, repeatTo := if (readG (curGroup s) 16).toNat < n then la.run + 1 else 0, runsDone := la.runsDone + 1 } ∧
  RecordFrom (curGroup s) la la'

/-- Engine `k` is free, launch `l` has become `la'` but for its trestle, and nothing else has changed from `s1`. -/
def EngineFreed (k l : Nat) (la' : Launch) (s1 t : State) : Prop :=
  (∀ (j : Nat) en, s1.fe.engines[j]? = some en → t.fe.engines[j]? = some (if j = k then { en with launch := none } else en)) ∧
  (∃ tr, findLaunch t l = some { la' with trestle := tr }) ∧ (∀ x, x ≠ l → findLaunch t x = findLaunch s1 x) ∧
  t = { s1 with launches := t.launches, fe := { s1.fe with engines := t.fe.engines } }

end Sys2Proof.Claims

/-- R237, R238: an engine that is free starts a launch's prologue with the record's words and the run number in its registers; PEND and PREPEAT
write the record back and, where it passes the check, the launch runs, else it fails 10:r; PCANCEL ends the launch with its code; each faults
0:2 on a pier; 4,096 instructions fail the launch 10:26; PREPEAT n asks for a further run where g16 is below n, and that run begins when the
one before is over.
Where the spec leaves a point open the model's choice is that of log 14, 15 and 27. -/
def Obligations.Prologues : Prop :=
  (∀ p ∈ endRows, ∀ e s k l la, Legal (endForm p.2.1) (p.2.2.1 e) e s → RunsPrologue s k l la →
    (held e s → ∃ t, exec (p.1 e) s = .next t ∧ GoesOn (wordLen e) s t) ∧
    (¬ held e s → ∃ la1, ranPrologue s la (p.2.2.2 e) la1 ∧
      (∀ la2 s1, (checkLaunch la1).run s = (.ok la2, s1) → ∃ t, exec (p.1 e) s = .next t ∧ EngineFreed k l la2 s1 t) ∧
      (∀ r s1, (checkLaunch la1).run s = (.error (.fail r), s1) →
        exec (p.1 e) s = .next (failLaunch l (causeOf 10 r) (noteError (causeOf 10 r) (modLaunch s1 l fun _ => la1)))))) ∧
  (∀ e s k l la, Legal (endForm true) (immRj e < 4096) e s → RunsPrologue s k l la → ¬ held e s → ∃ t, exec (.pcancel e) s = .next t ∧
    EngineFreed k l { la with cancel := some (immRj e), runsDone := la.runsDone + 1, phase := .finishing } s t) ∧
  (∀ e s sid n sl, s.issuer = .gang sid n sl →
    (Legal (endForm false) true e s → exec (.pend e) s = .next (faultWith 0 2 (actLanes e s) s)) ∧
    (Legal (endForm true) (immRj e < 4096) e s → exec (.pcancel e) s = .next (faultWith 0 2 (actLanes e s) s)) ∧
    (Legal (endForm true) (decide (1 ≤ immRj e) && decide (immRj e < 4096)) e s → exec (.prepeat e) s = .next (faultWith 0 2 (actLanes e s) s))) ∧
  (∀ s l la k, findLaunch s l = some la → la.phase = .prologue → (la.run = 0 → prologueBehind s l la = false) →
    freeEngine s = some k → ∃ t, ∃ en : PrologueEngine, exec (.prologueStart l) s = .next t ∧ t.fe.engines[k]? = some en ∧ en.launch = some l ∧ en.count = 0 ∧
      (∀ j, j < 16 → (readG en.grp j).toNat = la.record.toNat / 2 ^ (32 * j) % 2 ^ 32) ∧ readG en.grp 16 = BitVec.ofNat 32 la.run ∧
      (∀ (j : Nat) (sl : Slice), en.grp.slices[j]? = some sl → sl.pc = BitVec.ofNat 57 (recPrologue la.record)) ∧
      findLaunch t l = some { la with phase := .inPrologue k } ∧ (∀ x, x ≠ l → findLaunch t x = findLaunch s x) ∧
      (∀ j, j ≠ k → t.fe.engines[j]? = s.fe.engines[j]?) ∧ t = { s with launches := t.launches, fe := { s.fe with engines := t.fe.engines } }) ∧
  (∀ s, freeEngine s = none → ∀ l, exec (.prologueStart l) s = .next s) ∧
  (∀ s k en l, s.fe.engines[k]? = some en → en.launch = some l →
    (4096 ≤ en.count → exec (.prologueInstructionLimit k) s = .next (failLaunch l (causeOf 10 26) s)) ∧
    (en.count < 4096 → exec (.prologueInstructionLimit k) s = .next s)) ∧
  (∀ s l c la, findLaunch s l = some la → findLaunch (failLaunch l c s) l = some { la with failed := some c, phase := .finishing } ∧
    ∀ (k : Nat) en, s.fe.engines[k]? = some en → ∃ en' : PrologueEngine, (failLaunch l c s).fe.engines[k]? = some en' ∧
      en'.launch = if en.launch = some l then none else en.launch) ∧
  ∀ s l la, findLaunch s l = some la →
    (runOver s l la = true → la.run < la.repeatTo → ∃ t, exec (.prologueRerun l) s = .next t ∧
      LaunchBecomes l { la with phase := .prologue, run := la.run + 1 } { s with spans := s.spans.filter fun p => p.2.launch != l } t) ∧
    (runOver s l la = false ∨ la.repeatTo ≤ la.run → exec (.prologueRerun l) s = .next s)

namespace Sys2Proof.Claims

/-! ### Host queues, packets and slots (R229 to R241, R255, R256, R438) -/

/-- Host queue `q` alone has become `x`. -/
def QueueIs (q : Nat) (x : Queue) (s t : State) : Prop := findQueue t q = x ∧ ∀ p, p ≠ q → findQueue t p = findQueue s p

/-- Slot `n` alone has become `x`. -/
def SlotIs (n : Nat) (x : Slot) (s t : State) : Prop := findSlot t n = x ∧ ∀ m, m ≠ n → findSlot t m = findSlot s m

/-- Every byte of memory reads as before but those stored; no peer, deck or operand buffer byte has changed. -/
def MemoryIs (stores : List (Nat × Byte)) (s t : State) : Prop :=
  (∀ a, readByte t.mem a = storedOver stores (readByte s.mem) a) ∧ t.peer = s.peer ∧ t.deck = s.deck ∧ t.opbuf = s.opbuf

/-- The eight bytes of a number from a byte of host memory on. -/
def hostWord (pa v : Nat) : List (Nat × Byte) := ((List.range 8).map fun i => hostKey pa + i).zip (natToBytes 8 v)

/-- Only the front end's queues and slots, the interrupts raised and memory have changed. -/
def FrontEndOnly (s t : State) : Prop :=
  t = { s with
    fe := { s.fe with queues := t.fe.queues, slots := t.fe.slots }
    mem := t.mem, poison := t.poison
    outside := { s.outside with vectors := t.outside.vectors } }

/-- The read index of a queue written back: eight bytes of host memory (R231). -/
def backWritten (x : Queue) : List (Nat × Byte) := hostWord (descReadVa x.desc) x.readIndex.toNat

/-- The packet the queue of slot `n` consumes next: read, well formed, of type `k` (R231, R232). -/
structure Takes (s : State) (n q p k : Nat) : Prop where
  queue : consuming s n = some q
  answered : hostRefuses s (packetAddr (findQueue s q)) = false
  clean : memPoisoned s (packetKey (findQueue s q)) 64 = false
  packet : nextPacket s (findQueue s q) = p
  type : pktType p = k
  legal : packetLegal p = true

/-- A queue with one packet more consumed. -/
def consumed (x : Queue) : Queue := { x with readIndex := x.readIndex + 1, fenced := false }

/-- The slot a queue is bound to has recorded a queue error (R230). -/
def ErrorNoted (q : Nat) (c : Cause) (s t : State) : Prop :=
  ∀ n, queueSlot s q = some n → (findSlot t n).sloti.getLsbD 1 = true ∧ (findSlot t n).sloti.toNat / 2 ^ 32 = c.toNat

/-- The packet is consumed and nothing else changes; the read index is written back where the queue is now empty, or `back` says so; where the
host answers that write with an error the queue stops with 3:6 (R438). -/
def ConsumesAs (q : Nat) (y : Queue) (back : Prop) (s t : State) : Prop :=
  let writes : Prop := back ∨ y.writeIndex.toNat ≤ y.readIndex.toNat
  let refused : Prop := hostRefuses s (descReadVa y.desc) = true
  FrontEndOnly s t ∧
  (¬ (writes ∧ refused) → QueueIs q y s t ∧ t.fe.slots = s.fe.slots ∧ t.outside = s.outside) ∧
  (writes → ¬ refused → MemoryIs (backWritten y) s t) ∧ (¬ (writes ∧ ¬ refused) → MemoryIs [] s t) ∧
  (writes → refused → QueueIs q { y with stopped := true } s t ∧ ErrorNoted q (causeOf 3 6) s t)

/-- The byte numbers of `n` bytes at an address of a context, for the front end, in the device's memory (R438). -/
def FeReaches (s : State) (ctx : Nat) (need : Need) (va n : Nat) (keys : List Nat) : Prop :=
  memKeys (reachRun s none ctx need va n) = some keys ∧ (needReads need = true → Correctable s keys)

end Sys2Proof.Claims

/-- R98, R229, R230, R256: a create of an absent queue makes it active with both indices 0, and a refused one changes nothing; a doorbell raises the
write index, with the host's earlier writes performed before it (R98), and never lowers it, and one that overfills the ring is a queue error, which stops the queue and is recorded in its slot; a destroy
command ends an idle queue at once and marks the launches of a busy one. -/
def Sys2Proof.Claims.HostQueuesRule : Prop :=
  (∀ q w s, q < 4096 → descCommand w = 1 → descState (findQueue s q).desc = 0 →
    (createRefused w = true → exec (.qdescCreate q w) s = .next s) ∧
    (createRefused w = false → ∃ t x, exec (.qdescCreate q w) s = .next t ∧ QueueIs q x s t ∧ FrontEndOnly s t ∧ SameBytes s t ∧
      t.fe.slots = s.fe.slots ∧ descState x.desc = 1 ∧ x.desc.toNat % 2 ^ 192 = w.toNat % 2 ^ 192 ∧ x.readIndex = 0 ∧ x.writeIndex = 0 ∧
      x.stopped = false ∧ x.waiting = none ∧ x.table = none)) ∧
  (∀ q w s, descState (findQueue s q).desc ≠ 0 → exec (.qdescCreate q w) s = .next s) ∧
  (∀ q v s, let x := findQueue s q
    (descState x.desc = 0 ∨ v.toNat ≤ x.writeIndex.toNat → exec (.doorbellWrite q v) s = .next s) ∧
    (descState x.desc ≠ 0 → x.writeIndex.toNat < v.toNat → ∃ t, QueueIs q { x with writeIndex := v } s t ∧ FrontEndOnly (settleHost s) t ∧
      SameBytes (settleHost s) t ∧ (∀ w ∈ t.late, w.owner ≠ none) ∧ t.fe.slots = s.fe.slots ∧
      exec (.doorbellWrite q v) s = .next (if x.readIndex.toNat + 2 ^ descSize x.desc < v.toNat then queueError q (causeOf 10 22) t else t))) ∧
  (∀ q c s, QueueIs q { findQueue s q with stopped := true } s (queueError q c s) ∧ FrontEndOnly (noteError c s) (queueError q c s) ∧
    ∀ n, queueSlot s q = some n → (findSlot (queueError q c s) n).sloti.getLsbD 1 = true ∧
      (findSlot (queueError q c s) n).sloti.toNat / 2 ^ 32 = c.toNat ∧
      ((findSlot s n).sloti.getLsbD 1 = false → (queueError q c s).outside.vectors = s.outside.vectors ++ [n + 1])) ∧
  (∀ p ∈ [((Instr.qdescDestroyDrain : Nat → Instr), 2), (.qdescDestroyAbort, 3), (.qdescDestroyAbortKill, 4)], ∀ q s,
    let x := findQueue s q
    (descState x.desc = 0 ∨ p.2 ≤ descState x.desc → exec (p.1 q) s = .next s) ∧
    (0 < descState x.desc → descState x.desc < p.2 → (queueSlot s q = none ∨ ∃ n, queueSlot s q = some n ∧ (findSlot s n).launches = []) →
      ∃ t y, exec (p.1 q) s = .next t ∧ QueueIs q y s t ∧ descState y.desc = 0 ∧ y.readIndex = x.writeIndex ∧ y.writeIndex = x.writeIndex ∧
        (∀ n, queueSlot s q = some n → slotBound (findSlot t n) = false) ∧
        (hostRefuses s (descReadVa x.desc) = false → MemoryIs (backWritten { x with readIndex := x.writeIndex }) s t) ∧
        (hostRefuses s (descReadVa x.desc) = true → MemoryIs [] s t)) ∧
    (∀ n l la, 0 < descState x.desc → descState x.desc < p.2 → queueSlot s q = some n → l ∈ (findSlot s n).launches →
      (findSlot s n).launches.Nodup → findLaunch s l = some la → (p.2 = 4 → ∀ c ∈ s.spans, c.2.launch ≠ l) → ∃ t la', exec (p.1 q) s = .next t ∧
        descState (findQueue t q).desc = p.2 ∧ findLaunch t l = some la' ∧ la'.destroyed = some (p.2 + 2) ∧
        (p.2 = 2 → la'.dropped = la.dropped) ∧ (2 < p.2 → la'.dropped = la.dropped + (undispatched la s + batchedNew s l) ∧ la'.next = la'.total ∧
          la'.repeatTo = 0)))

/-- R231, R232, R438: each packet that is read whole is consumed with its effect: NOP none; SIGNAL writes or adds; WAIT holds the queue while
its word is below its value; FENCE holds it for its earlier launches; a queue held so gives no packet, and one that is not held gives its next; TABLE names the next launch's timetable; LAUNCH enters a launch behind
the others of its slot. A ring read that the host answers with an error, and one that meets uncorrectable data, is a queue error.
Where the spec leaves a point open the model's choice is that of log 25, 26 and 66. -/
def Obligations.Packets : Prop :=
  (∀ s n q p, Takes s n q p 0 → ∃ t, exec (.nopPacket n) s = .next (idleCheck n t) ∧ ConsumesAs q (consumed (findQueue s q)) False s t) ∧
  (∀ s n q p, consuming s n = some q → hostRefuses s (packetAddr (findQueue s q)) = false →
    memPoisoned s (packetKey (findQueue s q)) 64 = false → nextPacket s (findQueue s q) = p →
    5 < pktType p → exec (.nopPacket n) s = .next (queueError q (causeOf 10 0) s)) ∧
  (∀ i ∈ [(Instr.nopPacket : Nat → Instr), .launchPacket, .waitPacket, .signalPacket, .fencePacket, .tablePacket], ∀ s n q,
    consuming s n = some q →
    (hostRefuses s (packetAddr (findQueue s q)) = true → exec (i n) s = .next (queueError q (causeOf 3 6) s)) ∧
    (hostRefuses s (packetAddr (findQueue s q)) = false → memPoisoned s (packetKey (findQueue s q)) 64 = true →
      exec (i n) s = .next (queueError q (causeOf 3 25) s))) ∧
  (∀ i ∈ [(Instr.nopPacket : Nat → Instr), .launchPacket, .waitPacket, .signalPacket, .fencePacket, .tablePacket], ∀ s n,
    let q := slotQueue (findSlot s n)
    ((findQueue s q).waiting ≠ none ∨ ((findQueue s q).fenced = true ∧ ∃ p ∈ s.launches, p.2.queue = some q) →
      consuming s n = none ∧ exec (i n) s = .next s)) ∧
  (∀ s n, let q := slotQueue (findSlot s n)
    slotBound (findSlot s n) = true → slotHold (findSlot s n) = false → descState (findQueue s q).desc = 1 → (findQueue s q).stopped = false →
    (findQueue s q).waiting = none → ((findQueue s q).fenced = true → ∀ p ∈ s.launches, p.2.queue ≠ some q) →
    (findQueue s q).readIndex.toNat < (findQueue s q).writeIndex.toNat → consuming s n = some q) ∧
  (∀ s n q p keys, Takes s n q p 2 → FeReaches s (queueCtx s q) .load (pktVa p) 8 keys →
    (pktValue p ≤ valueAt (readByte s.mem) keys → ∃ t, exec (.waitPacket n) s = .next (idleCheck n t) ∧
      ConsumesAs q (consumed (findQueue s q)) False s t) ∧
    (valueAt (readByte s.mem) keys < pktValue p → ∃ t, exec (.waitPacket n) s = .next (idleCheck n t) ∧
      ConsumesAs q { consumed (findQueue s q) with waiting := some (queueCtx s q, pktVa p, pktValue p) } True s t)) ∧
  (∀ s n ctx va value keys, let q := slotQueue (findSlot s n)
    slotBound (findSlot s n) = true → (findQueue s q).stopped = false → (findQueue s q).waiting = some (ctx, va, value) →
    FeReaches s ctx .load va 8 keys → ∃ t, exec (.waitReread n) s = .next t ∧ FrontEndOnly s t ∧ SameBytes s t ∧
      QueueIs q { findQueue s q with waiting := if value ≤ valueAt (readByte s.mem) keys then none else some (ctx, va, value) } s t) ∧
  (∀ s n q p keys, Takes s n q p 3 → FeReaches s (queueCtx s q) (if pktAdd p then .atomic else .store) (pktVa p) 8 keys →
    ∃ s1 t, exec (.signalPacket n) s = .next (idleCheck n t) ∧ ConsumesAs q (consumed (findQueue s q)) False s1 t ∧
      s1 = { s with mem := s1.mem, poison := s1.poison } ∧
      MemoryIs (keys.zip (natToBytes 8 (if pktAdd p then (valueAt (readByte s.mem) keys + pktValue p) % 2 ^ 64 else pktValue p))) s s1) ∧
  (∀ s n q p, Takes s n q p 4 → ∃ t, exec (.fencePacket n) s = .next (idleCheck n t) ∧
    ConsumesAs q { consumed (findQueue s q) with fenced := true } False s t) ∧
  (∀ s n q p, Takes s n q p 5 → ∃ t, exec (.tablePacket n) s = .next (idleCheck n t) ∧
    ConsumesAs q { consumed (findQueue s q) with table := some (pktVa p) } False s t) ∧
  (∀ s n q p s1 s2, Takes s n q p 1 →
    consumeLaunch (fun rec => newLaunch n (some q) (queueCtx s q) none 1 rec (findQueue s q).table none) (queueCtx s q) (pktVa p) s = (some s1, s2) →
    ∃ t, exec (.launchPacket n) s = .next (idleCheck n t) ∧ ConsumesAs q { consumed (findQueue s1 q) with table := none } False s1 t) ∧
  (∀ mk ctx va s, va % 128 ≠ 0 → ∃ s2, consumeLaunch mk ctx va s =
    (some (addLaunch { mk 0 with failed := some (causeOf 10 4), phase := .finishing } s), s2)) ∧
  (∀ mk ctx va s keys, va % 128 = 0 → FeReaches s ctx .load va 128 keys →
    let la := (mk (valueAt (readByte s.mem) keys) : Launch)
    la.destroyed = none → recPrologue la.record ≠ 0 → la.trestle.table = none →
      ∃ s2, consumeLaunch mk ctx va s = (some (addLaunch la s), s2)) ∧
  ∀ la s, let t := addLaunch la s
    findLaunch t s.fe.nextLaunch = some la ∧ (∀ x, x ≠ s.fe.nextLaunch → findLaunch t x = findLaunch s x) ∧
    t.fe.nextLaunch = s.fe.nextLaunch + 1 ∧
    SlotIs la.slot { findSlot s la.slot with launches := (findSlot s la.slot).launches ++ [s.fe.nextLaunch] } s t

/-- R240, R241, R255: SLOTB is written in host-assisted mode only, and not where a launch runs in the slot; writing 1 clears a bit of SLOTI,
and the cause field with the fault bit (the model's choice, log 31); an
expired quantum holds the slot and interrupts the host; in hardware mode a queue that wants a slot, of the lowest priority number, is bound to
the lowest free slot; where every bound slot is held in WAIT the waiting queues give up their slots to those that want one, in hardware mode, or
else the host is interrupted. -/
def Sys2Proof.Claims.SlotsRule : Prop :=
  (∀ n v s, hwMode s 0 = true ∨ 128 ≤ n ∨ v.toNat / 2 ^ 14 % 2 ^ 18 ≠ 0 ∨
      (v.toNat % 2 ^ 13 ≠ (findSlot s n).slotb.toNat % 2 ^ 13 ∧ (findSlot s n).launches ≠ []) → exec (.slotbWrite n v) s = .next s) ∧
  (∀ n v s, hwMode s 0 = false → n < 128 → v.toNat / 2 ^ 14 % 2 ^ 18 = 0 → slotBound (findSlot s n) = false → (findSlot s n).launches = [] →
    (∀ m, m < 128 → m ≠ n → slotBound (findSlot s m) = true → slotQueue (findSlot s m) ≠ v.toNat % 2 ^ 12) →
    ∃ t, SlotIs n { findSlot s n with slotb := v } s t ∧ FrontEndOnly s t ∧ SameBytes s t ∧ exec (.slotbWrite n v) s = .next (idleCheck n t)) ∧
  (∀ n s, (hwMode s 0 = true ∨ slotBound (findSlot s n) = false ∨ (findSlot s n).launches ≠ [] ∨
      (findQueue s (slotQueue (findSlot s n))).readIndex.toNat < (findQueue s (slotQueue (findSlot s n))).writeIndex.toNat →
      idleCheck n s = s) ∧ FrontEndOnly s (idleCheck n s) ∧ SameBytes s (idleCheck n s)) ∧
  (∀ n v s, n < 128 → ∃ t, exec (.slotiClear n v) s = .next t ∧ FrontEndOnly s t ∧ SameBytes s t ∧
    ∃ x : BitVec 64, SlotIs n { findSlot s n with sloti := x } s t ∧
      (∀ k, k < 4 → (x.getLsbD k = true ↔ (findSlot s n).sloti.getLsbD k = true ∧ v.getLsbD k = false)) ∧
      x.toNat / 16 = if v.getLsbD 1 then 0 else (findSlot s n).sloti.toNat / 16) ∧
  (∀ n s, hwMode s 0 = false → slotBound (findSlot s n) = true → (findSlot s n).slotb.toNat / 2 ^ 32 ≠ 0 → (findSlot s n).sloti.getLsbD 2 = false →
    ∃ t x, exec (.quantumExpired n) s = .next t ∧ SlotIs n x s t ∧ slotHold x = true ∧ x.sloti.getLsbD 2 = true ∧ x.launches = (findSlot s n).launches ∧
      t.outside.vectors = s.outside.vectors ++ [n + 1] ∧ SameBytes s t) ∧
  (∀ s, hwMode s 0 = false → exec .queueBind s = .next s) ∧
  (∀ s q n, hwMode s 0 = true → queueToBind s [] = some q → q < 4096 → freeSlot s = some n → ∃ t, exec .queueBind s = .next t ∧
    SlotIs n { findSlot s n with slotb := BitVec.ofNat 64 (2 ^ 12 + q) } s t ∧ SameBytes s t) ∧
  (∀ s q, queueToBind s [] = some q → ∃ x, (q, x) ∈ s.fe.queues ∧ wantsSlot s q x = true ∧
    ∀ p ∈ s.fe.queues, wantsSlot s p.1 p.2 = true → descPriority x.desc ≤ descPriority p.2.desc) ∧
  (∀ s n, freeSlot s = some n → n < 128 ∧ slotBound (findSlot s n) = false ∧ ∀ m, m < n → slotBound (findSlot s m) = true) ∧
  (∀ s, inDeadlock s = false → exec .slotDeadlock s = .next s) ∧
  (∀ s q, inDeadlock s = true → hwMode s 0 = true → queueToBind s [] = some q → q < 4096 → ∃ t, exec .slotDeadlock s = .next t ∧
    slotBound (findSlot t 0) = true ∧ slotQueue (findSlot t 0) = q ∧
    (∀ m k, m < 128 → k < 128 → slotBound (findSlot s m) = true → slotBound (findSlot t k) = true →
      slotQueue (findSlot t k) ≠ slotQueue (findSlot s m)) ∧
    ∀ a, (∀ m, m < 128 → slotBound (findSlot s m) = true → ∀ i, i < 8 →
      a ≠ hostKey (descReadVa (findQueue s (slotQueue (findSlot s m))).desc) + i) → readByte t.mem a = readByte s.mem a) ∧
  ∀ s, inDeadlock s = true → (hwMode s 0 = false ∨ queueToBind s [] = none) → ∃ t, exec .slotDeadlock s = .next t ∧ FrontEndOnly s t ∧ SameBytes s t ∧
    (findSlot t 0).sloti.getLsbD 3 = true ∧ ((findSlot s 0).sloti.getLsbD 3 = false → t.outside.vectors = s.outside.vectors ++ [1])

/-- R229, R230, R240, R241, R255, R256: host queues and hardware slots.
Where the spec leaves a point open the model's choice is that of log 31, 86, 87 and 89. -/
def Obligations.QueuesAndSlots : Prop := Sys2Proof.Claims.HostQueuesRule ∧ Sys2Proof.Claims.SlotsRule

namespace Sys2Proof.Claims

/-- What a launch's end makes of the machine: it and its spans are gone, and its slot lists it no more. -/
def LaunchGone (l : Nat) (la : Launch) (s t : State) : Prop :=
  findLaunch t l = none ∧ (∀ x, x ≠ l → findLaunch t x = findLaunch s x) ∧
  SlotIs la.slot { findSlot s la.slot with launches := (findSlot s la.slot).launches.filter (· ≠ l) } s t ∧
  ∀ p ∈ t.spans, p.2.launch ≠ l

/-- The completion block's words above the signal (R235). -/
def completionWords (la : Launch) : List Nat :=
  let o := (launchOutcome la).1
  let c := (launchOutcome la).2.toNat
  [2 ^ 40 * ((la.cancel.getD 0) % 4096) + 2 ^ 32 * min la.runsDone 255 + 2 ^ 12 * o + c,
    2 ^ 32 * min la.dropped 0xFFFFFFFF + min la.killed 0xFFFFFFFF, la.completed]

/-- The byte numbers of a frame list of a header, where it is not empty (R283, R292). -/
def ListReaches (s : State) (ctx va : Nat) (l keys : List Nat) : Prop :=
  if l = [] then keys = [] else memKeys (reachRun s none ctx .store va (4 * l.length)) = some keys

/-- A window held for a context serves `n` bytes (R274): what the accesses store cannot change how they are translated. -/
def WindowHolds (s : State) (ctx va n : Nat) : Prop :=
  va + n ≤ 2 ^ 56 ∧ ∃ w, heldWindow s ctx = some w ∧ ∀ a, va ≤ a → a < va + n → windowServes w a = true

end Sys2Proof.Claims

/-- R235, R236, R292: a launch completes once its last run is over and its trestle has ended: bytes [31:8] of its block hold the outcome and the
counts, 1 is added to the signal, and it is gone; a block that cannot be written is a queue error. The trestle ends first: it drops what has not
started and writes its header's counts and lists.
Where the spec leaves a point open the model's choice is that of log 27, 74 and 86. -/
def Obligations.LaunchesComplete : Prop :=
  (∀ s l la, findLaunch s l = some la → mayComplete s l la = false → exec (.launchComplete l) s = .next s) ∧
  (∀ s l la, findLaunch s l = some la → mayComplete s l la = true → recDone la.record = 0 → ∃ t, LaunchGone l la s t ∧ SameBytes s t ∧
    exec (.launchComplete l) s = .next (afterLaunch la t)) ∧
  (∀ s l la k24 k8, findLaunch s l = some la → mayComplete s l la = true → recDone la.record ≠ 0 → recDone la.record % 32 = 0 →
    memKeys (reachRun s none la.ctx .store (recDone la.record + 8) 24) = some k24 →
    FeReaches s la.ctx .atomic (recDone la.record) 8 k8 → (k8 ++ k24).Nodup → WindowHolds s la.ctx (recDone la.record) 32 →
    ∃ t, LaunchGone l la s t ∧
      exec (.launchComplete l) s = .next (afterLaunch la t) ∧
      MemoryIs (k24.zip ((completionWords la).flatMap (natToBytes 8)) ++ k8.zip (natToBytes 8 ((valueAt (readByte s.mem) k8 + 1) % 2 ^ 64))) s t) ∧
  (∀ s l la r s1, findLaunch s l = some la → mayComplete s l la = true → recDone la.record ≠ 0 → recDone la.record % 32 = 0 →
    (writeCompletion la).run s = (.error (.fail r), s1) → ∃ t, LaunchGone l la s1 t ∧ SameBytes s1 t ∧
      let q := slotQueue (findSlot t la.slot)
      exec (.launchComplete l) s = .next (endDestroy q (idleCheck la.slot (queueError q (causeOf 3 r) t)))) ∧
  (∀ la, (∀ m, la.destroyed = some m → (launchOutcome la).1 = m) ∧
    (∀ c, la.destroyed = none → la.failed = some c → launchOutcome la = (2, c)) ∧
    (la.destroyed = none → la.failed = none → la.cancel ≠ none → launchOutcome la = (3, 0)) ∧
    (la.destroyed = none → la.failed = none → la.cancel = none → la.killed = 0 → launchOutcome la = (0, 0)) ∧
    (la.destroyed = none → la.failed = none → la.cancel = none → la.killed ≠ 0 → launchOutcome la = (1, la.firstCause))) ∧
  (∀ s la, recDone la.record % 32 = 0 → hwMode s 0 = true → descState (findQueue s (slotQueue (findSlot s la.slot))).desc < 2 →
    afterLaunch la s = s) ∧
  (∀ s l la table, findLaunch s l = some la → la.trestle.table = some table → (la.trestle.ended = true ∨ lastRunOver s l la = false) →
    exec (.trestleLaunchEnd l) s = .next s) ∧
  ∀ s l la table kh kf k8 k24 k44 k48, findLaunch s l = some la → la.trestle.table = some table → la.trestle.ended = false →
    lastRunOver s l la = true → trestleMoves s l = [] →
    ListReaches s la.ctx la.trestle.hbmVa la.trestle.hbmList kh → ListReaches s la.ctx la.trestle.farVa la.trestle.farList kf →
    (kh ++ kf ++ k8 ++ k24 ++ k44 ++ k48).Nodup →
    (la.trestle.hbmList ≠ [] → WindowHolds s la.ctx la.trestle.hbmVa (4 * la.trestle.hbmList.length)) →
    (la.trestle.farList ≠ [] → WindowHolds s la.ctx la.trestle.farVa (4 * la.trestle.farList.length)) →
    memKeys (reachRun s none la.ctx .store (table + 8) 4) = some k8 → memKeys (reachRun s none la.ctx .store (table + 24) 4) = some k24 →
    memKeys (reachRun s none la.ctx .store (table + 44) 4) = some k44 → memKeys (reachRun s none la.ctx .store (table + 48) 16) = some k48 →
    WindowHolds s la.ctx table 64 → ∃ t tr, exec (.trestleLaunchEnd l) s = .next t ∧ TrestleIs l la tr t ∧ tr.ended = true ∧ tr.window = [] ∧
      MemoryIs (kh.zip (la.trestle.hbmList.flatMap (natToBytes 4)) ++ kf.zip (la.trestle.farList.flatMap (natToBytes 4)) ++
        k8.zip (natToBytes 4 la.trestle.hbmList.length) ++ k24.zip (natToBytes 4 la.trestle.farList.length) ++
        k44.zip (natToBytes 4 la.trestle.misses) ++
        k48.zip (natToBytes 8 la.trestle.lastMiss ++ natToBytes 8 la.trestle.marker)) s t

namespace Sys2Proof.Claims

/-! ### The life of a span (R118, R182, R217 to R224, R235, R246, R267) -/

/-- A span leaves its pier: it holds nothing there, and its launch has become `la'`. -/
def SpanGone (sid : Nat) (sp : Span) (la' : Launch) (s t : State) : Prop :=
  findSpan t sid = some { sp with place := .gone, prims := [], marked := false, byHost := false } ∧ (∀ x, x ≠ sid → findSpan t x = findSpan s x) ∧
  findLaunch t sp.launch = some la' ∧ (∀ x, x ≠ sp.launch → findLaunch t x = findLaunch s x)

/-- Nothing of a span's accesses is still to be written (R98). -/
def AllWritten (sid : Nat) (t : State) : Prop := ∀ w ∈ t.late, w.owner.map (·.1) ≠ some sid

/-- A span alone has become `sp'`. -/
def SpanBecomes (sid : Nat) (sp' : Span) (s t : State) : Prop := OnlySpan sid s t ∧ findSpan t sid = some sp'

/-- A group as it starts (R118): at its entry with every lane live in one gang, and everything else zero. -/
def Starts (entry : Va) (alloc n : Nat) (g : Group) : Prop :=
  g.num = n ∧ g.alloc = alloc ∧ (∀ r l, readV g r l = 0) ∧ (∀ r, readG g r = 0) ∧ g.fsr = 0 ∧ g.fen = 0 ∧ g.ops = [] ∧ g.waits = [] ∧
  g.slices.length = 8 ∧ ∀ sl ∈ g.slices, sl.pc = entry ∧ sl.live = 15 ∧ sl.act = 15 ∧ sl.part = none ∧ sl.stack = [] ∧ sl.spilled = 0

/-- The parts of a span that start anew (R118, R376): its barriers, tables, reservations, tags and queues. -/
def FreshParts (b : Bay) (sp : Span) : Prop :=
  sp.barriers = List.replicate 16 Barrier.reset ∧ sp.tables = List.replicate 8 none ∧ (∀ r ∈ sp.reservations, r.record = 0) ∧
  sp.tags = List.replicate b.tags ⟨false, 0, 0⟩ ∧ sp.queues = [[], [], [], []] ∧ sp.raster = none ∧ sp.prims = [] ∧ sp.marked = false ∧
  sp.killed = none ∧ sp.trap = none ∧ sp.handler = none ∧ sp.children = [] ∧ sp.blocked = [] ∧ sp.held = []

/-- The launch with one of its spans counted as killed: the cause kept is that of the span killed first (R236). -/
def killCounted (c : Cause) (sp : Span) (la : Launch) : Launch :=
  { la with
    active := la.active - 1
    killed := la.killed + 1
    firstCause := if la.killed = 0 ∨ sp.killedAt < la.firstAt then c else la.firstCause
    firstAt := if la.killed = 0 ∨ sp.killedAt < la.firstAt then sp.killedAt else la.firstAt }

end Sys2Proof.Claims

/-- R98, R133, R182, R218, R220, R224, R235, R267: a group that has stopped with its counters at 0 frees its slot; a span whose groups all have is counted;
a killed span is counted as killed, the cause of the span killed first being kept, or relaunched with everything fresh where a pier of its die
has room and what is held for a pipeline's bays stays free (the choice of that pier is the model's, log 34); what a span has still to write is
written as it leaves; a skid that runs out stops the group with its pcs and skid recorded; and once every
group stands the handler is entered.
Where the spec leaves a point open the model's choice is that of log 34, 35 and 74. -/
def Obligations.SpanLives : Prop :=
  (∀ s sid n sp g, findSpan s sid = some sp → sp.groups[n]? = some g → onPier sp = true → sp.killed = none → (∀ sl ∈ g.slices, sl.live = 0) →
    g.ops = [] → g.freed = false → ∃ t sp', exec (.groupSlotFree sid n) s = .next t ∧ SpanBecomes sid sp' s t ∧
      sp' = { sp with groups := sp'.groups } ∧ ∀ m, sp'.groups[m]? = (sp.groups[m]?).map fun h => if m = n then { h with freed := true } else h) ∧
  (∀ s sid sp la, findSpan s sid = some sp → findLaunch s sp.launch = some la →
    (spanDrained s sid sp = true → sp.killed = none → (∀ g ∈ sp.groups, g.freed = true) → ∃ t, exec (.spanExitCounted sid) s = .next t ∧
      SameBytes (settleLeaving sid s) t ∧ AllWritten sid t ∧ SpanGone sid sp { la with active := la.active - 1, completed := la.completed + 1 } s t) ∧
    (spanDrained s sid sp = false ∨ sp.killed ≠ none ∨ (∃ g ∈ sp.groups, g.freed = false) → exec (.spanExitCounted sid) s = .next s)) ∧
  (∀ s sid sp la c, findSpan s sid = some sp → findLaunch s sp.launch = some la → sp.killed = some c → spanDrained s sid sp = true →
    relaunches s la sp = false → ∃ t, SameBytes (settleLeaving sid s) t ∧ AllWritten sid t ∧ SpanGone sid sp (killCounted c sp la) s t ∧
      exec (.spanKillReport sid) s = .next (if c = causeOf 11 25 ∧ hwMode s 4 = false then setSloti la.slot 1 (some c) t else t)) ∧
  (∀ s sid sp la b, findSpan s sid = some sp → findLaunch s sp.launch = some la → la.bays[sp.bay]? = some b → onPier sp = true →
    spanDrained s sid sp = true → relaunches s la sp = true →
    (relaunchPier sid sp b s = none → exec (.spanRelaunch sid) s = .next s) ∧
    (∀ p q, relaunchPier sid sp b s = some (p, q) →
      let u := settleLeaving sid s
      let slots := takeSlots q b.groups (freeSlots (withoutSpan sid s) p)
      let fits := pierUsage (relaunchOn sid p q sp b la.ctx u) p = pierUsage s p ∨
        holdsRoom (relaunchOn sid p q sp b la.ctx u) (sp.launch, sp.bay) = true
      (¬ fits → exec (.spanRelaunch sid) s = .next s) ∧
      (fits → slots.length = b.groups → ∃ t sp', exec (.spanRelaunch sid) s = .next (startUnit la sid t) ∧
        findSpan t sid = some sp' ∧ (∀ x, x ≠ sid → findSpan t x = findSpan s x) ∧ FreshParts b sp' ∧ sp'.relaunches = sp.relaunches + 1 ∧
        sp'.place = movePlace p sp.place ∧ sp'.bay = sp.bay ∧ sp'.x = sp.x ∧ sp'.y = sp.y ∧ sp'.z = sp.z ∧ sp'.groups.length = b.groups ∧
        (p = spanPier sp → SpanBecomes sid sp' u t ∧ sp'.deckUnits = sp.deckUnits ∧ sp'.granules = sp.granules ∧ sp'.since = sp.since) ∧
        (p ≠ spanPier sp → sp'.since = s.fe.placements ∧ t.fe.placements = s.fe.placements + 1) ∧
        ∀ (n : Nat) (g : Group), sp'.groups[n]? = some g → Starts b.entry b.regs n g ∧ slots[n]? = some g.slot)) ∧
    (∀ q, fitQuadrant (pierUsage (withoutSpan sid s) (spanPier sp)) (bayShape b) = some q →
      relaunchPier sid sp b s = some (spanPier sp, q))) ∧
  (∀ s la sp, relaunches s la sp = true ↔ sp.killed = some (causeOf 11 25) ∧ idempotent la = true ∧ hwMode s 4 = true ∧ coResident la = false ∧
    sp.relaunches < 2) ∧
  (∀ s sid n sp g, findSpan s sid = some sp → sp.groups[n]? = some g → sp.trap ≠ none → g.skid ≠ none → g.halted = false →
    (∃ sl ∈ g.slices, sl.live ≠ 0) → ∃ t sp', SpanBecomes sid sp' s t ∧ exec (.haltSkidExpire sid n) s = .next (enterHandler sid t) ∧
      sp' = { sp with groups := sp'.groups } ∧ (∀ m, m ≠ n → sp'.groups[m]? = sp.groups[m]?) ∧
      ∃ g' : Group, sp'.groups[n]? = some g' ∧ g'.halted = true ∧ g'.tskid = BitVec.ofNat 4 (g.skid.getD 0) ∧ SameRegisters g g' ∧
        ∀ k, k < 8 → g'.slices[k]? = (g.slices[k]?).map fun sl => { sl with tpc := sl.pc }) ∧
  (∀ s sid sp n c lanes la, findSpan s sid = some sp → sp.trap = some (n, c, lanes) → findLaunch s sp.launch = some la →
    ((∀ g ∈ sp.groups, g.halted = true ∨ ∀ sl ∈ g.slices, sl.live = 0) → ∃ t sp', exec (.handlerEntry sid) s = .next t ∧
      SpanBecomes sid sp' s t ∧ sp' = { sp with groups := sp'.groups, trap := none, handler := some n } ∧
      (∀ m, m ≠ n → sp'.groups[m]? = sp.groups[m]?) ∧ ∀ g : Group, sp.groups[n]? = some g → ∃ g' : Group, sp'.groups[n]? = some g' ∧
        SameRegisters g g' ∧ g'.halted = false ∧ ∀ k, k < 8 → ∀ sl : Slice, g.slices[k]? = some sl → sl.live ≠ 0 → ∃ sl' : Slice,
          g'.slices[k]? = some sl' ∧ sl'.pc = BitVec.ofNat 57 (handlerVa la) ∧ sl'.act = sl.live ∧ sl'.live = sl.live ∧ sl'.part = none) ∧
    (¬ (∀ g ∈ sp.groups, g.halted = true ∨ ∀ sl ∈ g.slices, sl.live = 0) → exec (.handlerEntry sid) s = .next s)) ∧
  ∀ s sid sp, findSpan s sid = some sp → sp.trap = none → exec (.handlerEntry sid) s = .next s

namespace Sys2Proof.Claims

/-! ### Dispatch (R242 to R249) -/

/-- The number of free group slots a die has (R245). -/
def freeGroups (s : State) (die : Nat) : Nat := ((List.range 64).map fun i => 256 - (pierUsage s (64 * die + i)).slots.sum).sum

end Sys2Proof.Claims

/-- R117, R118, R240, R242 to R247: a report gives a die's free group slots; the arbiter chooses a candidate of the lowest priority number and
defers candidates of that number that do not fit; no batch is formed where every slot is held; a batch sends no more groups than a die has
available, and 64 at most, and goes to no die that holds unplaced spans of another co-resident launch; a span is placed on the pier of its die that fits it and has the most free slots, with its groups at their entry and
everything fresh.
Where the spec leaves a point open the model's choice is that of log 30, 32 and 88. -/
def Obligations.Dispatch : Prop :=
  (∀ s die, die < s.fe.reports.length → ∃ t, exec (.dieSlotReport die) s = .next t ∧
    t = { s with fe := { s.fe with reports := t.fe.reports } } ∧
    ∀ d, d < s.fe.reports.length → t.fe.reports[d]? = if d = die then some (freeGroups s die) else s.fe.reports[d]?) ∧
  (∀ s l ds, arbitrate s = some (l, ds) → ∃ la, (l, la) ∈ candidates s ∧ (∀ c ∈ candidates s, launchPriority la ≤ launchPriority c.2) ∧
    (∀ m ∈ ds, ∃ lm, (m, lm) ∈ candidates s ∧ launchPriority lm = launchPriority la ∧ fitsPower s lm = false) ∧
    (ds ≠ [] → ∃ c ∈ candidates s, launchPriority c.2 = launchPriority la ∧ fitsPower s c.2 = true)) ∧
  (∀ s, (∀ p ∈ s.launches, slotHold (findSlot s p.2.slot) = true) → exec .batchDecision s = .next s) ∧
  (∀ s l la d b, newBatch s l la = some (d, b) → ∃ x, b.head? = some x ∧ b.length * bayGroups s l x.bay ≤ 64 ∧
    b.length * bayGroups s l x.bay ≤ dieAvailable s d ∧ ∀ y ∈ b, y.launch = l ∧ y.saved = none) ∧
  (∀ s l la d b c lc, newBatch s l la = some (d, b) → openBay la = none → findLaunch s c = some lc → (s.launches.map (·.1)).Nodup → c ≠ l →
    coResident lc = true → (∀ l', s.fe.batches[d]? = some l' → ∀ x ∈ l', x.launch ≠ c) ∧
      ∀ p ∈ s.spans, p.2.launch = c → ∀ pier, p.2.place = .waiting pier → pier / 64 ≠ d) ∧
  (∀ s l ds la b, forced s = none → arbitrate s = some (l, ds) → findLaunch s l = some la → restorable s la = none → newBatch s l la = some b →
    b.1 < s.fe.batches.length → ∃ t la', exec .batchDecision s = .next t ∧ SameBytes s t ∧ t.spans = s.spans ∧ findLaunch t l = some la' ∧
      (la.symmetry = none → (b.2.head?.map (·.bay)) = some 0 → la'.next = la.next + b.2.length) ∧
      (∀ m x, m ≠ l → findLaunch s m = some x → findLaunch t m = some { x with deferrals := x.deferrals + ds.count m }) ∧
      ∀ d, t.fe.batches[d]? = if d = b.1 then (s.fe.batches[d]?).map (· ++ b.2) else s.fe.batches[d]?) ∧
  (∀ s, forced s = none → arbitrate s = none → exec .batchDecision s = .next s) ∧
  (∀ s die sh p q, choosePier s die sh = some (p, q) → 64 * die ≤ p ∧ p < 64 * die + 64 ∧ fitsAt (pierUsage s p) sh q = true ∧
    ∀ i k, i < 64 → k < 4 → fitsAt (pierUsage s (64 * die + i)) sh k = true →
      usageFree (pierUsage s (64 * die + i)) ≤ usageFree (pierUsage s p) ∧
      (usageFree (pierUsage s (64 * die + i)) = usageFree (pierUsage s p) → p ≤ 64 * die + i)) ∧
  (∀ s n a, findArea s n = some a → bitsOf s.fe.ctxpool.toNat 63 0 ≤ a ∧
    a + n ≤ bitsOf s.fe.ctxpool.toNat 63 0 + bitsOf s.fe.ctxpool.toNat 127 64 ∧
    ∀ p ∈ s.spans, holdsArea p.2 = true → ¬ (a < p.2.areaBase + p.2.areaSize ∧ p.2.areaBase < a + n)) ∧
  ∀ s die x rest la b pier quad area, s.fe.batches[die]? = some (x :: rest) → x.saved = none → findLaunch s x.launch = some la →
    la.bays[x.bay]? = some b → choosePier s die (bayShape b) = some (pier, quad) → findArea s (areaBytes (bayShape b)) = some area →
    holdsRoom (placeNew die x la b pier quad area s) (x.launch, x.bay) = true →
    (takeSlots quad b.groups (freeSlots s pier)).length = b.groups → ∃ t sp, exec (.spanPlace die) s = .next t ∧
      findSpan t s.fe.nextSpan = some sp ∧ placePier sp.place = some pier ∧ sp.launch = x.launch ∧ sp.bay = x.bay ∧ sp.index = x.index ∧
      sp.areaBase = area ∧ FreshParts b sp ∧ sp.groups.length = b.groups ∧ t.fe.batches[die]? = some rest ∧ t.fe.nextSpan = s.fe.nextSpan + 1 ∧
      (∀ (n : Nat) (g : Group), sp.groups[n]? = some g → Starts b.entry b.regs n g) ∧ (∀ a, readByte t.mem a = readByte s.mem a) ∧
      ∃ la', findLaunch t x.launch = some la' ∧ la' = { la with active := la.active + 1 }

namespace Sys2Proof.Claims

/-! ### Pre-emption (R249, R254, R257 to R266) -/

/-- A span under a request: it may be marked, and its waits may count as parked from now on (R257, R261). -/
def Requested (sp sp' : Span) : Prop :=
  sp' = { sp with marked := sp'.marked, timedOut := sp'.timedOut, byHost := sp'.byHost, groups := sp'.groups } ∧
  (sp.marked = true → sp'.marked = true) ∧
  EachGroup sp sp' fun _ (g g' : Group) =>
    let plain (l : List GroupWait) : List GroupWait := l.map fun w => { w with parked := false }
    g' = { g with waits := g'.waits, savedWaits := g'.savedWaits } ∧ plain g'.waits = plain g.waits ∧ plain g'.savedWaits = plain g.savedWaits

/-- Spans and launches are each known by one number. -/
def Numbered (s : State) : Prop := (s.spans.map (·.1)).Nodup ∧ (s.launches.map (·.1)).Nodup

/-- The priority number of a span's launch. -/
def spanPriority (s : State) (sp : Span) : Nat := ((findLaunch s sp.launch).map launchPriority).getD 0

/-- The greatest priority number of the launches with running spans. -/
def runningTop (s : State) (n : Nat) : Prop :=
  (∃ p ∈ s.spans, isRunning p.2 = true ∧ (findLaunch s p.2.launch).isSome = true ∧ spanPriority s p.2 = n) ∧
  ∀ p ∈ s.spans, isRunning p.2 = true → spanPriority s p.2 ≤ n

/-- A machine without the spans that are under a request. -/
def withoutMarked (s : State) : State := { s with spans := s.spans.filter fun p => !p.2.marked }

/-- Nothing of a span's accesses is late, no remote load of it is outstanding, and no transfer of it has begun. -/
def Quiet (s : State) (sid : Nat) (sp : Span) : Prop :=
  (∀ g ∈ sp.groups, AllPerformed s sid g.num g ∧ ∀ o ∈ g.ops, caughtLoad o = false) ∧ ∀ q ∈ sp.queues, ∀ x ∈ q, x.started = false

/-- A span has its 16 reservations, eight tables, eight slices a group and no more primitives and stack entries than R260's sections hold. -/
def Shaped (sp : Span) : Prop :=
  sp.reservations.length = 16 ∧ sp.tables.length = 8 ∧ sp.prims.length ≤ 16 ∧
  ∀ g ∈ sp.groups, g.slices.length = 8 ∧ ∀ sl ∈ g.slices, sl.stack.length ≤ 32

/-- Where the bytes of group `n` of an image lie from its area's base on (R260). -/
def groupAt (sp : Span) (im : SavedImage) (n : Nat) : Nat := groupsAt sp im + ((sp.groups.take n).map groupSize).sum

/-- A word of a context area. -/
def areaWord (s : State) (a : Nat) : Word := BitVec.ofNat 32 (bytesToNat (areaGet s a 4))

/-- The registers of a group are those of its bytes at address `a` of an area (R260). -/
def RegistersAt (s : State) (a : Nat) (g : Group) : Prop :=
  (∀ r, r < 64 → readG g r = areaWord s (a + 256 + 4 * r)) ∧
  (∀ r l, r < g.alloc → l < 32 → readV g r l = areaWord s (a + 10752 + 4 * (32 * r + l))) ∧
  ∀ r l k, r < 8 → l < 32 → k < 6 → (readInterval g r l)[k]? = some (areaWord s (a + 4608 + 24 * (32 * r + l) + 4 * k))

/-- The image of a span lies in its area (R260, R320, R308, R392): reservations, the tables that are loaded, the raster header and records, the
deck, the dense reservations, and each group's registers. -/
def ImageAt (sp : Span) (im : SavedImage) (deck dense : List Byte) (t : State) : Prop :=
  let a := sp.areaBase
  (∀ (k : Nat) r, sp.reservations[k]? = some r →
    areaGet t (a + 512 + 64 * k) 40 = natToBytes 32 r.record.toNat ++ natToBytes 8 r.streamBase.toNat) ∧
  (∀ (k : Nat) x, sp.tables[k]? = some (some x) → areaGet t (a + 1536 + 128 * k) 128 = natToBytes 128 x.toNat) ∧
  areaGet t (a + 2560) 4 = natToBytes 4 sp.prims.length ∧
  (∀ w v b, sp.raster = some (w, v, b) → areaGet t (a + 2564) 9 = natToBytes 8 w.toNat ++ natToBytes 1 1) ∧
  (sp.raster = none → areaGet t (a + 2572) 1 = natToBytes 1 0) ∧
  (∀ (k : Nat) p, sp.prims[k]? = some p → areaGet t (a + 2624 + 64 * k) 57 = natToBytes 57 p.record.toNat) ∧
  areaGet t (a + 7744 + (8 * sp.tags.length + 63) / 64 * 64) deck.length = deck ∧
  areaGet t (a + 7744 + (8 * sp.tags.length + 63) / 64 * 64 + deck.length) dense.length = dense ∧
  ∀ (n : Nat) g, sp.groups[n]? = some g → RegistersAt t (a + groupAt sp im n) g

end Sys2Proof.Claims

/-- R249, R254, R257 to R262, R265, R266, R420: a request marks the running spans of its slot, and PREEMPT reads whether one is open; a span not parked
in time, its image entries among what it waits for, is reported once with 10:26; a unit that is parked and drained is saved, its image written to its context area alone and nothing of it on
the pier; a saved span is placed and restored with the deck and the registers of its area (what R260 gives no place comes from the model's
record, log 10); a starving candidate has spans of the running launches of the greatest priority number requested, latest placed first, where
that number is above its own and its batch would not fit, and none otherwise.
Where the spec leaves a point open the model's choice is that of log 10, 36, 37, 38, 39 and 74. -/
def Obligations.Preemption : Prop :=
  (∀ v s, v.toNat / 2 ^ 16 ≠ 0 ∨ v.toNat / 2 ^ 7 % 2 ^ 8 ≠ 0 → exec (.preemptRequest v) s = .next s) ∧
  (∀ v s, v.toNat / 2 ^ 16 = 0 → v.toNat / 2 ^ 7 % 2 ^ 8 = 0 → v.getLsbD 15 = true → ∃ t, exec (.preemptRequest v) s = .next t ∧ SameBytes s t ∧
    t = { s with spans := t.spans, fe := { s.fe with preempt := t.fe.preempt } } ∧ t.fe.preempt.toNat = v.toNat % 128 ∧
    (∀ sid sp, findSpan s sid = some sp → isRunning sp = true → (findSlot s (v.toNat % 128)).launches.contains sp.launch = true →
      (findLaunch s sp.launch).isSome = true → (∀ p ∈ s.spans, p.1 = sid → p.2 = sp) →
      ∃ sp', findSpan t sid = some sp' ∧ sp'.marked = true ∧ sp'.byHost = true) ∧
    ∀ sid sp, findSpan s sid = some sp → ∃ sp', findSpan t sid = some sp' ∧ Requested sp sp' ∧
      (isRunning sp = false → (∀ p ∈ s.spans, p.1 = sid → p.2 = sp) → sp' = sp)) ∧
  (∀ s, (preemptValue s).toNat % 2 ^ 15 = s.fe.preempt.toNat % 128 ∧ ((preemptValue s).getLsbD 15 = true ↔
    ∃ p ∈ s.spans, p.2.marked = true ∧ p.2.byHost = true ∧ p.2.launch ∈ (findSlot s (s.fe.preempt.toNat % 128)).launches)) ∧
  (∀ s sid sp la, findSpan s sid = some sp → findLaunch s sp.launch = some la → coResident la = false →
    (sp.marked = true → sp.timedOut = false → (spanParked sp = false ∨ queueOps s sid sp 1 ≠ []) → ∃ t, SpanBecomes sid { sp with timedOut := true } s t ∧
      exec (.preemptTimeout sid) s = .next (setSloti la.slot 1 (some (causeOf 10 26)) t)) ∧
    (sp.marked = false ∨ sp.timedOut = true ∨ (spanParked sp = true ∧ queueOps s sid sp 1 = []) → exec (.preemptTimeout sid) s = .next s)) ∧
  (∀ s sid sp la, findSpan s sid = some sp → findLaunch s sp.launch = some la → sp.marked = true →
    (unitSpans s la sp).filter (fun p => isRunning p.2) = [(sid, sp)] → unitDrained s (unitSpans s la sp) = true →
    let u := settleLeaving sid s
    savePoisoned u sp = false → Quiet s sid sp → Shaped sp → ∃ t sp' im la', exec (.spanSave sid) s = .next t ∧ findSpan t sid = some sp' ∧
      sp'.place = .saved im ∧ sp'.marked = false ∧ findLaunch t sp.launch = some la' ∧ la'.saved = la.saved ++ [sid] ∧
      (∀ x ∈ rasterQueue t (spanPier sp), x.sid ≠ sid) ∧
      (EachGroup sp sp' fun _ (g g' : Group) => SameRegisters g g' ∧ g'.ops = g.ops ∧ g'.waits = g.waits.map fun w => { w with parked := false }) ∧
      ImageAt sp im (readDeck u sp 0 (deckSize sp)) (denseImage u sp) t ∧ t.peer = u.peer ∧ t.deck = u.deck ∧ t.opbuf = u.opbuf ∧ AllWritten sid t ∧
      ∀ a, (∀ i, i < imageLength sp im → a ≠ areaKey (sp.areaBase + i)) → readByte t.mem a = readByte u.mem a) ∧
  (∀ s sid sp la, findSpan s sid = some sp → findLaunch s sp.launch = some la → sp.marked = true →
    (∃ p ∈ unitSpans s la sp, (isRunning p.2 = true ∧ (spanParked p.2 = false ∨ drainedForSave s p.1 p.2 = false)) ∨
      (isRunning p.2 = false ∧ castBegun p.2 = true)) →
    exec (.spanSave sid) s = .next s) ∧
  (∀ s sid sp im la b pier quad die rest x, s.fe.batches[die]? = some (x :: rest) → x.saved = some sid →
    (∀ d, d < die → ((s.fe.batches[d]?).getD []).head?.bind (·.saved) ≠ some sid) → die < 4 → findSpan s sid = some sp → sp.place = .saved im →
    findLaunch s sp.launch = some la → la.bays[sp.bay]? = some b → choosePier s die (bayShape b) = some (pier, quad) →
    holdsRoom (placeSavedSpan sid sp la.ctx pier quad (popBatch die b.groups s)) (sp.launch, sp.bay) = true →
    imagePoisoned s sp im = false → sp.reservations.length = 16 →
    (∀ k, k < 16 → let r := readReservation s (sp.areaBase + 512 + 64 * k)
      r.record.toNat / 2 ^ 3 % 2 ^ 17 = 0 ∧ (resValid r = true → resMode r ≠ 2)) → im.caisson = [] →
    (∀ g ∈ sp.groups, ∀ o ∈ g.ops, caughtLoad o = false) →
    ((freeUnits s pier).take sp.deckUnits.length).length = sp.deckUnits.length →
    (takeSlots quad sp.groups.length (freeSlots s pier)).length = sp.groups.length →
    ∃ t sp' la', exec (.spanRestore sid) s = .next t ∧ findSpan t sid = some sp' ∧ placePier sp'.place = some pier ∧
      (∀ a, readByte t.mem a = readByte s.mem a) ∧
      (∀ i, i < deckSize sp → some (readByte t.deck (deckByteKey sp' i)) = (areaGet s (sp.areaBase + deckAt sp) (deckSize sp))[i]?) ∧
      (EachGroup sp sp' fun n (g g' : Group) => RegistersAt s (sp.areaBase + groupAt (readReservations s sp) im n) g' ∧ g'.preds = g.preds ∧ g'.qpreds = g.qpreds ∧
        g'.fsr = g.fsr ∧ g'.fen = g.fen ∧ g'.waits = g.waits ∧ g'.ops = g.ops ∧ g'.alloc = g.alloc ∧
        ∀ k, k < 8 → g'.slices[k]? = (g.slices[k]?).map (readStack s (sp.areaBase + groupAt (readReservations s sp) im n + 512 + 512 * k))) ∧
      findLaunch t sp.launch = some la' ∧ la'.saved = la.saved.filter (· ≠ sid) ∧ t.fe.batches[die]? = some rest) ∧
  (∀ s l la, findLaunch s l = some la → (hwMode s 0 = false ∨ isCandidate s l la = false ∨ batchFits (withoutMarked s) l la = true) →
    exec (.starvationPreempt l) s = .next s) ∧
  (∀ s l la n, findLaunch s l = some la → Numbered s → hwMode s 0 = true → isCandidate s l la = true → batchFits (withoutMarked s) l la = false →
    runningTop s n → launchPriority la < n → ∃ t sid sp sp', exec (.starvationPreempt l) s = .next t ∧ t = { s with spans := t.spans } ∧
      findSpan s sid = some sp ∧ isRunning sp = true ∧ spanPriority s sp = n ∧ findSpan t sid = some sp' ∧ sp'.marked = true ∧
      (∀ p ∈ s.spans, isRunning p.2 = true → spanPriority s p.2 = n → p.2.since ≤ sp.since) ∧
      ∀ x y, findSpan s x = some y → ∃ y', findSpan t x = some y' ∧ Requested y y' ∧ (y' ≠ y → isRunning y = true ∧ spanPriority s y = n)) ∧
  ∀ s l la n, findLaunch s l = some la → Numbered s → runningTop s n → n ≤ launchPriority la → exec (.starvationPreempt l) s = .next s

namespace Sys2Proof.Claims

/-! ### Invalidation, replay and the fault queue (R274 to R278) -/

/-- The register fields of a TLBINV write: context, address, length in bytes (0 is everything). -/
def invCtx (v : BitVec 128) : Nat := v.toNat / 2 ^ 96 % 2 ^ 8
def invVa (v : BitVec 128) : Nat := v.toNat % 2 ^ 64
def invLen (v : BitVec 128) : Nat := 4096 * (v.toNat / 2 ^ 64 % 2 ^ 32)

/-- A run of addresses of a context that a TLBINV removes. -/
def invalidates (v : BitVec 128) (ctx a n : Nat) : Prop :=
  (v.getLsbD 104 = true ∨ ctx = invCtx v) ∧ (invLen v = 0 ∨ (invVa v < a + n ∧ a < invVa v + invLen v))

/-- A translation of the TLBs of a pier or a die. -/
def inTlb (tlbs : List (Nat × List TlbEntry)) (n : Nat) (e : TlbEntry) : Prop := e ∈ (keyFind n tlbs).getD []

/-- What a replay or a cancel makes of a parked entry of its context and page (R277). -/
def replayed (ctx : Nat) (page : Option Nat) (cancel : Bool) (p : Parked) : Parked :=
  if p.lock = none ∧ p.ctx = ctx ∧ (page = none ∨ page = some p.page) then (if cancel then { p with cancel := true } else { p with retry := true }) else p

/-- REPLAY's page, and the rows of its two forms. -/
def replayOf (v : BitVec 128) : Option Nat := if v.getLsbD 72 then none else some (v.toNat / 2 ^ 12 % 2 ^ 45)
def replayRows : List ((BitVec 128 → Instr) × Bool) := [(.replayRetry, false), (.replayCancel, true)]

/-- No access of the machine is late in part (R90). -/
def NothingLate (s : State) : Prop := s.late = [] ∧ ∀ p ∈ s.spans, ∀ g ∈ p.2.groups, groupLoadOpen g = false

/-- Bytes of a number from a byte on. -/
def bytesAt (key n v : Nat) : List (Nat × Byte) := ((List.range n).map (key + ·)).zip (natToBytes n v)

end Sys2Proof.Claims

/-- R97, R274 to R278: TLBINV removes the translations it names, in every pier, die and window, and nothing else, and reads as done when it has
completed, every earlier access with it; REPLAY marks the parked accesses of its page or context and closes their faults; the fault ring takes one record for a page until
it is serviced, numbers its records and fires vector 129 where it was empty; a page taken back belongs to the device, the host's writes to it performed.
Where the spec leaves a point open the model's choice is that of log 49, 50 and 65. -/
def Obligations.FaultService : Prop :=
  (∀ v s, v.toNat / 2 ^ 105 % 2 ^ 22 = 0 → v.toNat / 2 ^ 57 % 2 ^ 7 = 0 → v.toNat % 2 ^ 12 = 0 → v.getLsbD 127 = true → ∃ t,
    exec (.tlbinvStart v) s = .next t ∧ t = { s with vm := t.vm } ∧
    t.vm = { s.vm with tlbinv := v, pierTlb := t.vm.pierTlb, dieTlb := t.vm.dieTlb, windows := t.vm.windows } ∧
    (∀ n e, inTlb t.vm.pierTlb n e ↔ inTlb s.vm.pierTlb n e ∧ ¬ invalidates v e.ctx (e.page * 2 ^ e.leaf.size) (2 ^ e.leaf.size)) ∧
    (∀ n e, inTlb t.vm.dieTlb n e ↔ inTlb s.vm.dieTlb n e ∧ ¬ invalidates v e.ctx (e.page * 2 ^ e.leaf.size) (2 ^ e.leaf.size)) ∧
    ∀ w, w ∈ t.vm.windows ↔ w ∈ s.vm.windows ∧ ¬ invalidates v w.ctx w.base (w.limit - w.base)) ∧
  (∀ s, (s.vm.tlbinv.getLsbD 127 = false → exec .tlbinvComplete s = .next s) ∧
    (s.vm.tlbinv.getLsbD 127 = true → ∃ t, exec .tlbinvComplete s = .next t ∧ NothingLate t ∧
      t = { settleAll s with vm := { s.vm with tlbinv := t.vm.tlbinv } } ∧ t.vm.tlbinv.getLsbD 127 = false ∧
      ∀ k, k < 127 → t.vm.tlbinv.getLsbD k = s.vm.tlbinv.getLsbD k)) ∧
  (∀ p ∈ replayRows, ∀ v s, v.toNat / 2 ^ 74 = 0 → v.toNat / 2 ^ 57 % 2 ^ 7 = 0 → v.toNat % 2 ^ 12 = 0 → v.getLsbD 73 = p.2 → ∃ t,
    exec (p.1 v) s = .next t ∧ SameBytes (settleHost s) t ∧ t.launches = s.launches ∧
    (∀ sid sp, findSpan s sid = some sp → ∃ sp', findSpan t sid = some sp' ∧ sp' = { sp with groups := sp'.groups } ∧
      let mark := replayed (v.toNat / 2 ^ 64 % 2 ^ 8) (replayOf v) p.2
      EachGroup sp sp' fun _ (g g' : Group) => g' = { g with parked := g.parked.map mark, savedParked := g.savedParked.map mark }) ∧
    (∀ f, f ∈ t.vm.faultOpen ↔ f ∈ s.vm.faultOpen ∧ ¬ (f.ctx = v.toNat / 2 ^ 64 % 2 ^ 8 ∧ (replayOf v = none ∨ replayOf v = some f.page))) ∧
    ∀ w ∈ s.vm.engineWaits, (w.ctx = v.toNat / 2 ^ 64 % 2 ^ 8 ∧ (replayOf v = none ∨ replayOf v = some w.page)) →
      (p.2 = true → { w with cancelled := true } ∈ t.vm.engineWaits) ∧ (p.2 = false → w.cancelled = false → w ∉ t.vm.engineWaits)) ∧
  (∀ p ∈ replayRows, ∀ v s, v.toNat / 2 ^ 74 ≠ 0 ∨ v.toNat % 2 ^ 12 ≠ 0 → exec (p.1 v) s = .next s) ∧
  (∀ v s, v.toNat / 2 ^ 68 % 2 ^ 28 ≠ 0 ∨ v.toNat % 2 ^ 12 ≠ 0 ∨ 12 ≤ v.toNat / 2 ^ 64 % 2 ^ 4 → exec (.faultqWrite v) s = .next s) ∧
  (∀ v s, v.toNat / 2 ^ 68 % 2 ^ 28 = 0 → v.toNat % 2 ^ 12 = 0 → v.toNat / 2 ^ 64 % 2 ^ 4 < 12 → s.vm.faultWaiting = [] → ∃ t,
    exec (.faultqWrite v) s = .next t ∧ t = { s with vm := { s.vm with faultq := v, faultSeq := t.vm.faultSeq } } ∧
    (v.toNat / 2 ^ 12 % 2 ^ 56 ≠ s.vm.faultq.toNat / 2 ^ 12 % 2 ^ 56 → t.vm.faultSeq = 0) ∧
    (v.toNat / 2 ^ 12 % 2 ^ 56 = s.vm.faultq.toNat / 2 ^ 12 % 2 ^ 56 → t.vm.faultSeq = s.vm.faultSeq)) ∧
  (∀ f s, ringBase s.vm.faultq ≠ 0 → s.vm.faultWaiting = [] → ringUsed s.vm.faultq s.vm.faultSeq < ringSize s.vm.faultq → f.ctx < 2 ^ 8 →
    f.access < 2 ^ 3 → f.pier < 2 ^ 8 → f.va < 2 ^ 57 →
    let t := queueFault f s
    t.vm.faultSeq = s.vm.faultSeq + 1 ∧ t.vm.faultWaiting = [] ∧
    t.outside.vectors = (if ringUsed s.vm.faultq s.vm.faultSeq = 0 then s.outside.vectors ++ [129] else s.outside.vectors) ∧
    MemoryIs (bytesAt (hostKey (ringBase s.vm.faultq + 32 * (s.vm.faultSeq % ringSize s.vm.faultq))) 32
      (2 ^ 224 * ((s.vm.faultSeq + 1) % 2 ^ 32) + 2 ^ 216 * f.ctx + 2 ^ 207 * f.cause.toNat + 2 ^ 204 * f.access + 2 ^ 196 * f.pier + f.va)) s t) ∧
  (∀ ctx cause access pier va tier s, (∃ f ∈ s.vm.faultOpen, f.ctx = ctx ∧ f.page = va / 4096) → postFault ctx cause access pier va tier s = s) ∧
  (∀ ctx page s, (∀ f ∈ s.vm.faultOpen, ¬ (f.ctx = ctx ∧ f.page = page ∧ f.hw = true)) → exec (.hwFaultService ctx page) s = .next s) ∧
  ∀ ctx page s x key, (∃ f ∈ s.vm.faultOpen, f.ctx = ctx ∧ f.page = page ∧ f.hw = true) →
    let u := settleHost s
    walk u ctx (4096 * page) = .ok x → x.hostOwned = true →
    x.tier < 2 → leafSlotFrom u (4096 * page) (ctxEntry u ctx / 2 ^ 54 % 4) (2 ^ 20 * (ctxEntry u ctx / 2 ^ 20 % 2 ^ 32)) 3 = some (key, 1) →
    (∀ m ∈ s.vm.moves, m.started = true → keyFrame key ≠ (m.srcTier, m.srcFrame)) → ∃ t, exec (.hwFaultService ctx page) s = .next t ∧
      MemoryIs (bytesAt key 8 (readKey u key - readKey u key / 2 ^ 53 % 2 * 2 ^ 53)) u t ∧ ∀ f ∈ t.vm.faultOpen, ¬ (f.ctx = ctx ∧ f.page = page)

namespace Sys2Proof.Claims

/-! ### Page moves and map-out (R96, R279 to R281, R437) -/

/-- The number of a frame's first byte. -/
def frameKey (tier f : Nat) : Nat := memKey tier (2 ^ 21 * f)

/-- A frame number of a tier of the device: frames of different tiers or numbers do not meet. -/
def isFrame (tier f : Nat) : Prop := tier < 3 ∧ f < 2 ^ 31

/-- What a layer's removal leaves (R281): its bit of HBMCAP clear and the others standing, one layer fewer in its count, its frames on no list, and its place kept for
the resets to come. -/
def LayerRemoved (stack layer : Nat) (s t : State) : Prop :=
  (∀ cap, s.vm.hbmcap[stack]? = some cap → 2 ^ 16 ≤ cap.toNat → ∃ cap' : BitVec 64, t.vm.hbmcap[stack]? = some cap' ∧
    (∀ k, k < 16 → cap'.getLsbD k = if k = layer then false else cap.getLsbD k) ∧
    (layer < 16 → cap.getLsbD layer = true → cap'.toNat / 2 ^ 16 + 1 = cap.toNat / 2 ^ 16)) ∧
  (∀ k, k ≠ stack → t.vm.hbmcap[k]? = s.vm.hbmcap[k]?) ∧
  t.outside.excluded = s.outside.excluded ++ [(stack, layer)] ∧
  ∀ l la, findLaunch s l = some la → ∃ la', findLaunch t l = some la' ∧
    la'.trestle.hbmList = la.trestle.hbmList.filter fun f => !(f % 8 == stack && f / 8 / 3072 == layer)

/-- The SPARE list: its address in the HBM, and how many frames it holds (R281). -/
def spareVa (s : State) : Nat := s.vm.spare.toNat % 2 ^ 64
def spareCount (s : State) : Nat := s.vm.spare.toNat / 2 ^ 64 % 2 ^ 32

/-- The frame number at place `i` of the SPARE list. -/
def spareAt (s : State) (i : Nat) : Nat := valueAt (readByte s.mem) ((List.range 4).map (memKey 0 (spareVa s + 4 * i) + ·))

/-- The frames of a layer to which moves are still to be entered (R281 step 2). -/
def toMove (s : State) (mo : MapOut) : List Nat :=
  (reachedFrames s mo.stack mo.layer).filter fun f => !(s.vm.moves.any fun m => m.srcTier == 0 && m.srcFrame == f)

/-- A map-out goes on (R281 step 2): each frame that waits gets a move to a frame taken from the end of the SPARE list; where the list is
empty the sequence is in state 3 and the host is interrupted. -/
def MapGoesOn (s : State) : Prop := ∀ mo, s.vm.mapOut = some mo → let t := planMap s
  (∃ mo', t.vm.mapOut = some mo' ∧ mo'.stack = mo.stack ∧ mo'.layer = mo.layer) ∧
  (toMove s mo ≠ [] → spareCount s = 0 → mo.phase ≠ 3 → t.vm.mapOut = some { mo with phase := 3 } ∧ t.vm.mapout.toNat / 2 ^ 8 % 2 ^ 3 = 3 ∧
    t.vm.moves = s.vm.moves ∧ t.outside.vectors = s.outside.vectors ++ [130]) ∧
  (toMove s mo ≠ [] → spareCount s = 0 → mo.phase = 3 → t = s) ∧
  (toMove s mo ≠ [] → (toMove s mo).length ≤ spareCount s → t.vm.mapOut = some { mo with phase := 1 } ∧
    spareVa t = spareVa s ∧ spareCount t = spareCount s - (toMove s mo).length ∧ ∃ ms, t.vm.moves = s.vm.moves ++ ms ∧
    ms.length = (toMove s mo).length ∧ ∀ (i : Nat) m f, ms[i]? = some m → (toMove s mo)[i]? = some f →
      m.owner = .mapout ∧ m.started = false ∧ m.srcTier = 0 ∧ m.srcFrame = f ∧ m.dstTier = 0 ∧ m.dstFrame = spareAt s (spareCount s - 1 - i))

/-- A map-out of a layer begins: the state in which it goes on (R281 step 1). -/
def MapBegins (stack layer : Nat) (s u : State) : Prop :=
  u.vm.mapOut = some ⟨stack, layer, 1⟩ ∧ u.vm.moves = s.vm.moves ∧ u.vm.spare = s.vm.spare ∧ u.outside = s.outside ∧ u.spans = s.spans

/-- A move the map-out of a layer waits for: its own, or one whose page lands in the layer. -/
def holdsRemoval (mo : MapOut) (m : Move) : Prop := m.owner = .mapout ∨ (m.dstTier = 0 ∧ m.dstFrame % 8 = mo.stack ∧ m.dstFrame / 8 / 3072 = mo.layer)

end Sys2Proof.Claims

/-- R96, R279 to R281, R437: a move locks its frame and copies it, 64 at most at a time; at its end, where no entry has changed, every entry
that names the frame then names the new one, its translations leave the TLBs, what was parked at the lock retries, and the old frame is the
trestle's; else it is given up. A layer is mapped out through frames taken from SPARE, stands in state 3 where SPARE is empty, and is removed, HBMCAP counting one fewer, once
nothing reaches it and no move ends in it.
Where the spec leaves a point open the model's choice is that of log 46 and 48. -/
def Obligations.Moves : Prop :=
  (∀ s id m, findMove s id = some m → (m.started = true ∨ 64 ≤ (s.vm.moves.filter (·.started)).length ∨ frameLocked s m.srcTier m.srcFrame = true ∨
      (m.owner ≠ .mapout ∧ pageFaulted s m.ctx m.page = true)) → exec (.pageMoveStart id) s = .next s) ∧
  (∀ s id m, findMove s id = some m → m.started = false → (s.vm.moves.filter (·.started)).length < 64 →
    frameLocked s m.srcTier m.srcFrame = false → (m.owner = .mapout ∨ pageFaulted s m.ctx m.page = false) → NothingLate s →
    Memory.wf s.mem = true → isFrame m.srcTier m.srcFrame → isFrame m.dstTier m.dstFrame →
    (m.srcTier, m.srcFrame) ≠ (m.dstTier, m.dstFrame) → ∃ t, exec (.pageMoveStart id) s = .next t ∧
      findMove t id = some { m with started := true } ∧ frameLocked t m.srcTier m.srcFrame = true ∧ Memory.wf t.mem = true ∧
      t = { s with mem := t.mem, poison := t.poison, icache := t.icache, vm := { s.vm with moves := t.vm.moves } } ∧
      (∀ x, x ∈ t.icache ↔ x ∈ s.icache ∧ ¬ (frameKey m.dstTier m.dstFrame ≤ x.2.1 ∧ x.2.1 < frameKey m.dstTier m.dstFrame + 2 ^ 21)) ∧
      (∀ i, i < 2 ^ 21 → readByte t.mem (frameKey m.dstTier m.dstFrame + i) = readByte s.mem (frameKey m.srcTier m.srcFrame + i)) ∧
      ∀ a, ¬ (frameKey m.dstTier m.dstFrame ≤ a ∧ a < frameKey m.dstTier m.dstFrame + 2 ^ 21) → readByte t.mem a = readByte s.mem a) ∧
  (∀ s id m l entry la, findMove s id = some m → m.started = true → m.owner = .trestle l entry → findLaunch s l = some la →
    s.outside.ingressHeld = [] → s.outside.hostHeld = [] → frameExists s m.srcTier m.srcFrame = true → frameExists s m.dstTier m.dstFrame = true →
    ∃ t la', exec (.pageMoveComplete id) s = .next t ∧ findMove t id = none ∧ findLaunch t l = some la' ∧
      (moveHolds s m = true → (m.srcTier = 0 → la'.trestle.hbmList = la.trestle.hbmList ++ [m.srcFrame]) ∧
        (m.srcTier ≠ 0 → la'.trestle.farList = la.trestle.farList ++ [m.srcFrame]) ∧
        (∀ n e, inTlb t.vm.pierTlb n e ∨ inTlb t.vm.dieTlb n e → ¬ (e.leaf.tier = m.srcTier ∧ e.leaf.base / 2 ^ 21 = m.srcFrame)) ∧
        let es := frameEntries s false m.srcTier m.srcFrame
        ((∀ x ∈ es, ∀ y ∈ s.vm.moves, y.started = true → keyFrame x.1 ≠ (y.srcTier, y.srcFrame)) →
          MemoryIs (es.flatMap fun x => bytesAt x.1 8 (retarget x.2 m.dstTier m.dstFrame)) s t)) ∧
      (moveHolds s m = false → (m.dstTier = 0 → la'.trestle.hbmList = la.trestle.hbmList ++ [m.dstFrame]) ∧
        (m.dstTier ≠ 0 → la'.trestle.farList = la.trestle.farList ++ [m.dstFrame]) ∧ MemoryIs [] s t) ∧
      ∀ sid sp, findSpan s sid = some sp → ∃ sp', findSpan t sid = some sp' ∧ EachGroup sp sp' fun _ (g g' : Group) =>
        g'.parked = g.parked.map fun p => if p.lock = some (m.srcTier, m.srcFrame) then { p with retry := true } else p) ∧
  (∀ s id m, findMove s id = some m → m.started = false → exec (.pageMoveComplete id) s = .next s) ∧
  (∀ value tier frame, value < 2 ^ 64 → tier < 4 → frame < 2 ^ 31 →
    slotFrame (retarget value tier frame) = (tier, frame) ∧ retarget value tier frame % 2 ^ 12 = value % 2 ^ 12 ∧
    retarget value tier frame / 2 ^ 12 % 512 = value / 2 ^ 12 % 512 ∧ retarget value tier frame / 2 ^ 56 = value / 2 ^ 56 ∧
    retarget value tier frame / 2 ^ 52 % 4 = value / 2 ^ 52 % 4) ∧
  (∀ v s, v.toNat / 2 ^ 11 ≠ 0 → exec (.mapoutRequest v) s = .next s) ∧
  (∀ v s, v.toNat / 2 ^ 11 = 0 → v.getLsbD 7 = true → hwMode s 3 = false → layerPresent s (v.toNat % 8) (v.toNat / 8 % 16) = true → ∃ t,
    exec (.mapoutRequest v) s = .next t ∧ LayerRemoved (v.toNat % 8) (v.toNat / 8 % 16) s t) ∧
  (∀ v s, v.toNat / 2 ^ 11 = 0 → v.getLsbD 7 = true → hwMode s 3 = true → layerPresent s (v.toNat % 8) (v.toNat / 8 % 16) = true → s.vm.mapOut = none →
    ∃ u, exec (.mapoutRequest v) s = .next (planMap u) ∧ MapBegins (v.toNat % 8) (v.toNat / 8 % 16) s u) ∧
  (∀ s, MapGoesOn s) ∧
  (∀ s stack layer, (hwMode s 3 = false ∨ layerPresent s stack layer = false) → exec (.layerFailingReport stack layer) s = .next s) ∧
  (∀ s stack layer, hwMode s 3 = true → layerPresent s stack layer = true → s.vm.mapOut.isSome = true → ∃ t,
    exec (.layerFailingReport stack layer) s = .next t ∧ t = { s with vm := { s.vm with mapWaiting := s.vm.mapWaiting ++ [(stack, layer)] } }) ∧
  (∀ s stack layer, hwMode s 3 = true → layerPresent s stack layer = true → s.vm.mapOut = none → ∃ u,
    exec (.layerFailingReport stack layer) s = .next (planMap u) ∧ MapBegins stack layer s u) ∧
  (∀ s mo, s.vm.mapOut = some mo → (∀ m ∈ s.vm.moves, ¬ holdsRemoval mo m) → toMove s mo ≠ [] → exec .mapoutCommit s = .next (planMap s)) ∧
  (∀ s mo, s.vm.mapOut = some mo → (∀ m ∈ s.vm.moves, ¬ holdsRemoval mo m) → reachedFrames s mo.stack mo.layer = [] →
    poolOver s mo.stack mo.layer = false → s.vm.mapWaiting = [] → mo.layer < 16 → ∃ t, exec .mapoutCommit s = .next t ∧ LayerRemoved mo.stack mo.layer s t ∧
      t.vm.mapOut = none) ∧
  (∀ s, s.vm.mapOut = none → exec .mapoutCommit s = .next s) ∧
  (∀ s mo, s.vm.mapOut = some mo → (∃ m ∈ s.vm.moves, holdsRemoval mo m) → exec .mapoutCommit s = .next s) ∧
  (∀ v s, v.toNat / 2 ^ 96 ≠ 0 ∨ v.toNat % 4 ≠ 0 → exec (.spareWrite v) s = .next s) ∧
  (∀ v s, v.toNat / 2 ^ 96 = 0 → v.toNat % 4 = 0 → s.vm.mapOut = none → ∃ t, exec (.spareWrite v) s = .next t ∧
    t = { s with vm := { s.vm with spare := v } }) ∧
  (∀ v s mo, v.toNat / 2 ^ 96 = 0 → v.toNat % 4 = 0 → s.vm.mapOut = some mo → mo.phase = 3 →
    exec (.spareWrite v) s = .next (planMap { s with vm := { s.vm with spare := v } })) ∧
  (∀ die line s, ∃ t, exec (.viaductLineEvict die line) s = .next t ∧ t = { s with releases := t.releases } ∧
    ∀ r, r ∈ t.releases ↔ r ∈ s.releases ∧ ¬ (r.1 = die ∧ r.2.1 = line)) ∧
  ∀ stack layer s, ∃ t, exec (.mappedOutLayerClear stack layer) s = .next t ∧ t = { s with outside := { s.outside with excluded := t.outside.excluded } } ∧
    ∀ x, x ∈ t.outside.excluded ↔ x ∈ s.outside.excluded ∧ x ≠ (stack, layer)

namespace Sys2Proof.Claims

/-! ### The causeway and the host (R359, R425, R429 to R433) -/

/-- A link alone has become `x`. -/
def LinkIs (port : Nat) (x : Link) (s t : State) : Prop :=
  t = { s with outside := { s.outside with links := t.outside.links } } ∧
  ∀ p, t.outside.links[p]? = if p = port then some x else s.outside.links[p]?

/-- Memory, the decks and the operand buffers read as before. -/
def MemoryKept (s t : State) : Prop :=
  ∀ a, readByte t.mem a = readByte s.mem a ∧ readByte t.deck a = readByte s.deck a ∧ readByte t.opbuf a = readByte s.opbuf a

/-- An answer given to a peer, or to the host, and nothing else. -/
def AnswersPeer (d : Option (List Byte)) (reason : Nat) (s t : State) : Prop :=
  t = { s with mem := t.mem, poison := t.poison, outside := { s.outside with peerAnswers := s.outside.peerAnswers ++ [(d, reason)] } }
def AnswersHost (d : Option (List Byte)) (s t : State) : Prop :=
  t = { s with
    mem := t.mem, poison := t.poison, late := t.late, fresh := t.fresh
    outside := { s.outside with hostAnswers := s.outside.hostAnswers ++ [d] } }

/-- A write to a peer window answered, with `rest` of its granules still to be: one within a granule is whole, each byte holds its old or its
new value, and with the rest it is as written (R90, R431). -/
def AnsweredAs (k : Nat) (bs : List Byte) (rest : List (Nat × List Byte)) (m m' : Memory) : Prop :=
  let all := rest.foldl (fun x r => cellSetRange emptyByte x r.1 r.2) m'
  (bs.length ≤ 8 - k % 8 → rest = []) ∧
  ∀ a, readByte all a = readByte (cellSetRange emptyByte m k bs) a ∧ (readByte m' a = readByte all a ∨ readByte m' a = readByte m a)

/-- The header table once some flits are acknowledged (R433): what they install stands and what they remove is gone, and nothing else changes. -/
def HeadersAfter (acked : List Flit) (h h' : List (Nat × Nat)) : Prop :=
  (∀ f ∈ acked, ∀ k, f.installs = some k → (k, f.dev) ∈ h' ∨ ∃ g ∈ acked, g.removes = some k) ∧
  (∀ x ∈ h, (∀ f ∈ acked, f.removes ≠ some x.1) → x ∈ h') ∧
  (∀ x ∈ h', x ∈ h ∨ ∃ f ∈ acked, f.installs = some x.1 ∧ f.dev = x.2) ∧
  ∀ f ∈ acked, ∀ k, f.removes = some k → (∀ g ∈ acked, g.installs ≠ some k) → ∀ x ∈ h', x.1 ≠ k

/-- The state with the late granules of the host's writes performed; and a state without any (R90). -/
def hostPerformed (s : State) : State := settleWrites (fun w => w.owner.isNone) s
def NoHostLate (s : State) : Prop := ∀ w ∈ s.late, w.owner ≠ none

/-- A host access lies in one 64-byte line of a range that is there (R425). -/
def hostLine (tier pa n : Nat) : Prop :=
  pa % 64 + n ≤ 64 ∧ ((tier = 0 ∧ pa < 393216 * 2 ^ 21) ∨ (tier = 1 ∧ pa < 786432 * 2 ^ 21))

end Sys2Proof.Claims

/-- R90, R359, R431, R433: the answer of an owner is counted once for its port and performs the write it answers, granule by granule; an error answer ends its lane's
access with 3:r and its write is not performed, and ends a CPYP with 6:r; an incoming access is
performed at the memory side in the export context and answered, or answered with the reason it meets; a flit is sent encoded against the header table, kept and sent again as it was until it is
acknowledged, and taken in sequence only; an acknowledgement installs and removes its header entries; eight failed replays retrain a link, which
comes back or goes down with event 5, what waited for it ending with 3:30 or 6:30.
Where the spec leaves a point open the model's choice is that of log 18, 19, 20 and 80. -/
def Obligations.Causeway : Prop :=
  (∀ s sid n id port sp g o, findSpan s sid = some sp → sp.groups[n]? = some g → findOp g id = some o → o.remoteLoad = false → ∃ t g',
    exec (.peerWriteAck sid n id port) s = .next t ∧ MemoryKept s t ∧ findGroup t sid n = some g' ∧ SameRegisters g g' ∧ ∃ o', findOp g' id = some o' ∧
      o' = { o with ports := o'.ports, writes := o'.writes } ∧
      (∀ p, p ≠ port → (o'.ports.filter fun x => x.2 = p) = o.ports.filter fun x => x.2 = p) ∧
      let count (x : OpRec) : Nat := (x.ports.filter fun y => y.2 = port).length
      ((∀ x ∈ o.writes, throughPort port x = false) → o'.writes = o.writes ∧ count o' = count o - 1) ∧
      (findTransfer s sid n id = none → (∀ x ∈ o.writes, throughPort port x = false) → t.peer = s.peer) ∧
      ∀ before lane k bs after, o.writes = before ++ OpWrite.peer lane port k bs :: after → (∀ x ∈ before, throughPort port x = false) → ∃ rest,
        o'.writes = before ++ after ++ rest.map (fun r => .peer lane port r.1 r.2) ∧ count o' = count o - 1 + rest.length ∧
        (findTransfer s sid n id = none → AnsweredAs k bs rest s.peer t.peer)) ∧
  (∀ s sid n id port (tr : TransferEntry) before w after, findTransfer s sid n id = some tr → tr.pending = before ++ w :: after →
    (∀ x ∈ before, x.1 ≠ port) → w.1 = port →
    (∀ g o, findGroup s sid n = some g → findOp g id = some o → ∀ x ∈ o.writes, throughPort port x = false) →
    ∃ t rest, exec (.peerWriteAck sid n id port) s = .next t ∧ MemoryKept s t ∧ AnsweredAs w.2.1 w.2.2 rest s.peer t.peer ∧
      findTransfer t sid n id = some { tr with pending := before ++ after ++ rest.map fun r => (port, r.1, r.2) }) ∧
  (∀ s sid n id lane reason, reason ∉ [6, 7, 9, 10, 25] → exec (.peerErrorResponse sid n id lane reason) s = .next s) ∧
  (∀ s sid n id lane reason sp g o, reason ∈ [6, 7, 9, 10, 25] → findSpan s sid = some sp → sp.groups[n]? = some g → findOp g id = some o →
    o.done = false → (∃ p, (lane, p) ∈ o.ports) → o.cause = none → ∃ t g' o', exec (.peerErrorResponse sid n id lane reason) s = .next t ∧
      SameBytes s t ∧ findGroup t sid n = some g' ∧ SameRegisters g g' ∧ findOp g' id = some o' ∧
      o'.cause = some (causeOf 3 reason) ∧ (∀ p ∈ o'.ports, p.1 ≠ lane) ∧ (∀ p k b, OpWrite.peer lane p k b ∉ o'.writes) ∧
      (∀ l p k b, l ≠ lane → OpWrite.peer l p k b ∈ o.writes → OpWrite.peer l p k b ∈ o'.writes) ∧
      ∀ r l v, l ≠ lane → OpWrite.lane r l v ∈ o.writes → OpWrite.lane r l v ∈ o'.writes) ∧
  (∀ s sid n id lane reason (tr : TransferEntry), reason ∈ [6, 7, 9, 10, 25] → findTransfer s sid n id = some tr →
    (tr.pending ≠ [] ∨ tr.readPorts ≠ []) → tr.cause = none → ∃ t, exec (.peerErrorResponse sid n id lane reason) s = .next t ∧
      findTransfer t sid n id = some { tr with readPorts := [], cause := some (causeOf 6 reason) }) ∧
  (∀ s kind off data, s.outside.expctx.getLsbD 8 = false → ∃ t, exec (.peerAccessIngress kind off data) s = .next t ∧ t.mem = s.mem ∧
    AnswersPeer none 6 s t) ∧
  (∀ s kind off data (i : Nat) sr, s.outside.expctx.getLsbD 8 = true →
    let order : List (Nat × Nat) := [(2, 6), (3, 9), (3, 7), (3, 8), (4, 6), (5, 10)]
    let met (x : Nat × Nat) : Prop := ∃ q ∈ reachRun s none (s.outside.expctx.toNat % 256) (ingressNeed kind) off.toNat
      (if kind < 2 then data.length else atomSize (kind - 2)), partFault false x.1 x.2 q = true
    order[i]? = some sr → met sr → (∀ (j : Nat) x, j < i → order[j]? = some x → ¬ met x) → ∃ t, exec (.peerAccessIngress kind off data) s = .next t ∧
      t.mem = s.mem ∧ AnswersPeer none sr.2 s t) ∧
  (∀ s off data keys, s.outside.expctx.getLsbD 8 = true →
    memKeys (reachRun s none (s.outside.expctx.toNat % 256) .store off.toNat data.length) = some keys → ∃ t,
      exec (.peerAccessIngress 1 off data) s = .next t ∧ AnswersPeer (some []) 0 s t ∧ MemoryIs (keys.zip data) s t) ∧
  (∀ s off data keys, s.outside.expctx.getLsbD 8 = true →
    memKeys (reachRun s none (s.outside.expctx.toNat % 256) .load off.toNat data.length) = some keys → ∃ t,
      exec (.peerAccessIngress 0 off data) s = .next t ∧ t.mem = s.mem ∧
      (Correctable s keys → AnswersPeer (some (keys.map (readByte s.mem))) 0 s t) ∧ (¬ Correctable s keys → AnswersPeer none 25 (noteError (causeOf 3 25) s) t)) ∧
  (∀ s off data keys k, s.outside.expctx.getLsbD 8 = true → k < 12 →
    memKeys (reachRun s none (s.outside.expctx.toNat % 256) .atomic off.toNat (atomSize k)) = some keys → Correctable s keys → ∃ t,
      exec (.peerAccessIngress (2 + k) off data) s = .next t ∧ AnswersPeer (some (keys.map (readByte s.mem))) 0 s t ∧
      MemoryIs (keys.zip (natToBytes keys.length (atomValue k (valueAt (readByte s.mem) keys) (bytesToNat data)))) s t) ∧
  (∀ s port l seq ok, s.outside.links[port]? = some l → ∃ t x, exec (.flitReceive port seq ok) s = .next t ∧ LinkIs port x s t ∧
    (l.state ≠ .up → x = l) ∧ (l.state = .up → ok = false → x = { l with replayAsked := true }) ∧
    (l.state = .up → ok = true → seq = l.expected → x = { l with expected := l.expected + 1, replayAsked := false }) ∧
    (l.state = .up → ok = true → seq ≠ l.expected → x = l)) ∧
  (∀ s port l, s.outside.links[port]? = some l → ∃ t x, exec (.flitReplay port) s = .next t ∧ LinkIs port x s t ∧
    x = if l.state = .up ∧ l.unacked ≠ [] then { l with wire := l.wire ++ l.unacked, failures := l.failures + 1 } else l) ∧
  (∀ port dev l, let x := sendFlit port dev l
    ∃ f : Flit, x = { l with next := l.next + 1, unacked := l.unacked ++ [f], wire := l.wire ++ [f] } ∧ f.seq = l.next ∧ f.dev = dev ∧
      (∀ k, f.entry = some k → (k, dev) ∈ l.headers) ∧ (f.entry = none → ∀ k, (k, dev) ∉ l.headers)) ∧
  (∀ s port l seq, s.outside.links[port]? = some l → ∃ t x, exec (.flitAck port seq) s = .next t ∧ LinkIs port x s t ∧
    (¬ (l.state = .up ∧ ∃ f ∈ l.unacked, f.seq = seq) → x = l) ∧
    (l.state = .up → (∃ f ∈ l.unacked, f.seq = seq) →
      x = { l with unacked := l.unacked.filter (fun f => decide (seq < f.seq)), failures := 0, headers := x.headers } ∧
      HeadersAfter (l.unacked.filter fun f => decide (f.seq ≤ seq)) l.headers x.headers)) ∧
  (∀ s port l, s.outside.links[port]? = some l → ∃ t x, exec (.linkRetrain port) s = .next t ∧ LinkIs port x s t ∧
    x = if l.state = .up ∧ 8 ≤ l.failures then { l with state := .retraining } else l) ∧
  (∀ s port l, s.outside.links[port]? = some l → ∃ t x, exec (.linkRetrained port) s = .next t ∧ LinkIs port x s t ∧
    x = if l.state = .retraining then { l with wire := l.wire ++ l.unacked, state := .up, failures := 0 } else l) ∧
  (∀ s port l, s.outside.links[port]? = some l → l.state ≠ .retraining → exec (.portDown port) s = .next s) ∧
  ∀ s port l, s.outside.links[port]? = some l → l.state = .retraining → ∃ t x, exec (.portDown port) s = .next t ∧
    t.outside.links[port]? = some x ∧ x.state = .down ∧ x.unacked = [] ∧ (∀ p, p ≠ port → t.outside.links[p]? = s.outside.links[p]?) ∧
    (ringBase s.outside.evq = 0 → ∀ a, readByte t.mem a = readByte s.mem a) ∧
    (ringBase s.outside.evq ≠ 0 → s.outside.eventsHeld = [] → ringUsed s.outside.evq s.outside.eventSeq < ringSize s.outside.evq → port < 2 ^ 16 →
      t.outside.eventSeq = s.outside.eventSeq + 1 ∧
      t.outside.vectors = (if ringUsed s.outside.evq s.outside.eventSeq = 0 then s.outside.vectors ++ [0] else s.outside.vectors) ∧
      ∀ a, readByte t.mem a = storedOver (bytesAt (hostKey (ringBase s.outside.evq + 32 * (s.outside.eventSeq % ringSize s.outside.evq))) 32
        (2 ^ 224 * ((s.outside.eventSeq + 1) % 2 ^ 32) + 2 ^ 216 * 5 + port)) (readByte s.mem) a) ∧
    (∀ sid n id sp g o, findSpan s sid = some sp → sp.groups[n]? = some g → g.num = n → findOp g id = some o → o.done = false →
      (∃ lane, (lane, port) ∈ o.ports) → o.cause = none →
      ∃ g' o', findGroup t sid n = some g' ∧ findOp g' id = some o' ∧ o'.cause = some (causeOf 3 30) ∧ ∀ y ∈ o'.ports, y.2 ≠ port) ∧
    ∀ sid sp (q : Nat) (l' : List TransferEntry) (e : TransferEntry), findSpan s sid = some sp → sp.queues[q]? = some l' → e ∈ l' →
      (port ∈ e.readPorts ∨ ∃ w ∈ e.pending, w.1 = port) → e.cause = none → ∃ sp', ∃ l'' : List TransferEntry, findSpan t sid = some sp' ∧
        sp'.queues[q]? = some l'' ∧ { e with readPorts := [], cause := some (causeOf 6 30) } ∈ l''

/-- R90, R279, R425, R429: a host access within a line, once the granules of the one before it are performed, reads or writes the device's memory
granule by granule (those that are late are the model's choice, log 80) and is answered, poisoned where its frame is gone or its
data are uncorrectable, and held where its frame is locked; an event takes one record of the ring, numbered, and fires vector 0 where the ring
was empty; a ring of 0 takes none; an uncorrectable error met is posted as event 3, and summaries of the correctable ones as event 2 at times
the model leaves open (log 67).
Where the spec leaves a point open the model's choice is that of log 21, 67 and 80. -/
def Obligations.HostAccess : Prop :=
  (∀ s w tier pa data, exec (.hostCxlMemAccess w tier pa data) s = exec (.hostCxlMemAccess w tier pa data) (hostPerformed s)) ∧
  (∀ s w tier pa data, NoHostLate s → ¬ hostLine tier pa data.length → exec (.hostCxlMemAccess w tier pa data) s = .next s) ∧
  (∀ s w tier pa data, NoHostLate s → hostLine tier pa data.length → frameExists s tier (pa / 2 ^ 21) = false → ∃ t,
    exec (.hostCxlMemAccess w tier pa data) s = .next t ∧ MemoryIs [] s t ∧ AnswersHost none s t) ∧
  (∀ s w tier pa data, NoHostLate s → hostLine tier pa data.length → frameExists s tier (pa / 2 ^ 21) = true →
    frameLocked s tier (pa / 2 ^ 21) = true → ∃ t, exec (.hostCxlMemAccess w tier pa data) s = .next t ∧
    t = { s with outside := { s.outside with hostHeld := s.outside.hostHeld ++ [(w, tier, pa, data)] } }) ∧
  (∀ s tier pa data, NoHostLate s → hostLine tier pa data.length → frameExists s tier (pa / 2 ^ 21) = true →
    frameLocked s tier (pa / 2 ^ 21) = false → let keys := (List.range data.length).map (memKey tier pa + ·)
    (∃ t, exec (.hostCxlMemAccess true tier pa data) s = .next t ∧ AnswersHost (some []) s t ∧ MemoryIs (keys.zip data) s (hostPerformed t) ∧
      (data.length ≤ 8 - pa % 8 → MemoryIs (keys.zip data) s t ∧ t.late = s.late)) ∧
    ∃ t, exec (.hostCxlMemAccess false tier pa data) s = .next t ∧ t.mem = s.mem ∧ t.late = s.late ∧
      (Correctable s keys → AnswersHost (some (keys.map (readByte s.mem))) s t) ∧ (¬ Correctable s keys → AnswersHost none s t)) ∧
  (∀ v s, v.toNat / 2 ^ 68 % 2 ^ 28 ≠ 0 ∨ v.toNat % 2 ^ 12 ≠ 0 → exec (.evqWrite v) s = .next s) ∧
  (∀ v s, v.toNat / 2 ^ 68 % 2 ^ 28 = 0 → v.toNat % 2 ^ 12 = 0 → s.outside.eventsHeld = [] → ∃ t, exec (.evqWrite v) s = .next t ∧
    t = { s with outside := { s.outside with evq := v, eventSeq := t.outside.eventSeq } } ∧
    t.outside.eventSeq = if v.toNat / 2 ^ 12 % 2 ^ 56 = s.outside.evq.toNat / 2 ^ 12 % 2 ^ 56 then s.outside.eventSeq else 0) ∧
  (∀ kind detail s, ringBase s.outside.evq = 0 → postEvent kind detail s = s) ∧
  (∀ c s, s.outside.boot = .running → s.outside.ras = [c] →
    let v := postEvent 3 c.toNat { s with outside := { s.outside with ras := [] } }
    ∃ u, u = { v with fresh := u.fresh } ∧ (reportErrors s = u ∨ ∃ d, d < 2 ^ 9 ∧ reportErrors s = postEvent 2 d u)) ∧
  ∀ kind detail s, ringBase s.outside.evq ≠ 0 → s.outside.eventsHeld = [] → ringUsed s.outside.evq s.outside.eventSeq < ringSize s.outside.evq →
    kind < 2 ^ 8 → detail < 2 ^ 16 → let t := postEvent kind detail s
    t.outside.eventSeq = s.outside.eventSeq + 1 ∧ t.outside.eventsHeld = [] ∧
    t.outside.vectors = (if ringUsed s.outside.evq s.outside.eventSeq = 0 then s.outside.vectors ++ [0] else s.outside.vectors) ∧
    MemoryIs (bytesAt (hostKey (ringBase s.outside.evq + 32 * (s.outside.eventSeq % ringSize s.outside.evq))) 32
      (2 ^ 224 * ((s.outside.eventSeq + 1) % 2 ^ 32) + 2 ^ 216 * kind + detail)) s t

namespace Sys2Proof.Claims

/-! ### The keystone (R239, R243, R258, R278, R434 to R437) -/

/-- A firmware image whose signatures verify and whose version is no older than the fused one (R434; bit 0 and the rest, log 40). -/
def goodImage (s : State) (image : Nat) : Prop := image % 2 = 1 ∧ s.outside.fusedVersion ≤ image / 2

/-- What a reset makes of the part: no span, launch, queue or translation of before is left, and the registers are at their reset values. -/
def PartReset (t : State) : Prop :=
  t.spans = [] ∧ t.launches = [] ∧ t.fe = State.reset.fe ∧ t.issuer = State.reset.issuer ∧ t.vm.ctxtab = 0 ∧ t.vm.pierTlb = [] ∧ t.vm.dieTlb = [] ∧
  t.vm.windows = [] ∧ t.vm.moves = [] ∧ t.deck = [] ∧ t.opbuf = [] ∧ t.icache = [] ∧ t.late = []

/-- HBMCAP at a reset: 16 layers of which those mapped out are not present (R437). -/
def capsAt (excluded : List (Nat × Nat)) (t : State) : Prop :=
  ∀ k l, k < 8 → l < 16 → ∃ cap, t.vm.hbmcap[k]? = some cap ∧ (cap.getLsbD l = true ↔ (k, l) ∉ excluded)

/-- The privileged registers without a row of their own: offset, writes that are ignored, and what a write leaves (R239, R243, R258, R278,
R426 to R428, R431; what an MSI-X entry holds is the model's choice, log 87). -/
def RegisterWrites (offset : Nat) (v : BitVec 128) (s t : State) : Prop :=
  let n := v.toNat % 2 ^ 64
  (offset = 0 → t = if n / 2 ^ 6 = 0 then { s with fe := { s.fe with fmode := BitVec.ofNat 64 n } } else s) ∧
  (offset = 8 → ∃ c : BitVec 64, t = { s with fe := { s.fe with powcap := c } } ∧ c.toNat % 2 ^ 16 = n % 2 ^ 16 ∧ c.toNat / 2 ^ 32 = n / 2 ^ 32 ∧
    c.toNat / 2 ^ 16 % 2 ^ 16 = s.fe.powcap.toNat / 2 ^ 16 % 2 ^ 16) ∧
  (offset = 0x18 → t = if v.toNat / 2 ^ 64 % 4096 = 0 ∧ n % 4096 = 0 ∧ ∀ p ∈ s.spans, holdsArea p.2 = false then
    { s with fe := { s.fe with ctxpool := v } } else s) ∧
  (offset = 0x40 → t = if n / 2 ^ 2 % 2 ^ 12 = 0 ∧ n % 4 < 2 then { s with vm := { s.vm with ctxtab := BitVec.ofNat 64 n } } else s) ∧
  (∀ q, offset = 0x30000 + 8 * q → q < 4096 → (n < 2 ^ 8 → (∀ p, cellGet 0 t.vm.qctx p = if p = q then BitVec.ofNat 64 n else cellGet 0 s.vm.qctx p) ∧
    t = { s with vm := { s.vm with qctx := t.vm.qctx } }) ∧ (2 ^ 8 ≤ n → t = s)) ∧
  (offset = 0x40000 → t = if n < 2 ^ 16 ∧ (∀ d, d < 4 → n.testBit (4 * d + 3) = false) then
    { s with outside := { s.outside with pmhead := BitVec.ofNat 64 n } } else s) ∧
  (offset = 0x50010 → t = if n < 2 ^ 9 then { s with outside := { s.outside with expctx := BitVec.ofNat 16 n } } else s) ∧
  (∀ k, offset = 0x100000 + 16 * k → k < 131 → t = { s with outside := { s.outside with msixTable := t.outside.msixTable } } ∧
    ∀ j, cellGet 0 t.outside.msixTable j = if j = k then v else cellGet 0 s.outside.msixTable j) ∧
  (0x180000 ≤ offset → t = s)

end Sys2Proof.Claims

/-- R239, R243, R244, R258, R278, R428, R431, R434 to R437: register writes, boot, resets, attestation, heat and power.
Where the spec leaves a point open the model's choice is that of log 22, 23, 40 and 87. -/
def Obligations.Keystone : Prop :=
  (∀ offset v s, ∃ t, exec (.privilegedRegisterWrite offset v) s = .next t ∧ RegisterWrites offset v s t) ∧
  (∀ a b s, ∃ t, exec (.coldBoot a b) s = .next t ∧ PartReset t ∧ t.mem = [] ∧ t.poison = [] ∧ capsAt s.outside.excluded t ∧
    t.outside.excluded = s.outside.excluded ∧ t.outside.fusedVersion = s.outside.fusedVersion ∧ t.outside.lmsLeft = s.outside.lmsLeft ∧
    t.outside.podId < 512 ∧ t.outside.retrained = List.replicate 8 true ∧ t.outside.serials = s.outside.serials ∧
    (s.outside.stored.length = 8 → s.outside.serials.length = 8 → ∀ k, k < 8 → ∃ x, t.outside.stored[k]? = some x ∧
      s.outside.serials[k]? = some x.serial ∧ t.outside.trained[k]? = some x.results ∧ ∀ l, l < 16 → (x.present.getLsbD l = true ↔ (k, l) ∉ s.outside.excluded)) ∧
    (goodImage s a → t.outside.boot = .running ∧ t.outside.image = a) ∧
    (¬ goodImage s a → goodImage s b → t.outside.boot = .running ∧ t.outside.image = b) ∧
    (¬ goodImage s a → ¬ goodImage s b → t.outside.boot = .recovery)) ∧
  (∀ i s, (s.outside.boot = .recovery → goodImage s i → ∃ t, exec (.recoveryImage i) s = .next t ∧
      t = { s with outside := { s.outside with boot := .running, image := i } }) ∧
    (¬ (s.outside.boot = .recovery ∧ goodImage s i) → exec (.recoveryImage i) s = .next s)) ∧
  (∀ checks s, (s.outside.boot = .heldInReset → exec (.warmReset checks) s = .next s) ∧
    (s.outside.boot ≠ .heldInReset → NoHostLate s → s.outside.ingressHeld = [] → s.outside.hostHeld = [] → ∃ t, exec (.warmReset checks) s = .next t ∧ PartReset t ∧
      t.mem = s.mem ∧ t.poison = s.poison ∧ capsAt s.outside.excluded t ∧ t.outside.excluded = s.outside.excluded ∧
      let trains (k : Nat) : Bool := checks.getLsbD k || decide ((s.outside.stored[k]?).map (·.serial) ≠ s.outside.serials[k]?)
      (s.outside.retrained.length = 8 → t.outside.retrained = (List.range 8).map trains) ∧
      (∀ k x, k < s.outside.trained.length → k < 8 → s.outside.stored[k]? = some x → trains k = false →
        t.outside.stored[k]? = some x ∧ t.outside.trained[k]? = some x.results) ∧
      (goodImage s s.outside.flashA → t.outside.boot = .running ∧ t.outside.image = s.outside.flashA) ∧
      (¬ goodImage s s.outside.flashA → goodImage s s.outside.flashB → t.outside.boot = .running ∧ t.outside.image = s.outside.flashB) ∧
      (¬ goodImage s s.outside.flashA → ¬ goodImage s s.outside.flashB → t.outside.boot = .recovery))) ∧
  (∀ r s, ∃ t, exec (.spdmRequest r) s = .next t ∧ t = { s with outside := { s.outside with
      lmsLeft := t.outside.lmsLeft, reports := t.outside.reports, refused := t.outside.refused } } ∧
    (s.outside.lmsLeft = 0 → t.outside.reports = s.outside.reports ∧ t.outside.refused = s.outside.refused + 1 ∧ t.outside.lmsLeft = 0) ∧
    (s.outside.lmsLeft ≠ 0 → t.outside.lmsLeft + 1 = s.outside.lmsLeft ∧ t.outside.refused = s.outside.refused ∧
      ∃ w, t.outside.reports = s.outside.reports ++ [(r, w)])) ∧
  (∀ die above s, ∃ t, exec (.thermalThrottle die above) s = .next t ∧ t = { s with outside := { s.outside with throttled := t.outside.throttled } } ∧
    ∀ d, t.outside.throttled[d]? = (s.outside.throttled[d]?).map fun x => if d = die then above else x) ∧
  (∀ die s, ∃ t, exec (.thermalTrip die) s = .next t ∧ PartReset t ∧ t.outside.boot = .heldInReset ∧
    (ringBase s.outside.evq = 0 → NoHostLate s → t.mem = s.mem)) ∧
  (∀ s, ∃ t, exec .powerRefresh s = .next t ∧ SameBytes s t ∧ t.spans = s.spans ∧ t.launches = s.launches ∧
    t.fe = { s.fe with headroom := t.fe.headroom, powcap := t.fe.powcap } ∧ t.fe.powcap.toNat % 2 ^ 16 = s.fe.powcap.toNat % 2 ^ 16 ∧
    t.fe.powcap.toNat / 2 ^ 32 = s.fe.powcap.toNat / 2 ^ 32 ∧
    (hwMode s 5 = false → t.fe.headroom = (List.range 4).map fun d => s.outside.pmhead.toNat / 2 ^ (4 * d) % 8) ∧
    (hwMode s 5 = true → t.fe.headroom.length = 4 ∧ ∀ c ∈ t.fe.headroom, c ≤ 7)) ∧
  ∀ draw u sum cap k, 0 < u * cap → k ≤ 7 → (k ≤ headroomClass draw u sum cap ↔ k * (u * cap) + 8 * (draw * sum) ≤ 8 * (u * cap) ∨ k = 0)

namespace Sys2Proof.Claims

/-! ### Words that are no legal instruction (R74, R80 to R82) -/

/-- A gang of a group of a span issues and a register's number is not in its group's allocation, or beyond v127 (R66). -/
def outside (r : Nat) (s : State) : Prop := (curGroup s).alloc < r + 1 ∨ 128 < r + 1

/-- A word with no prefix. -/
def bareWord (e : Enc) : Prop := e.xp = none

end Sys2Proof.Claims

/-- R74, R80, R81, R82: a misused XP faults 0:1; a word of a reserved opcode is one the map lacks and faults 0:0; of the causes that apply to
a word 0:0 comes before 0:2, 0:2 before 0:4 and 0:4 before 0:3, shown on NOP, WAITR, ADD.b64 and the three-register instructions; a compact
word faults 0:3 alone. Nothing but the trap comes of such a word.
Where the spec leaves a point open the model's choice is that of log 57. -/
def Obligations.IllegalWords : Prop :=
  (∀ p s sid n sl, s.issuer = .gang sid n sl → exec (.xp p) s = .next (faultWith 0 1 (gangLanes s) s)) ∧
  (∀ op e, reservedOpcode op = true → instrOf op e = .reservedOpcodeWord op e) ∧
  (∀ op e s sid n sl, s.issuer = .gang sid n sl → exec (.reservedOpcodeWord op e) s = .next (faultWith 0 0 (actLanes e s) s)) ∧
  (∀ e s sid n sl, s.issuer = .gang sid n sl → (e.rd ≠ 0 ∨ e.ra ≠ 0 ∨ e.rb ≠ 0) → exec (.nop e) s = .next (faultWith 0 0 (actLanes e s) s)) ∧
  (∀ e s sid n sl, s.issuer = .gang sid n sl → bareWord e → e.u = false →
    (e.rd ≠ 0 ∨ 6 ≤ e.rb.toNat → exec (.waitr e) s = .next (faultWith 0 0 (actLanes e s) s)) ∧
    (e.rd = 0 → e.rb.toNat < 6 → exec (.waitr e) s = .next (faultWith 0 2 (actLanes e s) s))) ∧
  (∀ e s sid n sl, s.issuer = .gang sid n sl → bareWord e → e.u = false →
    (e.rd.toNat % 2 = 1 ∨ e.ra.toNat % 2 = 1 ∨ e.rb.toNat % 2 = 1 → exec (.addB64 e) s = .next (faultWith 0 4 (actLanes e s) s)) ∧
    (e.rd.toNat % 2 = 0 → e.ra.toNat % 2 = 0 → e.rb.toNat % 2 = 0 →
      outside (e.rd.toNat + 1) s ∨ outside (e.ra.toNat + 1) s ∨ outside (e.rb.toNat + 1) s →
      exec (.addB64 e) s = .next (faultWith 0 3 (actLanes e s) s))) ∧
  (∀ row ∈ threeRegisterRows, ∀ e s sid n sl, s.issuer = .gang sid n sl → bareWord e → e.u = false →
    outside e.rd.toNat s ∨ outside e.ra.toNat s ∨ outside e.rb.toNat s → exec (row.1 e) s = .next (faultWith 0 3 (actLanes e s) s)) ∧
  (∀ c s sid n sl, s.issuer = .gang sid n sl → outside c.rd.toNat s ∨ outside c.rs.toNat s →
    exec (.compactMov c) s = .next (faultWith 0 3 (guardedLanes (if c.g1 then 1 else 0) s) s)) ∧
  ∀ op e p s l en (k : Nat), s.issuer = .prologue k → s.fe.engines[k]? = some en → en.launch = some l →
    exec (.xp p) s = .next (failLaunch l (causeOf 10 1) s) ∧
    exec (.reservedOpcodeWord op e) s = .next (failLaunch l (causeOf 10 (if e.u then 0 else 2)) s)

/-- R229, R239, R243, R278, R428, R429, R431: what reset leaves: no queue, launch, span or translation, hardware mode for every function, every
register of the translation side 0 but HBMCAP, headroom input 7 for each die, no event ring and no export context. Memory lists nothing, and an
unlisted byte reads 0 (log 4), the model's choice.
Where the spec leaves a point open the model's choice is that of log 2 and 4. -/
def Obligations.ResetState : Prop :=
  let r := State.reset
  r.spans = [] ∧ r.launches = [] ∧ r.fe.queues = [] ∧ r.fe.slots = [] ∧ r.fe.fmode = 0x3F ∧ r.fe.ctxpool = 0 ∧
  r.vm.ctxtab = 0 ∧ r.vm.tlbinv = 0 ∧ r.vm.faultq = 0 ∧ r.vm.spare = 0 ∧ r.vm.pierTlb = [] ∧ r.vm.dieTlb = [] ∧
  r.vm.hbmcap = List.replicate 8 0x10FFFF ∧ r.outside.pmhead = 0x7777 ∧ r.outside.evq = 0 ∧ r.outside.expctx = 0 ∧
  (∀ a, readByte r.mem a = 0) ∧ storesWf r = true

/-- Every instruction and every step has an outcome: none ends a run. -/
def Obligations.ExecAlwaysAnswers : Prop := ∀ i s, ∃ t, exec i s = .next t

/-- The canonical form of the stores is kept by every step, from any state that has it. -/
def Obligations.StepKeepsStores : Prop := ∀ s t, storesWf s = true → step s = .next t → storesWf t = true

namespace Sys2Proof.Claims

/-- What runs a decoded instruction in a step. -/
noncomputable def running (sh : Shape) (s : State) : Host.Outcome State Fault Refusal := exec (instrOfShape sh) s

end Sys2Proof.Claims

/-- R61, R86, R128, R129, R216: where the agenda names a quadrant, and the bytes at the pc of the gang that is chosen decode to an instruction,
the step is that instruction's, once its group's earlier accesses are performed (but before an instruction that asks for none of them, the model's
choice, log 80), and an instruction of a skid is counted; an uncorrectable error
in one of the group's storages kills its span instead; where no gang can issue only the clocks go on; where the agenda names an engine, the step
is the instruction of its prologue; where it names an agent's step, the step is that one, once the atomics are performed.
Where the spec leaves a point open the model's choice is that of log 3, 12, 67 and 80. -/
def Obligations.StepRunsDecoded : Prop :=
  (∀ s pier q rest sid n slice bs blocks i len t, s.agenda = .issue pier q :: rest →
    let u := passTime { s with agenda := rest }
    let ready := readyGroups running u pier q
    let v := issuing sid n slice (countClock ready (some (sid, n, slice)) u q pier)
    u.outside.boot = .running → u.outside.throttled[pier / 64]? ≠ some true → chosen ready = some (sid, n, slice) →
    (groupStruck v sid n = true → step s = .next (countSkid sid n slice v (killPoisoned sid v))) ∧
    (groupStruck v sid n = false → fetchCancelled v = none → fetchCode v = .bytes bs blocks → decode (codeOffset v) bs = .ok (i, len) →
      exec i (holdBlocks blocks v) = .next t → step s = .next (countSkid sid n slice v t))) ∧
  (∀ s pier q rest, s.agenda = .issue pier q :: rest →
    let u := passTime { s with agenda := rest }
    u.outside.boot = .running → u.outside.throttled[pier / 64]? ≠ some true → chosen (readyGroups running u pier q) = none →
    step s = .next (countClock (readyGroups running u pier q) none u q pier)) ∧
  (∀ s e rest bs blocks i len t, s.agenda = .prologue e :: rest →
    let u := passTime { s with agenda := rest }
    let v := { u with issuer := .prologue e }
    u.outside.boot = .running → engineReady u e = true → fetchCancelled v = none → fetchCode v = .bytes bs blocks →
    decode (codeOffset v) bs = .ok (i, len) → exec i (holdBlocks blocks v) = .next t → step s = .next (countPrologue e v t)) ∧
  ∀ s i rest, s.agenda = .event i :: rest → s.outside.boot = .running → step s = exec i (settleAtomics (passTime { s with agenda := rest }))

namespace Sys2Proof.Claims

/-- The fields of a word without a prefix: rd, ra, rb, guard, U (R64). -/
def fields (rd ra rb : BitVec 6) (guard : BitVec 3) (u : Bool) : Enc := ⟨none, rb, ra, rd, guard, u⟩
def extended (xp : BitVec 22) (rd ra rb : BitVec 6) (guard : BitVec 3) (u : Bool) : Enc := ⟨some xp, rb, ra, rd, guard, u⟩

end Sys2Proof.Claims

/-- R61, R64, R71, R77, R79: words of the spec's examples decode to what they stand for. -/
def Obligations.DecodeWords : Prop :=
  decodeTableWord 32 0x18510011 = some (.divS32 (fields 4 5 6 0 false)) ∧
  decodeTableWord 64 0x10308053011183FF = some (.prmt (extended 0x004460 2 3 4 0 false)) ∧
  decodeTableWord 32 0xFFFE0201 = some (.bra (fields 0x38 0x3F 0x3F 0 false)) ∧
  decodeTableWord 32 0x08500621 = some (.waitr (fields 0 5 2 0 true)) ∧
  decodeTableWord 32 0x00E00225 = some (.fence (fields 0 14 0 0 false)) ∧
  decodeTableWord 32 0xF821030B = some (.ldB64 (fields 4 2 0x3E 0 false)) ∧
  decodeTableWord 64 0x0821C313038003FF = some (.stB32 (extended 0x00E000 7 2 2 0 false)) ∧
  decodeTableWord 32 0x0421833B = some (.atomCasB32 (fields 6 2 1 0 false)) ∧
  decodeTableWord 32 0x20218391 = some (.cpy4 (fields 6 2 8 0 false)) ∧
  decodeTableWord 32 0x000107B1 = some (.erset (fields 4 0 0 0 true)) ∧
  decodeTableWord 32 0x0C8103D5 = some (.symq (fields 4 8 3 0 false)) ∧
  decodeTableWord 16 0x1000 = some (.compactMov ⟨2, 0, false⟩) ∧
  decodeTableWord 32 0x00000081 = some (.reservedOpcodeWord 0x040 (fields 0 0 0 0 false))

/-- R61, R64, R71, R74, R77: decoding what the encoder writes gives back the instruction and its length, with every field at every value, at
every place of a fetch block where the encoding may stand: an extended word wholly within its block, a misused XP where none may. -/
def Obligations.EncodeDecode : Prop :=
  ∀ i off rest sh, wellFormed i = true → shapeOf i = some sh → off % 2 = 0 →
    (match sh with
      | .word _ e => e.xp ≠ none → off + 8 ≤ 64
      | .compact _ _ => True
      | .xp _ => 64 < off + 8) →
    decode off (encode i ++ rest) = .ok (i, (encode i).length)
end

