-- ==== Sys2Proof/Laws/Cells.lean ====
section
/-!
SUPPORT. Laws of sparse stores and numbered lists: an item read after a write, the other items, and the canonical form kept.
-/

namespace Sys2Proof.Machine

/-! ### Reading after a write -/

variable {w : Nat} (d : BitVec w)

theorem cellGet_cellErase_same (c : Cells w) (n : Nat) : cellGet d (cellErase c n) n = d := by
  induction c with
  | nil => rfl
  | cons p rest ih =>
    obtain ⟨k, v⟩ := p
    simp only [cellErase]
    split
    · exact ih
    · next h => simp only [cellGet, h, if_false]; exact ih

theorem cellGet_cellErase_other (c : Cells w) {n m : Nat} (h : m ≠ n) : cellGet d (cellErase c n) m = cellGet d c m := by
  induction c with
  | nil => rfl
  | cons p rest ih =>
    obtain ⟨k, v⟩ := p
    simp only [cellErase]
    split
    · next hk => subst hk; simp only [cellGet, Ne.symm h, if_false]; exact ih
    · simp only [cellGet, ih]

theorem cellGet_cellPut_same (c : Cells w) (n : Nat) (x : BitVec w) : cellGet d (cellPut c n x) n = x := by
  induction c with
  | nil => simp [cellPut, cellGet]
  | cons p rest ih =>
    obtain ⟨k, v⟩ := p
    simp only [cellPut]
    split
    · simp [cellGet]
    · next h1 =>
      split
      · simp [cellGet]
      · simp only [cellGet, h1, if_false]; exact ih

theorem cellGet_cellPut_other (c : Cells w) {n m : Nat} (x : BitVec w) (h : m ≠ n) : cellGet d (cellPut c n x) m = cellGet d c m := by
  induction c with
  | nil => simp [cellPut, cellGet, Ne.symm h]
  | cons p rest ih =>
    obtain ⟨k, v⟩ := p
    simp only [cellPut]
    split
    · next hk => subst hk; simp [cellGet, Ne.symm h]
    · split
      · simp [cellGet, Ne.symm h]
      · simp only [cellGet, ih]

/-- An item written reads back. -/
@[simp] theorem cellGet_cellSet_same (c : Cells w) (n : Nat) (x : BitVec w) : cellGet d (cellSet d c n x) n = x := by
  unfold cellSet
  split
  · next h => rw [cellGet_cellErase_same, h]
  · exact cellGet_cellPut_same d c n x

/-- Every other item reads as before. -/
theorem cellGet_cellSet_other (c : Cells w) {n m : Nat} (x : BitVec w) (h : m ≠ n) :
    cellGet d (cellSet d c n x) m = cellGet d c m := by
  unfold cellSet
  split
  · exact cellGet_cellErase_other d c h
  · exact cellGet_cellPut_other d c x h

theorem cellGet_cellSet (c : Cells w) (n m : Nat) (x : BitVec w) :
    cellGet d (cellSet d c n x) m = if m = n then x else cellGet d c m := by
  split
  · next h => rw [h, cellGet_cellSet_same]
  · next h => exact cellGet_cellSet_other d c x h

/-- Items outside a written range read as before. -/
theorem cellGet_cellSetRange_other (bs : List (BitVec w)) :
    ∀ (c : Cells w) (a m : Nat), m < a ∨ a + bs.length ≤ m → cellGet d (cellSetRange d c a bs) m = cellGet d c m := by
  induction bs with
  | nil => intros; rfl
  | cons x xs ih =>
    intro c a m h
    simp only [List.length_cons] at h
    simp only [cellSetRange]
    rw [ih _ _ _ (by omega), cellGet_cellSet_other d c x (by omega)]

/-- Items of a written range read back. -/
theorem cellGet_cellSetRange_in (bs : List (BitVec w)) :
    ∀ (c : Cells w) (a i : Nat) (h : i < bs.length), cellGet d (cellSetRange d c a bs) (a + i) = bs[i] := by
  induction bs with
  | nil => intro _ _ i h; exact absurd h (Nat.not_lt_zero i)
  | cons x xs ih =>
    intro c a i h
    simp only [cellSetRange]
    cases i with
    | zero => rw [cellGet_cellSetRange_other d xs _ _ _ (by omega)]; simp
    | succ i =>
      have := ih (cellSet d c a x) (a + 1) i (by simpa using h)
      simpa [Nat.add_assoc, Nat.add_comm 1 i] using this

theorem cellRange_length (c : Cells w) (n : Nat) : ∀ a, (cellRange d c a n).length = n := by
  induction n with
  | zero => intro _; rfl
  | succ n ih => intro a; simp [cellRange, ih]

/-- A range reads as its items. -/
theorem cellRange_congr {c c' : Cells w} (n : Nat) :
    ∀ a, (∀ i, i < n → cellGet d c (a + i) = cellGet d c' (a + i)) → cellRange d c a n = cellRange d c' a n := by
  induction n with
  | zero => intros; rfl
  | succ n ih =>
    intro a h
    simp only [cellRange]
    rw [ih (a + 1) (fun i hi => by have := h (i + 1) (by omega); rwa [Nat.add_assoc, Nat.add_comm 1 i])]
    have := h 0 (by omega)
    rw [Nat.add_zero] at this
    rw [this]

/-! ### The canonical form -/

theorem cellsWfFrom_mono {lo lo' : Nat} (h : lo' ≤ lo) {c : Cells w} (hc : cellsWfFrom d lo c = true) : cellsWfFrom d lo' c = true := by
  cases c with
  | nil => rfl
  | cons p rest =>
    obtain ⟨k, v⟩ := p
    simp only [cellsWfFrom, Bool.and_eq_true, decide_eq_true_eq] at hc ⊢
    exact ⟨⟨by omega, hc.1.2⟩, hc.2⟩

theorem cellsWfFrom_filter (q : Nat × BitVec w → Bool) (c : Cells w) :
    ∀ lo, cellsWfFrom d lo c = true → cellsWfFrom d lo (c.filter q) = true := by
  induction c with
  | nil => intros; rfl
  | cons p rest ih =>
    obtain ⟨k, v⟩ := p
    intro lo h
    simp only [cellsWfFrom, Bool.and_eq_true, decide_eq_true_eq] at h
    simp only [List.filter_cons]
    split
    · simp only [cellsWfFrom, Bool.and_eq_true, decide_eq_true_eq]
      exact ⟨h.1, ih _ h.2⟩
    · exact cellsWfFrom_mono d (by omega) (ih _ h.2)

theorem cellsWfFrom_cellErase (n : Nat) (c : Cells w) :
    ∀ lo, cellsWfFrom d lo c = true → cellsWfFrom d lo (cellErase c n) = true := by
  induction c with
  | nil => intros; rfl
  | cons p rest ih =>
    obtain ⟨k, v⟩ := p
    intro lo h
    simp only [cellsWfFrom, Bool.and_eq_true, decide_eq_true_eq] at h
    simp only [cellErase]
    split
    · exact cellsWfFrom_mono d (by omega) (ih _ h.2)
    · simp only [cellsWfFrom, Bool.and_eq_true, decide_eq_true_eq]
      exact ⟨h.1, ih _ h.2⟩

theorem cellsWfFrom_cellPut (n : Nat) (x : BitVec w) (hx : x ≠ d) (c : Cells w) :
    ∀ lo, lo ≤ n → cellsWfFrom d lo c = true → cellsWfFrom d lo (cellPut c n x) = true := by
  induction c with
  | nil => intro lo hlo _; simp [cellPut, cellsWfFrom, hlo, hx]
  | cons p rest ih =>
    obtain ⟨k, v⟩ := p
    intro lo hlo h
    simp only [cellsWfFrom, Bool.and_eq_true, decide_eq_true_eq] at h
    simp only [cellPut]
    split
    · next hk =>
      subst hk
      simp only [cellsWfFrom, Bool.and_eq_true, decide_eq_true_eq]
      exact ⟨⟨hlo, hx⟩, h.2⟩
    · split
      · simp only [cellsWfFrom, Bool.and_eq_true, decide_eq_true_eq]
        exact ⟨⟨hlo, hx⟩, ⟨by omega, h.1.2⟩, h.2⟩
      · simp only [cellsWfFrom, Bool.and_eq_true, decide_eq_true_eq]
        exact ⟨h.1, ih _ (by omega) h.2⟩

@[simp] theorem cellsWf_nil : cellsWf d [] = true := rfl

/-- Writing an item keeps the canonical form. -/
theorem cellsWf_cellSet {c : Cells w} (h : cellsWf d c = true) (n : Nat) (x : BitVec w) : cellsWf d (cellSet d c n x) = true := by
  unfold cellSet
  split
  · exact cellsWfFrom_cellErase d n c 0 h
  · next hx => exact cellsWfFrom_cellPut d n x hx c 0 (Nat.zero_le n) h

theorem cellsWf_filter {c : Cells w} (h : cellsWf d c = true) (q : Nat × BitVec w → Bool) : cellsWf d (c.filter q) = true :=
  cellsWfFrom_filter d q c 0 h

theorem cellsWf_cellSetAll {c : Cells w} (h : cellsWf d c = true) (l : List (Nat × BitVec w)) : cellsWf d (cellSetAll d c l) = true := by
  unfold cellSetAll
  induction l generalizing c with
  | nil => exact h
  | cons p rest ih => exact ih (cellsWf_cellSet d h p.1 p.2)

/-- Writing a range keeps the canonical form. -/
theorem cellsWf_cellSetRange (bs : List (BitVec w)) : ∀ {c : Cells w} (a : Nat), cellsWf d c = true → cellsWf d (cellSetRange d c a bs) = true := by
  induction bs with
  | nil => intro c a h; exact h
  | cons x xs ih => intro c a h; exact ih (a + 1) (cellsWf_cellSet d h a x)

/-- A loop of writes keeps the canonical form. -/
theorem cellsWf_foldl {α : Type} (l : List α) (key : α → Nat) (x : α → BitVec w) {c : Cells w} (h : cellsWf d c = true) :
    cellsWf d (l.foldl (fun acc i => cellSet d acc (key i) (x i)) c) = true := by
  induction l generalizing c with
  | nil => exact h
  | cons i rest ih => exact ih (cellsWf_cellSet d h (key i) (x i))

theorem cellGet_of_wf_lt {c : Cells w} : ∀ {lo n : Nat}, cellsWfFrom d lo c = true → n < lo → cellGet d c n = d := by
  induction c with
  | nil => intros; rfl
  | cons p rest ih =>
    obtain ⟨k, v⟩ := p
    intro lo n h hn
    simp only [cellsWfFrom, Bool.and_eq_true, decide_eq_true_eq] at h
    have hk : k ≠ n := by omega
    simp only [cellGet, hk, if_false]
    exact ih h.2 (by omega)

theorem cells_ext_from {c : Cells w} : ∀ {c' : Cells w} {lo : Nat}, cellsWfFrom d lo c = true → cellsWfFrom d lo c' = true →
    (∀ n, cellGet d c n = cellGet d c' n) → c = c' := by
  induction c with
  | nil =>
    intro c' lo _ h' he
    cases c' with
    | nil => rfl
    | cons p rest =>
      obtain ⟨k, v⟩ := p
      simp only [cellsWfFrom, Bool.and_eq_true, decide_eq_true_eq] at h'
      have := he k
      simp only [cellGet, if_true] at this
      exact absurd this.symm h'.1.2
  | cons p rest ih =>
    obtain ⟨k, v⟩ := p
    intro c' lo h h' he
    simp only [cellsWfFrom, Bool.and_eq_true, decide_eq_true_eq] at h
    cases c' with
    | nil =>
      have := he k
      simp only [cellGet, if_true] at this
      exact absurd this h.1.2
    | cons p' rest' =>
      obtain ⟨k', v'⟩ := p'
      simp only [cellsWfFrom, Bool.and_eq_true, decide_eq_true_eq] at h'
      have hk : k = k' := by
        rcases Nat.lt_trichotomy k k' with hlt | heq | hgt
        · have h1 := he k
          have h2 : k' ≠ k := by omega
          simp only [cellGet, h2, if_true, if_false] at h1
          rw [cellGet_of_wf_lt d h'.2 (by omega)] at h1
          exact absurd h1 h.1.2
        · exact heq
        · have h1 := he k'
          have h2 : k ≠ k' := by omega
          simp only [cellGet, h2, if_true, if_false] at h1
          rw [cellGet_of_wf_lt d h.2 (by omega)] at h1
          exact absurd h1.symm h'.1.2
      subst hk
      have hv := he k
      simp only [cellGet, if_true] at hv
      subst hv
      have hr : rest = rest' := by
        refine ih h.2 h'.2 ?_
        intro n
        by_cases hn : k = n
        · subst hn
          rw [cellGet_of_wf_lt d h.2 (by omega), cellGet_of_wf_lt d h'.2 (by omega)]
        · have := he n
          simpa only [cellGet, hn, if_false] using this
      rw [hr]

/-- Stores in canonical form that read the same are equal. -/
theorem cells_ext {c c' : Cells w} (h : cellsWf d c = true) (h' : cellsWf d c' = true) (he : ∀ n, cellGet d c n = cellGet d c' n) :
    c = c' := cells_ext_from d h h' he

/-! ### Numbered lists -/

variable {α : Type}

theorem keyFind_keyMod_same (n : Nat) (f : α → α) (l : List (Nat × α)) : keyFind n (keyMod n f l) = (keyFind n l).map f := by
  induction l with
  | nil => rfl
  | cons p rest ih =>
    obtain ⟨k, x⟩ := p
    simp only [keyMod]
    split
    · next h => simp [keyFind, h]
    · next h => simpa [keyFind, h] using ih

theorem keyFind_keyMod_other {n m : Nat} (h : m ≠ n) (f : α → α) (l : List (Nat × α)) : keyFind m (keyMod n f l) = keyFind m l := by
  induction l with
  | nil => rfl
  | cons p rest ih =>
    obtain ⟨k, x⟩ := p
    simp only [keyMod]
    split
    · next hk => subst hk; simp [keyFind, Ne.symm h]
    · simp only [keyFind, ih]

theorem keyFind_keySet_same (n : Nat) (x : α) (l : List (Nat × α)) : keyFind n (keySet n x l) = some x := by
  induction l with
  | nil => simp [keySet, keyFind]
  | cons p rest ih =>
    obtain ⟨k, y⟩ := p
    simp only [keySet]
    split
    · simp [keyFind]
    · next h =>
      split
      · simp [keyFind]
      · simpa [keyFind, h] using ih

theorem keyFind_keySet_other {n m : Nat} (h : m ≠ n) (x : α) (l : List (Nat × α)) : keyFind m (keySet n x l) = keyFind m l := by
  induction l with
  | nil => simp [keySet, keyFind, Ne.symm h]
  | cons p rest ih =>
    obtain ⟨k, y⟩ := p
    simp only [keySet]
    split
    · next hk => subst hk; simp [keyFind, Ne.symm h]
    · split
      · simp [keyFind, Ne.symm h]
      · simp only [keyFind, ih]

theorem keyMod_id (n : Nat) (l : List (Nat × α)) : keyMod n (fun x => x) l = l := by
  induction l with
  | nil => rfl
  | cons p rest ih => simp [keyMod, ih]

theorem keyMod_keyMod (n : Nat) (f h : α → α) (l : List (Nat × α)) : keyMod n h (keyMod n f l) = keyMod n (fun x => h (f x)) l := by
  induction l with
  | nil => rfl
  | cons p rest ih =>
    obtain ⟨k, x⟩ := p
    by_cases hk : k = n <;> simp [keyMod, hk, ih]

/-! ### Lists by position -/

theorem listSet_length (f : α → α) (n : Nat) (l : List α) : (listSet f n l).length = l.length := by
  induction l generalizing n with
  | nil => cases n <;> rfl
  | cons x rest ih => cases n <;> simp [listSet, ih]

theorem listSet_getElem?_same (f : α → α) (n : Nat) (l : List α) : (listSet f n l)[n]? = (l[n]?).map f := by
  induction l generalizing n with
  | nil => cases n <;> rfl
  | cons x rest ih => cases n <;> simp [listSet, ih]

theorem listSet_getElem?_other (f : α → α) {n m : Nat} (h : m ≠ n) (l : List α) : (listSet f n l)[m]? = l[m]? := by
  induction l generalizing n m with
  | nil => cases n <;> rfl
  | cons x rest ih =>
    cases n with
    | zero =>
      cases m with
      | zero => exact absurd rfl h
      | succ m => simp [listSet]
    | succ n =>
      cases m with
      | zero => simp [listSet]
      | succ m => simpa [listSet] using ih (by omega)

theorem listSet_listSet (f h : α → α) (n : Nat) (l : List α) : listSet h n (listSet f n l) = listSet (fun x => h (f x)) n l := by
  induction l generalizing n with
  | nil => cases n <;> rfl
  | cons x rest ih => cases n <;> simp [listSet, ih]

theorem mapFrom_getElem? (f : Nat → α → α) (l : List α) : ∀ n i, (mapFrom f n l)[i]? = (l[i]?).map (f (n + i)) := by
  induction l with
  | nil => intros; simp [mapFrom]
  | cons x rest ih =>
    intro n i
    cases i with
    | zero => simp [mapFrom]
    | succ i => simpa [mapFrom, Nat.add_assoc, Nat.add_comm 1 i] using ih (n + 1) i

theorem mapFrom_length (f : Nat → α → α) (l : List α) : ∀ n, (mapFrom f n l).length = l.length := by
  induction l with
  | nil => intros; rfl
  | cons x rest ih => intro n; simp [mapFrom, ih]

theorem natToBytes_length (n : Nat) : ∀ x, (natToBytes n x).length = n := by
  induction n with
  | zero => intro _; rfl
  | succ n ih => intro x; simp [natToBytes, ih]

/-- Bytes written little-endian read back as the number, reduced to their width. -/
theorem bytesToNat_natToBytes (n : Nat) : ∀ x, bytesToNat (natToBytes n x) = x % 256 ^ n := by
  induction n with
  | zero => intro x; simp [natToBytes, bytesToNat, Nat.mod_one]
  | succ n ih =>
    intro x
    have h : (256 : Nat) ^ (n + 1) = 256 * 256 ^ n := Nat.pow_succ'
    simp only [natToBytes, bytesToNat, ih, BitVec.toNat_ofNat, h]
    exact (Nat.mod_mul (x := x) (a := 256) (b := 256 ^ n)).symm

end Sys2Proof.Machine
end

