-- ==== Sys2Proof/Laws/Ops.lean ====
section
/-!
SUPPORT. What the named operations over spans, groups, slices and registers do, each said once.
-/

namespace Sys2Proof.Machine

/-! ### Spans and groups -/

@[simp] theorem findSpan_modSpan_same (s : State) (sid : Nat) (f : Span → Span) :
    findSpan (modSpan s sid f) sid = (findSpan s sid).map f := keyFind_keyMod_same sid f s.spans

theorem findSpan_modSpan_other (s : State) {sid sid' : Nat} (h : sid' ≠ sid) (f : Span → Span) :
    findSpan (modSpan s sid f) sid' = findSpan s sid' := keyFind_keyMod_other h f s.spans

@[simp] theorem findGroup_modGroup_same (s : State) (sid g : Nat) (f : Group → Group) :
    findGroup (modGroup s sid g f) sid g = (findGroup s sid g).map f := by
  unfold findGroup modGroup
  rw [findSpan_modSpan_same]
  cases findSpan s sid with
  | none => rfl
  | some sp => simp [listSet_getElem?_same]

theorem findGroup_modGroup_other (s : State) {sid g sid' g' : Nat} (h : sid' ≠ sid ∨ g' ≠ g) (f : Group → Group) :
    findGroup (modGroup s sid g f) sid' g' = findGroup s sid' g' := by
  unfold findGroup modGroup
  by_cases hs : sid' = sid
  · subst hs
    rw [findSpan_modSpan_same]
    cases findSpan s sid' with
    | none => rfl
    | some sp => simp [listSet_getElem?_other f (h.resolve_left (by simp))]
  · rw [findSpan_modSpan_other s hs]

theorem modGroup_modGroup (s : State) (sid g : Nat) (f h : Group → Group) :
    modGroup (modGroup s sid g f) sid g h = modGroup s sid g fun x => h (f x) := by
  simp only [modGroup, modSpan, keyMod_keyMod, listSet_listSet]

theorem listSet_congr {α : Type} {f h : α → α} (n : Nat) (l : List α) (heq : ∀ x, l[n]? = some x → f x = h x) :
    listSet f n l = listSet h n l := by
  induction l generalizing n with
  | nil => cases n <;> rfl
  | cons x rest ih =>
    cases n with
    | zero => simp only [listSet]; rw [heq x (by simp)]
    | succ n => simp only [listSet]; rw [ih n (fun y hy => heq y (by simpa using hy))]

theorem keyMod_congr {α : Type} {f h : α → α} (n : Nat) (l : List (Nat × α)) (heq : ∀ x, keyFind n l = some x → f x = h x) :
    keyMod n f l = keyMod n h l := by
  induction l with
  | nil => rfl
  | cons p rest ih =>
    obtain ⟨k, x⟩ := p
    simp only [keyMod]
    split
    · next hk => rw [heq x (by simp [keyFind, hk])]
    · next hk => rw [ih (fun y hy => heq y (by simpa [keyFind, hk] using hy))]

theorem modGroup_congr (s : State) (sid g : Nat) {f h : Group → Group} (heq : ∀ x, findGroup s sid g = some x → f x = h x) :
    modGroup s sid g f = modGroup s sid g h := by
  unfold modGroup modSpan
  congr 1
  refine keyMod_congr sid s.spans ?_
  intro sp hsp
  congr 1
  refine listSet_congr g sp.groups ?_
  intro x hx
  refine heq x ?_
  simp [findGroup, findSpan, hsp, hx]

/-! ### The issuing group -/

theorem modCur_gang {s : State} {sid g : Nat} {sl : Option Nat} (h : s.issuer = .gang sid g sl) (f : Group → Group) :
    modCur s f = modGroup s sid g f := by
  simp only [modCur, h]

theorem modCur_prologue {s : State} {e : Nat} (h : s.issuer = .prologue e) (f : Group → Group) :
    modCur s f = { s with fe := { s.fe with engines := listSet (fun en => { en with grp := f en.grp }) e s.fe.engines } } := by
  simp only [modCur, h]

theorem modCur_nobody {s : State} (h : s.issuer = .nobody) (f : Group → Group) : modCur s f = s := by
  simp only [modCur, h]

@[simp] theorem modCur_issuer (s : State) (f : Group → Group) : (modCur s f).issuer = s.issuer := by
  cases h : s.issuer with
  | nobody => rw [modCur_nobody h, h]
  | gang sid g sl => rw [modCur_gang h]; exact h
  | prologue e => rw [modCur_prologue h]; exact h

theorem issues_modCur {s : State} (h : Issues s) (f : Group → Group) : Issues (modCur s f) := by
  unfold Issues at h ⊢
  rw [modCur_issuer]
  cases he : s.issuer with
  | nobody => rw [he] at h; exact h
  | gang sid g sl => rw [he] at h; rw [modCur_gang he]; simpa using h
  | prologue e => rw [he] at h; rw [modCur_prologue he]; simpa [listSet_length] using h

@[simp] theorem curGroup_modCur {s : State} (h : Issues s) (f : Group → Group) : curGroup (modCur s f) = f (curGroup s) := by
  unfold Issues at h
  unfold curGroup
  rw [modCur_issuer]
  cases he : s.issuer with
  | nobody => rw [he] at h; exact absurd h id
  | gang sid g sl =>
    rw [he] at h
    obtain ⟨x, hx⟩ := Option.isSome_iff_exists.mp h
    simp [modCur_gang he, hx]
  | prologue e =>
    rw [he] at h
    have h : e < s.fe.engines.length := h
    simp [modCur_prologue he, listSet_getElem?_same, h]

theorem modCur_modCur (s : State) (f h : Group → Group) : modCur (modCur s f) h = modCur s fun x => h (f x) := by
  cases he : s.issuer with
  | nobody => rw [modCur_nobody he, modCur_nobody he, modCur_nobody he]
  | gang sid g sl =>
    have hi : (modGroup s sid g f).issuer = .gang sid g sl := he
    rw [modCur_gang he, modCur_gang hi, modCur_gang he, modGroup_modGroup]
  | prologue e =>
    have hi : (modCur s f).issuer = .prologue e := by rw [modCur_issuer, he]
    rw [modCur_prologue hi, modCur_prologue he, modCur_prologue he]
    simp only [listSet_listSet]

theorem modCur_congr (s : State) {f h : Group → Group} (heq : f (curGroup s) = h (curGroup s)) : modCur s f = modCur s h := by
  unfold curGroup at heq
  cases he : s.issuer with
  | nobody => rw [modCur_nobody he, modCur_nobody he]
  | gang sid g sl =>
    rw [he] at heq
    rw [modCur_gang he, modCur_gang he]
    refine modGroup_congr s _ _ ?_
    intro x hx
    simpa [hx] using heq
  | prologue e =>
    rw [he] at heq
    rw [modCur_prologue he, modCur_prologue he]
    have hl : listSet (fun en : PrologueEngine => { en with grp := f en.grp }) e s.fe.engines =
        listSet (fun en : PrologueEngine => { en with grp := h en.grp }) e s.fe.engines := by
      refine listSet_congr _ _ ?_
      intro en hen
      simp only [hen, Option.map_some, Option.getD_some] at heq
      rw [heq]
    rw [hl]

/-- Rewriting the issuing group changes only it. -/
theorem onlyGroup_modCur {s : State} (h : Issues s) (f : Group → Group) : OnlyGroup s (modCur s f) := by
  unfold OnlyGroup
  refine modCur_congr s ?_
  rw [curGroup_modCur h]

theorem sameBytes_modCur (s : State) (f : Group → Group) : SameBytes s (modCur s f) := by
  intro a
  cases he : s.issuer with
  | nobody => rw [modCur_nobody he]; exact ⟨rfl, rfl, rfl, rfl⟩
  | gang sid g sl => rw [modCur_gang he]; exact ⟨rfl, rfl, rfl, rfl⟩
  | prologue e => rw [modCur_prologue he]; exact ⟨rfl, rfl, rfl, rfl⟩

@[simp] theorem issuerSlice_modCur (s : State) (f : Group → Group) : issuerSlice (modCur s f) = issuerSlice s := by
  simp [issuerSlice]

/-- The gang stays the same where liveness does. -/
theorem curSlices_modCur {s : State} (h : Issues s) (f : Group → Group)
    (hs : ∀ k : Nat, ((f (curGroup s)).slices[k]?).map sliceLive = ((curGroup s).slices[k]?).map sliceLive) :
    curSlices (modCur s f) = curSlices s := by
  simp only [curSlices, issuerSlice_modCur, curGroup_modCur h, gangSlices]
  split
  · rfl
  · simp only [hs]

/-! ### Slices -/

theorem foldl_listSet_length {α : Type} (f : α → α) (ks : List Nat) (l : List α) :
    (ks.foldl (fun acc k => listSet f k acc) l).length = l.length := by
  induction ks generalizing l with
  | nil => rfl
  | cons k rest ih => simp only [List.foldl_cons, ih, listSet_length]

theorem foldl_listSet_getElem? {α : Type} (f : α → α) (ks : List Nat) (hn : ks.Nodup) (l : List α) (k : Nat) :
    (ks.foldl (fun acc k => listSet f k acc) l)[k]? = (l[k]?).map fun x => if ks.contains k then f x else x := by
  induction ks generalizing l with
  | nil => simp
  | cons j rest ih =>
    rw [List.nodup_cons] at hn
    simp only [List.foldl_cons, ih hn.2]
    by_cases hk : k = j
    · subst hk
      rw [listSet_getElem?_same]
      cases l[k]? <;> simp [hn.1]
    · rw [listSet_getElem?_other f hk]
      cases l[k]? <;> simp [hk]

theorem gangSlices_nodup (g : Group) (slice : Option Nat) : (gangSlices g slice).Nodup := by
  unfold gangSlices
  split
  · simp
  · exact List.Nodup.filter _ List.nodup_range

theorem modSlices_getElem? (g : Group) (ks : List Nat) (hn : ks.Nodup) (f : Slice → Slice) (k : Nat) :
    (modSlices g ks f).slices[k]? = (g.slices[k]?).map fun x => if ks.contains k then f x else x :=
  foldl_listSet_getElem? f ks hn g.slices k

/-! ### Registers -/

theorem readV_writeV (g : Group) (r lane r' lane' : Nat) (v : Word) (h : lane < 32) (h' : lane' < 32) :
    readV (writeV r lane v g) r' lane' = if r' = r ∧ lane' = lane then v else readV g r' lane' := by
  unfold readV writeV
  rw [cellGet_cellSet]
  by_cases hc : r' = r ∧ lane' = lane
  · rw [if_pos hc, if_pos (by omega)]
  · rw [if_neg hc, if_neg (by omega)]

theorem readG_writeG (g : Group) (r r' : Nat) (v : Word) : readG (writeG r v g) r' = if r' = r then v else readG g r' := by
  unfold readG writeG
  rw [cellGet_cellSet]

theorem wordsOf_length (k : Nat) : ∀ x, (wordsOf k x).length = k := by
  induction k with
  | zero => intro _; rfl
  | succ k ih => intro x; simp [wordsOf, ih]

theorem wordsOf_getElem? (k : Nat) : ∀ x j, j < k → (wordsOf k x)[j]? = some (BitVec.ofNat 32 (x / 2 ^ (32 * j))) := by
  induction k with
  | zero => intro _ j h; exact absurd h (Nat.not_lt_zero j)
  | succ k ih =>
    intro x j h
    cases j with
    | zero => simp [wordsOf]
    | succ j =>
      simp only [wordsOf, List.getElem?_cons_succ]
      rw [ih _ j (by omega), Nat.div_div_eq_div_mul, ← Nat.pow_add]
      congr 4
      omega

theorem readV_writeVs (ws : List Word) : ∀ (g : Group) (r lane r' lane' : Nat), lane < 32 → lane' < 32 →
    readV (writeVs r lane ws g) r' lane' =
      if lane' = lane ∧ r ≤ r' ∧ r' < r + ws.length then (ws[r' - r]?).getD 0 else readV g r' lane' := by
  induction ws with
  | nil => intro g r lane r' lane' _ _; simp only [writeVs, List.length_nil]; rw [if_neg (by omega)]
  | cons v rest ih =>
    intro g r lane r' lane' h h'
    simp only [writeVs, List.length_cons]
    rw [ih _ _ _ _ _ h h', readV_writeV g r lane r' lane' v h h']
    by_cases hl : lane' = lane
    · by_cases h0 : r' = r
      · subst h0
        rw [if_neg (by omega), if_pos ⟨rfl, hl⟩, if_pos (by omega)]; simp
      · by_cases h1 : r + 1 ≤ r' ∧ r' < r + 1 + rest.length
        · rw [if_pos ⟨hl, h1⟩, if_pos (by omega)]
          have : r' - r = (r' - (r + 1)) + 1 := by omega
          rw [this, List.getElem?_cons_succ]
        · rw [if_neg (by tauto), if_neg (by tauto), if_neg (by omega)]
    · rw [if_neg (by tauto), if_neg (by tauto), if_neg (by tauto)]

theorem readG_writeGs (ws : List Word) : ∀ (g : Group) (r r' : Nat),
    readG (writeGs r ws g) r' = if r ≤ r' ∧ r' < r + ws.length then (ws[r' - r]?).getD 0 else readG g r' := by
  induction ws with
  | nil => intro g r r'; simp only [writeGs, List.length_nil]; rw [if_neg (by omega)]
  | cons v rest ih =>
    intro g r r'
    simp only [writeGs, List.length_cons]
    rw [ih, readG_writeG]
    by_cases h0 : r' = r
    · subst h0
      rw [if_neg (by omega), if_pos rfl, if_pos (by omega)]; simp
    · by_cases h1 : r + 1 ≤ r' ∧ r' < r + 1 + rest.length
      · rw [if_pos h1, if_pos (by omega)]
        have : r' - r = (r' - (r + 1)) + 1 := by omega
        rw [this, List.getElem?_cons_succ]
      · rw [if_neg h1, if_neg h0, if_neg (by omega)]

/-- Writing lane registers changes only them. -/
theorem writeVs_rest (ws : List Word) : ∀ (g : Group) (r lane : Nat), writeVs r lane ws g = { g with vregs := (writeVs r lane ws g).vregs } := by
  induction ws with
  | nil => intros; rfl
  | cons v rest ih => intro g r lane; simp only [writeVs]; rw [ih]; rfl

theorem writeGs_rest (ws : List Word) : ∀ (g : Group) (r : Nat), writeGs r ws g = { g with gregs := (writeGs r ws g).gregs } := by
  induction ws with
  | nil => intros; rfl
  | cons v rest ih => intro g r; simp only [writeGs]; rw [ih]; rfl

/-- The lanes of a mask, each once. -/
theorem laneList_nodup (m : LaneMask) : (laneList m).Nodup := List.Nodup.filter _ List.nodup_range

theorem mem_laneList (m : LaneMask) (i : Nat) : i ∈ laneList m ↔ i < 32 ∧ m.getLsbD i = true := by
  simp [laneList, upTo]

/-- Predicate 0 reads true (R116). -/
@[simp] theorem readP_zero (g : Group) (lane : Nat) : readP g 0 lane = true := rfl

@[simp] theorem readQ_zero (g : Group) : readQ g 0 = true := rfl

end Sys2Proof.Machine
end

