-- ==== Sys2Proof/Laws/State.lean ====
section
/-!
SUPPORT. Each field of the state after each named update, so that no proof unfolds a record update.
-/

namespace Sys2Proof.Machine

/-! ### modSpan -/

@[simp] theorem modSpan_mem (s : State) (sid : Nat) (f : Span → Span) : (modSpan s sid f).mem = s.mem := rfl

@[simp] theorem modSpan_peer (s : State) (sid : Nat) (f : Span → Span) : (modSpan s sid f).peer = s.peer := rfl

@[simp] theorem modSpan_poison (s : State) (sid : Nat) (f : Span → Span) : (modSpan s sid f).poison = s.poison := rfl

@[simp] theorem modSpan_deck (s : State) (sid : Nat) (f : Span → Span) : (modSpan s sid f).deck = s.deck := rfl

@[simp] theorem modSpan_deckPoison (s : State) (sid : Nat) (f : Span → Span) : (modSpan s sid f).deckPoison = s.deckPoison := rfl

@[simp] theorem modSpan_deckCtx (s : State) (sid : Nat) (f : Span → Span) : (modSpan s sid f).deckCtx = s.deckCtx := rfl

@[simp] theorem modSpan_opbuf (s : State) (sid : Nat) (f : Span → Span) : (modSpan s sid f).opbuf = s.opbuf := rfl

@[simp] theorem modSpan_bufPoison (s : State) (sid : Nat) (f : Span → Span) : (modSpan s sid f).bufPoison = s.bufPoison := rfl

@[simp] theorem modSpan_icache (s : State) (sid : Nat) (f : Span → Span) : (modSpan s sid f).icache = s.icache := rfl

@[simp] theorem modSpan_releases (s : State) (sid : Nat) (f : Span → Span) : (modSpan s sid f).releases = s.releases := rfl

@[simp] theorem modSpan_late (s : State) (sid : Nat) (f : Span → Span) : (modSpan s sid f).late = s.late := rfl

@[simp] theorem modSpan_served (s : State) (sid : Nat) (f : Span → Span) : (modSpan s sid f).served = s.served := rfl

@[simp] theorem modSpan_matrix (s : State) (sid : Nat) (f : Span → Span) : (modSpan s sid f).matrix = s.matrix := rfl

@[simp] theorem modSpan_raster (s : State) (sid : Nat) (f : Span → Span) : (modSpan s sid f).raster = s.raster := rfl

@[simp] theorem modSpan_image (s : State) (sid : Nat) (f : Span → Span) : (modSpan s sid f).image = s.image := rfl

@[simp] theorem modSpan_spans (s : State) (sid : Nat) (f : Span → Span) : (modSpan s sid f).spans = keyMod sid f s.spans := rfl

@[simp] theorem modSpan_launches (s : State) (sid : Nat) (f : Span → Span) : (modSpan s sid f).launches = s.launches := rfl

@[simp] theorem modSpan_vm (s : State) (sid : Nat) (f : Span → Span) : (modSpan s sid f).vm = s.vm := rfl

@[simp] theorem modSpan_fe (s : State) (sid : Nat) (f : Span → Span) : (modSpan s sid f).fe = s.fe := rfl

@[simp] theorem modSpan_outside (s : State) (sid : Nat) (f : Span → Span) : (modSpan s sid f).outside = s.outside := rfl

@[simp] theorem modSpan_clock (s : State) (sid : Nat) (f : Span → Span) : (modSpan s sid f).clock = s.clock := rfl

@[simp] theorem modSpan_time (s : State) (sid : Nat) (f : Span → Span) : (modSpan s sid f).time = s.time := rfl

@[simp] theorem modSpan_fresh (s : State) (sid : Nat) (f : Span → Span) : (modSpan s sid f).fresh = s.fresh := rfl

@[simp] theorem modSpan_agenda (s : State) (sid : Nat) (f : Span → Span) : (modSpan s sid f).agenda = s.agenda := rfl

@[simp] theorem modSpan_turn (s : State) (sid : Nat) (f : Span → Span) : (modSpan s sid f).turn = s.turn := rfl

@[simp] theorem modSpan_issuer (s : State) (sid : Nat) (f : Span → Span) : (modSpan s sid f).issuer = s.issuer := rfl

/-! ### modLaunch -/

@[simp] theorem modLaunch_mem (s : State) (l : Nat) (f : Launch → Launch) : (modLaunch s l f).mem = s.mem := rfl

@[simp] theorem modLaunch_peer (s : State) (l : Nat) (f : Launch → Launch) : (modLaunch s l f).peer = s.peer := rfl

@[simp] theorem modLaunch_poison (s : State) (l : Nat) (f : Launch → Launch) : (modLaunch s l f).poison = s.poison := rfl

@[simp] theorem modLaunch_deck (s : State) (l : Nat) (f : Launch → Launch) : (modLaunch s l f).deck = s.deck := rfl

@[simp] theorem modLaunch_deckPoison (s : State) (l : Nat) (f : Launch → Launch) : (modLaunch s l f).deckPoison = s.deckPoison := rfl

@[simp] theorem modLaunch_deckCtx (s : State) (l : Nat) (f : Launch → Launch) : (modLaunch s l f).deckCtx = s.deckCtx := rfl

@[simp] theorem modLaunch_opbuf (s : State) (l : Nat) (f : Launch → Launch) : (modLaunch s l f).opbuf = s.opbuf := rfl

@[simp] theorem modLaunch_bufPoison (s : State) (l : Nat) (f : Launch → Launch) : (modLaunch s l f).bufPoison = s.bufPoison := rfl

@[simp] theorem modLaunch_icache (s : State) (l : Nat) (f : Launch → Launch) : (modLaunch s l f).icache = s.icache := rfl

@[simp] theorem modLaunch_releases (s : State) (l : Nat) (f : Launch → Launch) : (modLaunch s l f).releases = s.releases := rfl

@[simp] theorem modLaunch_late (s : State) (l : Nat) (f : Launch → Launch) : (modLaunch s l f).late = s.late := rfl

@[simp] theorem modLaunch_served (s : State) (l : Nat) (f : Launch → Launch) : (modLaunch s l f).served = s.served := rfl

@[simp] theorem modLaunch_matrix (s : State) (l : Nat) (f : Launch → Launch) : (modLaunch s l f).matrix = s.matrix := rfl

@[simp] theorem modLaunch_raster (s : State) (l : Nat) (f : Launch → Launch) : (modLaunch s l f).raster = s.raster := rfl

@[simp] theorem modLaunch_image (s : State) (l : Nat) (f : Launch → Launch) : (modLaunch s l f).image = s.image := rfl

@[simp] theorem modLaunch_spans (s : State) (l : Nat) (f : Launch → Launch) : (modLaunch s l f).spans = s.spans := rfl

@[simp] theorem modLaunch_launches (s : State) (l : Nat) (f : Launch → Launch) : (modLaunch s l f).launches = keyMod l f s.launches := rfl

@[simp] theorem modLaunch_vm (s : State) (l : Nat) (f : Launch → Launch) : (modLaunch s l f).vm = s.vm := rfl

@[simp] theorem modLaunch_fe (s : State) (l : Nat) (f : Launch → Launch) : (modLaunch s l f).fe = s.fe := rfl

@[simp] theorem modLaunch_outside (s : State) (l : Nat) (f : Launch → Launch) : (modLaunch s l f).outside = s.outside := rfl

@[simp] theorem modLaunch_clock (s : State) (l : Nat) (f : Launch → Launch) : (modLaunch s l f).clock = s.clock := rfl

@[simp] theorem modLaunch_time (s : State) (l : Nat) (f : Launch → Launch) : (modLaunch s l f).time = s.time := rfl

@[simp] theorem modLaunch_fresh (s : State) (l : Nat) (f : Launch → Launch) : (modLaunch s l f).fresh = s.fresh := rfl

@[simp] theorem modLaunch_agenda (s : State) (l : Nat) (f : Launch → Launch) : (modLaunch s l f).agenda = s.agenda := rfl

@[simp] theorem modLaunch_turn (s : State) (l : Nat) (f : Launch → Launch) : (modLaunch s l f).turn = s.turn := rfl

@[simp] theorem modLaunch_issuer (s : State) (l : Nat) (f : Launch → Launch) : (modLaunch s l f).issuer = s.issuer := rfl

/-! ### modGroup -/

@[simp] theorem modGroup_mem (s : State) (sid g : Nat) (f : Group → Group) : (modGroup s sid g f).mem = s.mem := rfl

@[simp] theorem modGroup_peer (s : State) (sid g : Nat) (f : Group → Group) : (modGroup s sid g f).peer = s.peer := rfl

@[simp] theorem modGroup_poison (s : State) (sid g : Nat) (f : Group → Group) : (modGroup s sid g f).poison = s.poison := rfl

@[simp] theorem modGroup_deck (s : State) (sid g : Nat) (f : Group → Group) : (modGroup s sid g f).deck = s.deck := rfl

@[simp] theorem modGroup_deckPoison (s : State) (sid g : Nat) (f : Group → Group) : (modGroup s sid g f).deckPoison = s.deckPoison := rfl

@[simp] theorem modGroup_deckCtx (s : State) (sid g : Nat) (f : Group → Group) : (modGroup s sid g f).deckCtx = s.deckCtx := rfl

@[simp] theorem modGroup_opbuf (s : State) (sid g : Nat) (f : Group → Group) : (modGroup s sid g f).opbuf = s.opbuf := rfl

@[simp] theorem modGroup_bufPoison (s : State) (sid g : Nat) (f : Group → Group) : (modGroup s sid g f).bufPoison = s.bufPoison := rfl

@[simp] theorem modGroup_icache (s : State) (sid g : Nat) (f : Group → Group) : (modGroup s sid g f).icache = s.icache := rfl

@[simp] theorem modGroup_releases (s : State) (sid g : Nat) (f : Group → Group) : (modGroup s sid g f).releases = s.releases := rfl

@[simp] theorem modGroup_late (s : State) (sid g : Nat) (f : Group → Group) : (modGroup s sid g f).late = s.late := rfl

@[simp] theorem modGroup_served (s : State) (sid g : Nat) (f : Group → Group) : (modGroup s sid g f).served = s.served := rfl

@[simp] theorem modGroup_matrix (s : State) (sid g : Nat) (f : Group → Group) : (modGroup s sid g f).matrix = s.matrix := rfl

@[simp] theorem modGroup_raster (s : State) (sid g : Nat) (f : Group → Group) : (modGroup s sid g f).raster = s.raster := rfl

@[simp] theorem modGroup_image (s : State) (sid g : Nat) (f : Group → Group) : (modGroup s sid g f).image = s.image := rfl

@[simp] theorem modGroup_spans (s : State) (sid g : Nat) (f : Group → Group) :
    (modGroup s sid g f).spans = keyMod sid (fun sp => { sp with groups := listSet f g sp.groups }) s.spans := rfl

@[simp] theorem modGroup_launches (s : State) (sid g : Nat) (f : Group → Group) : (modGroup s sid g f).launches = s.launches := rfl

@[simp] theorem modGroup_vm (s : State) (sid g : Nat) (f : Group → Group) : (modGroup s sid g f).vm = s.vm := rfl

@[simp] theorem modGroup_fe (s : State) (sid g : Nat) (f : Group → Group) : (modGroup s sid g f).fe = s.fe := rfl

@[simp] theorem modGroup_outside (s : State) (sid g : Nat) (f : Group → Group) : (modGroup s sid g f).outside = s.outside := rfl

@[simp] theorem modGroup_clock (s : State) (sid g : Nat) (f : Group → Group) : (modGroup s sid g f).clock = s.clock := rfl

@[simp] theorem modGroup_time (s : State) (sid g : Nat) (f : Group → Group) : (modGroup s sid g f).time = s.time := rfl

@[simp] theorem modGroup_fresh (s : State) (sid g : Nat) (f : Group → Group) : (modGroup s sid g f).fresh = s.fresh := rfl

@[simp] theorem modGroup_agenda (s : State) (sid g : Nat) (f : Group → Group) : (modGroup s sid g f).agenda = s.agenda := rfl

@[simp] theorem modGroup_turn (s : State) (sid g : Nat) (f : Group → Group) : (modGroup s sid g f).turn = s.turn := rfl

@[simp] theorem modGroup_issuer (s : State) (sid g : Nat) (f : Group → Group) : (modGroup s sid g f).issuer = s.issuer := rfl

/-! ### modFe -/

@[simp] theorem modFe_mem (f : FrontEnd → FrontEnd) (s : State) : (modFe f s).mem = s.mem := rfl

@[simp] theorem modFe_peer (f : FrontEnd → FrontEnd) (s : State) : (modFe f s).peer = s.peer := rfl

@[simp] theorem modFe_poison (f : FrontEnd → FrontEnd) (s : State) : (modFe f s).poison = s.poison := rfl

@[simp] theorem modFe_deck (f : FrontEnd → FrontEnd) (s : State) : (modFe f s).deck = s.deck := rfl

@[simp] theorem modFe_deckPoison (f : FrontEnd → FrontEnd) (s : State) : (modFe f s).deckPoison = s.deckPoison := rfl

@[simp] theorem modFe_deckCtx (f : FrontEnd → FrontEnd) (s : State) : (modFe f s).deckCtx = s.deckCtx := rfl

@[simp] theorem modFe_opbuf (f : FrontEnd → FrontEnd) (s : State) : (modFe f s).opbuf = s.opbuf := rfl

@[simp] theorem modFe_bufPoison (f : FrontEnd → FrontEnd) (s : State) : (modFe f s).bufPoison = s.bufPoison := rfl

@[simp] theorem modFe_icache (f : FrontEnd → FrontEnd) (s : State) : (modFe f s).icache = s.icache := rfl

@[simp] theorem modFe_releases (f : FrontEnd → FrontEnd) (s : State) : (modFe f s).releases = s.releases := rfl

@[simp] theorem modFe_late (f : FrontEnd → FrontEnd) (s : State) : (modFe f s).late = s.late := rfl

@[simp] theorem modFe_served (f : FrontEnd → FrontEnd) (s : State) : (modFe f s).served = s.served := rfl

@[simp] theorem modFe_matrix (f : FrontEnd → FrontEnd) (s : State) : (modFe f s).matrix = s.matrix := rfl

@[simp] theorem modFe_raster (f : FrontEnd → FrontEnd) (s : State) : (modFe f s).raster = s.raster := rfl

@[simp] theorem modFe_image (f : FrontEnd → FrontEnd) (s : State) : (modFe f s).image = s.image := rfl

@[simp] theorem modFe_spans (f : FrontEnd → FrontEnd) (s : State) : (modFe f s).spans = s.spans := rfl

@[simp] theorem modFe_launches (f : FrontEnd → FrontEnd) (s : State) : (modFe f s).launches = s.launches := rfl

@[simp] theorem modFe_vm (f : FrontEnd → FrontEnd) (s : State) : (modFe f s).vm = s.vm := rfl

@[simp] theorem modFe_fe (f : FrontEnd → FrontEnd) (s : State) : (modFe f s).fe = f s.fe := rfl

@[simp] theorem modFe_outside (f : FrontEnd → FrontEnd) (s : State) : (modFe f s).outside = s.outside := rfl

@[simp] theorem modFe_clock (f : FrontEnd → FrontEnd) (s : State) : (modFe f s).clock = s.clock := rfl

@[simp] theorem modFe_time (f : FrontEnd → FrontEnd) (s : State) : (modFe f s).time = s.time := rfl

@[simp] theorem modFe_fresh (f : FrontEnd → FrontEnd) (s : State) : (modFe f s).fresh = s.fresh := rfl

@[simp] theorem modFe_agenda (f : FrontEnd → FrontEnd) (s : State) : (modFe f s).agenda = s.agenda := rfl

@[simp] theorem modFe_turn (f : FrontEnd → FrontEnd) (s : State) : (modFe f s).turn = s.turn := rfl

@[simp] theorem modFe_issuer (f : FrontEnd → FrontEnd) (s : State) : (modFe f s).issuer = s.issuer := rfl

/-! ### setFifo -/

@[simp] theorem setFifo_mem (pier : Nat) (l : List MatrixEntry) (s : State) : (setFifo pier l s).mem = s.mem := rfl

@[simp] theorem setFifo_peer (pier : Nat) (l : List MatrixEntry) (s : State) : (setFifo pier l s).peer = s.peer := rfl

@[simp] theorem setFifo_poison (pier : Nat) (l : List MatrixEntry) (s : State) : (setFifo pier l s).poison = s.poison := rfl

@[simp] theorem setFifo_deck (pier : Nat) (l : List MatrixEntry) (s : State) : (setFifo pier l s).deck = s.deck := rfl

@[simp] theorem setFifo_deckPoison (pier : Nat) (l : List MatrixEntry) (s : State) : (setFifo pier l s).deckPoison = s.deckPoison := rfl

@[simp] theorem setFifo_deckCtx (pier : Nat) (l : List MatrixEntry) (s : State) : (setFifo pier l s).deckCtx = s.deckCtx := rfl

@[simp] theorem setFifo_opbuf (pier : Nat) (l : List MatrixEntry) (s : State) : (setFifo pier l s).opbuf = s.opbuf := rfl

@[simp] theorem setFifo_bufPoison (pier : Nat) (l : List MatrixEntry) (s : State) : (setFifo pier l s).bufPoison = s.bufPoison := rfl

@[simp] theorem setFifo_icache (pier : Nat) (l : List MatrixEntry) (s : State) : (setFifo pier l s).icache = s.icache := rfl

@[simp] theorem setFifo_releases (pier : Nat) (l : List MatrixEntry) (s : State) : (setFifo pier l s).releases = s.releases := rfl

@[simp] theorem setFifo_late (pier : Nat) (l : List MatrixEntry) (s : State) : (setFifo pier l s).late = s.late := rfl

@[simp] theorem setFifo_served (pier : Nat) (l : List MatrixEntry) (s : State) : (setFifo pier l s).served = s.served := rfl

@[simp] theorem setFifo_matrix (pier : Nat) (l : List MatrixEntry) (s : State) : (setFifo pier l s).matrix = keySet pier l s.matrix := rfl

@[simp] theorem setFifo_raster (pier : Nat) (l : List MatrixEntry) (s : State) : (setFifo pier l s).raster = s.raster := rfl

@[simp] theorem setFifo_image (pier : Nat) (l : List MatrixEntry) (s : State) : (setFifo pier l s).image = s.image := rfl

@[simp] theorem setFifo_spans (pier : Nat) (l : List MatrixEntry) (s : State) : (setFifo pier l s).spans = s.spans := rfl

@[simp] theorem setFifo_launches (pier : Nat) (l : List MatrixEntry) (s : State) : (setFifo pier l s).launches = s.launches := rfl

@[simp] theorem setFifo_vm (pier : Nat) (l : List MatrixEntry) (s : State) : (setFifo pier l s).vm = s.vm := rfl

@[simp] theorem setFifo_fe (pier : Nat) (l : List MatrixEntry) (s : State) : (setFifo pier l s).fe = s.fe := rfl

@[simp] theorem setFifo_outside (pier : Nat) (l : List MatrixEntry) (s : State) : (setFifo pier l s).outside = s.outside := rfl

@[simp] theorem setFifo_clock (pier : Nat) (l : List MatrixEntry) (s : State) : (setFifo pier l s).clock = s.clock := rfl

@[simp] theorem setFifo_time (pier : Nat) (l : List MatrixEntry) (s : State) : (setFifo pier l s).time = s.time := rfl

@[simp] theorem setFifo_fresh (pier : Nat) (l : List MatrixEntry) (s : State) : (setFifo pier l s).fresh = s.fresh := rfl

@[simp] theorem setFifo_agenda (pier : Nat) (l : List MatrixEntry) (s : State) : (setFifo pier l s).agenda = s.agenda := rfl

@[simp] theorem setFifo_turn (pier : Nat) (l : List MatrixEntry) (s : State) : (setFifo pier l s).turn = s.turn := rfl

@[simp] theorem setFifo_issuer (pier : Nat) (l : List MatrixEntry) (s : State) : (setFifo pier l s).issuer = s.issuer := rfl

/-! ### setRasterQueue -/

@[simp] theorem setRasterQueue_mem (pier : Nat) (q : List RasterEntry) (s : State) : (setRasterQueue pier q s).mem = s.mem := rfl

@[simp] theorem setRasterQueue_peer (pier : Nat) (q : List RasterEntry) (s : State) : (setRasterQueue pier q s).peer = s.peer := rfl

@[simp] theorem setRasterQueue_poison (pier : Nat) (q : List RasterEntry) (s : State) : (setRasterQueue pier q s).poison = s.poison := rfl

@[simp] theorem setRasterQueue_deck (pier : Nat) (q : List RasterEntry) (s : State) : (setRasterQueue pier q s).deck = s.deck := rfl

@[simp] theorem setRasterQueue_deckPoison (pier : Nat) (q : List RasterEntry) (s : State) :
    (setRasterQueue pier q s).deckPoison = s.deckPoison := rfl

@[simp] theorem setRasterQueue_deckCtx (pier : Nat) (q : List RasterEntry) (s : State) : (setRasterQueue pier q s).deckCtx = s.deckCtx := rfl

@[simp] theorem setRasterQueue_opbuf (pier : Nat) (q : List RasterEntry) (s : State) : (setRasterQueue pier q s).opbuf = s.opbuf := rfl

@[simp] theorem setRasterQueue_bufPoison (pier : Nat) (q : List RasterEntry) (s : State) : (setRasterQueue pier q s).bufPoison = s.bufPoison := rfl

@[simp] theorem setRasterQueue_icache (pier : Nat) (q : List RasterEntry) (s : State) : (setRasterQueue pier q s).icache = s.icache := rfl

@[simp] theorem setRasterQueue_releases (pier : Nat) (q : List RasterEntry) (s : State) : (setRasterQueue pier q s).releases = s.releases := rfl

@[simp] theorem setRasterQueue_late (pier : Nat) (q : List RasterEntry) (s : State) : (setRasterQueue pier q s).late = s.late := rfl

@[simp] theorem setRasterQueue_served (pier : Nat) (q : List RasterEntry) (s : State) : (setRasterQueue pier q s).served = s.served := rfl

@[simp] theorem setRasterQueue_matrix (pier : Nat) (q : List RasterEntry) (s : State) : (setRasterQueue pier q s).matrix = s.matrix := rfl

@[simp] theorem setRasterQueue_raster (pier : Nat) (q : List RasterEntry) (s : State) :
    (setRasterQueue pier q s).raster = keySet pier q s.raster := rfl

@[simp] theorem setRasterQueue_image (pier : Nat) (q : List RasterEntry) (s : State) : (setRasterQueue pier q s).image = s.image := rfl

@[simp] theorem setRasterQueue_spans (pier : Nat) (q : List RasterEntry) (s : State) : (setRasterQueue pier q s).spans = s.spans := rfl

@[simp] theorem setRasterQueue_launches (pier : Nat) (q : List RasterEntry) (s : State) : (setRasterQueue pier q s).launches = s.launches := rfl

@[simp] theorem setRasterQueue_vm (pier : Nat) (q : List RasterEntry) (s : State) : (setRasterQueue pier q s).vm = s.vm := rfl

@[simp] theorem setRasterQueue_fe (pier : Nat) (q : List RasterEntry) (s : State) : (setRasterQueue pier q s).fe = s.fe := rfl

@[simp] theorem setRasterQueue_outside (pier : Nat) (q : List RasterEntry) (s : State) : (setRasterQueue pier q s).outside = s.outside := rfl

@[simp] theorem setRasterQueue_clock (pier : Nat) (q : List RasterEntry) (s : State) : (setRasterQueue pier q s).clock = s.clock := rfl

@[simp] theorem setRasterQueue_time (pier : Nat) (q : List RasterEntry) (s : State) : (setRasterQueue pier q s).time = s.time := rfl

@[simp] theorem setRasterQueue_fresh (pier : Nat) (q : List RasterEntry) (s : State) : (setRasterQueue pier q s).fresh = s.fresh := rfl

@[simp] theorem setRasterQueue_agenda (pier : Nat) (q : List RasterEntry) (s : State) : (setRasterQueue pier q s).agenda = s.agenda := rfl

@[simp] theorem setRasterQueue_turn (pier : Nat) (q : List RasterEntry) (s : State) : (setRasterQueue pier q s).turn = s.turn := rfl

@[simp] theorem setRasterQueue_issuer (pier : Nat) (q : List RasterEntry) (s : State) : (setRasterQueue pier q s).issuer = s.issuer := rfl

/-! ### setImageQueue -/

@[simp] theorem setImageQueue_mem (pier : Nat) (q : List ImageEntry) (s : State) : (setImageQueue pier q s).mem = s.mem := rfl

@[simp] theorem setImageQueue_peer (pier : Nat) (q : List ImageEntry) (s : State) : (setImageQueue pier q s).peer = s.peer := rfl

@[simp] theorem setImageQueue_poison (pier : Nat) (q : List ImageEntry) (s : State) : (setImageQueue pier q s).poison = s.poison := rfl

@[simp] theorem setImageQueue_deck (pier : Nat) (q : List ImageEntry) (s : State) : (setImageQueue pier q s).deck = s.deck := rfl

@[simp] theorem setImageQueue_deckPoison (pier : Nat) (q : List ImageEntry) (s : State) : (setImageQueue pier q s).deckPoison = s.deckPoison := rfl

@[simp] theorem setImageQueue_deckCtx (pier : Nat) (q : List ImageEntry) (s : State) : (setImageQueue pier q s).deckCtx = s.deckCtx := rfl

@[simp] theorem setImageQueue_opbuf (pier : Nat) (q : List ImageEntry) (s : State) : (setImageQueue pier q s).opbuf = s.opbuf := rfl

@[simp] theorem setImageQueue_bufPoison (pier : Nat) (q : List ImageEntry) (s : State) : (setImageQueue pier q s).bufPoison = s.bufPoison := rfl

@[simp] theorem setImageQueue_icache (pier : Nat) (q : List ImageEntry) (s : State) : (setImageQueue pier q s).icache = s.icache := rfl

@[simp] theorem setImageQueue_releases (pier : Nat) (q : List ImageEntry) (s : State) : (setImageQueue pier q s).releases = s.releases := rfl

@[simp] theorem setImageQueue_late (pier : Nat) (q : List ImageEntry) (s : State) : (setImageQueue pier q s).late = s.late := rfl

@[simp] theorem setImageQueue_served (pier : Nat) (q : List ImageEntry) (s : State) : (setImageQueue pier q s).served = s.served := rfl

@[simp] theorem setImageQueue_matrix (pier : Nat) (q : List ImageEntry) (s : State) : (setImageQueue pier q s).matrix = s.matrix := rfl

@[simp] theorem setImageQueue_raster (pier : Nat) (q : List ImageEntry) (s : State) : (setImageQueue pier q s).raster = s.raster := rfl

@[simp] theorem setImageQueue_image (pier : Nat) (q : List ImageEntry) (s : State) : (setImageQueue pier q s).image = keySet pier q s.image := rfl

@[simp] theorem setImageQueue_spans (pier : Nat) (q : List ImageEntry) (s : State) : (setImageQueue pier q s).spans = s.spans := rfl

@[simp] theorem setImageQueue_launches (pier : Nat) (q : List ImageEntry) (s : State) : (setImageQueue pier q s).launches = s.launches := rfl

@[simp] theorem setImageQueue_vm (pier : Nat) (q : List ImageEntry) (s : State) : (setImageQueue pier q s).vm = s.vm := rfl

@[simp] theorem setImageQueue_fe (pier : Nat) (q : List ImageEntry) (s : State) : (setImageQueue pier q s).fe = s.fe := rfl

@[simp] theorem setImageQueue_outside (pier : Nat) (q : List ImageEntry) (s : State) : (setImageQueue pier q s).outside = s.outside := rfl

@[simp] theorem setImageQueue_clock (pier : Nat) (q : List ImageEntry) (s : State) : (setImageQueue pier q s).clock = s.clock := rfl

@[simp] theorem setImageQueue_time (pier : Nat) (q : List ImageEntry) (s : State) : (setImageQueue pier q s).time = s.time := rfl

@[simp] theorem setImageQueue_fresh (pier : Nat) (q : List ImageEntry) (s : State) : (setImageQueue pier q s).fresh = s.fresh := rfl

@[simp] theorem setImageQueue_agenda (pier : Nat) (q : List ImageEntry) (s : State) : (setImageQueue pier q s).agenda = s.agenda := rfl

@[simp] theorem setImageQueue_turn (pier : Nat) (q : List ImageEntry) (s : State) : (setImageQueue pier q s).turn = s.turn := rfl

@[simp] theorem setImageQueue_issuer (pier : Nat) (q : List ImageEntry) (s : State) : (setImageQueue pier q s).issuer = s.issuer := rfl

/-! ### modLink -/

@[simp] theorem modLink_mem (port : Nat) (f : Link → Link) (s : State) : (modLink port f s).mem = s.mem := rfl

@[simp] theorem modLink_peer (port : Nat) (f : Link → Link) (s : State) : (modLink port f s).peer = s.peer := rfl

@[simp] theorem modLink_poison (port : Nat) (f : Link → Link) (s : State) : (modLink port f s).poison = s.poison := rfl

@[simp] theorem modLink_deck (port : Nat) (f : Link → Link) (s : State) : (modLink port f s).deck = s.deck := rfl

@[simp] theorem modLink_deckPoison (port : Nat) (f : Link → Link) (s : State) : (modLink port f s).deckPoison = s.deckPoison := rfl

@[simp] theorem modLink_deckCtx (port : Nat) (f : Link → Link) (s : State) : (modLink port f s).deckCtx = s.deckCtx := rfl

@[simp] theorem modLink_opbuf (port : Nat) (f : Link → Link) (s : State) : (modLink port f s).opbuf = s.opbuf := rfl

@[simp] theorem modLink_bufPoison (port : Nat) (f : Link → Link) (s : State) : (modLink port f s).bufPoison = s.bufPoison := rfl

@[simp] theorem modLink_icache (port : Nat) (f : Link → Link) (s : State) : (modLink port f s).icache = s.icache := rfl

@[simp] theorem modLink_releases (port : Nat) (f : Link → Link) (s : State) : (modLink port f s).releases = s.releases := rfl

@[simp] theorem modLink_late (port : Nat) (f : Link → Link) (s : State) : (modLink port f s).late = s.late := rfl

@[simp] theorem modLink_served (port : Nat) (f : Link → Link) (s : State) : (modLink port f s).served = s.served := rfl

@[simp] theorem modLink_matrix (port : Nat) (f : Link → Link) (s : State) : (modLink port f s).matrix = s.matrix := rfl

@[simp] theorem modLink_raster (port : Nat) (f : Link → Link) (s : State) : (modLink port f s).raster = s.raster := rfl

@[simp] theorem modLink_image (port : Nat) (f : Link → Link) (s : State) : (modLink port f s).image = s.image := rfl

@[simp] theorem modLink_spans (port : Nat) (f : Link → Link) (s : State) : (modLink port f s).spans = s.spans := rfl

@[simp] theorem modLink_launches (port : Nat) (f : Link → Link) (s : State) : (modLink port f s).launches = s.launches := rfl

@[simp] theorem modLink_vm (port : Nat) (f : Link → Link) (s : State) : (modLink port f s).vm = s.vm := rfl

@[simp] theorem modLink_fe (port : Nat) (f : Link → Link) (s : State) : (modLink port f s).fe = s.fe := rfl

@[simp] theorem modLink_outside (port : Nat) (f : Link → Link) (s : State) :
    (modLink port f s).outside = { s.outside with links := listSet f port s.outside.links } := rfl

@[simp] theorem modLink_clock (port : Nat) (f : Link → Link) (s : State) : (modLink port f s).clock = s.clock := rfl

@[simp] theorem modLink_time (port : Nat) (f : Link → Link) (s : State) : (modLink port f s).time = s.time := rfl

@[simp] theorem modLink_fresh (port : Nat) (f : Link → Link) (s : State) : (modLink port f s).fresh = s.fresh := rfl

@[simp] theorem modLink_agenda (port : Nat) (f : Link → Link) (s : State) : (modLink port f s).agenda = s.agenda := rfl

@[simp] theorem modLink_turn (port : Nat) (f : Link → Link) (s : State) : (modLink port f s).turn = s.turn := rfl

@[simp] theorem modLink_issuer (port : Nat) (f : Link → Link) (s : State) : (modLink port f s).issuer = s.issuer := rfl

/-! ### draw -/

@[simp] theorem draw_mem (s : State) : ((draw s).2).mem = s.mem := rfl

@[simp] theorem draw_peer (s : State) : ((draw s).2).peer = s.peer := rfl

@[simp] theorem draw_poison (s : State) : ((draw s).2).poison = s.poison := rfl

@[simp] theorem draw_deck (s : State) : ((draw s).2).deck = s.deck := rfl

@[simp] theorem draw_deckPoison (s : State) : ((draw s).2).deckPoison = s.deckPoison := rfl

@[simp] theorem draw_deckCtx (s : State) : ((draw s).2).deckCtx = s.deckCtx := rfl

@[simp] theorem draw_opbuf (s : State) : ((draw s).2).opbuf = s.opbuf := rfl

@[simp] theorem draw_bufPoison (s : State) : ((draw s).2).bufPoison = s.bufPoison := rfl

@[simp] theorem draw_icache (s : State) : ((draw s).2).icache = s.icache := rfl

@[simp] theorem draw_releases (s : State) : ((draw s).2).releases = s.releases := rfl

@[simp] theorem draw_late (s : State) : ((draw s).2).late = s.late := rfl

@[simp] theorem draw_served (s : State) : ((draw s).2).served = s.served := rfl

@[simp] theorem draw_matrix (s : State) : ((draw s).2).matrix = s.matrix := rfl

@[simp] theorem draw_raster (s : State) : ((draw s).2).raster = s.raster := rfl

@[simp] theorem draw_image (s : State) : ((draw s).2).image = s.image := rfl

@[simp] theorem draw_spans (s : State) : ((draw s).2).spans = s.spans := rfl

@[simp] theorem draw_launches (s : State) : ((draw s).2).launches = s.launches := rfl

@[simp] theorem draw_vm (s : State) : ((draw s).2).vm = s.vm := rfl

@[simp] theorem draw_fe (s : State) : ((draw s).2).fe = s.fe := rfl

@[simp] theorem draw_outside (s : State) : ((draw s).2).outside = s.outside := rfl

@[simp] theorem draw_clock (s : State) : ((draw s).2).clock = s.clock := rfl

@[simp] theorem draw_time (s : State) : ((draw s).2).time = s.time := rfl

@[simp] theorem draw_fresh (s : State) : ((draw s).2).fresh = s.fresh + 1 := rfl

@[simp] theorem draw_agenda (s : State) : ((draw s).2).agenda = s.agenda := rfl

@[simp] theorem draw_turn (s : State) : ((draw s).2).turn = s.turn := rfl

@[simp] theorem draw_issuer (s : State) : ((draw s).2).issuer = s.issuer := rfl

/-! ### writeDeck -/

@[simp] theorem writeDeck_mem (sp : Span) (off : Nat) (bs : List Byte) (s : State) : (writeDeck sp off bs s).mem = s.mem := rfl

@[simp] theorem writeDeck_peer (sp : Span) (off : Nat) (bs : List Byte) (s : State) : (writeDeck sp off bs s).peer = s.peer := rfl

@[simp] theorem writeDeck_poison (sp : Span) (off : Nat) (bs : List Byte) (s : State) : (writeDeck sp off bs s).poison = s.poison := rfl

@[simp] theorem writeDeck_deck (sp : Span) (off : Nat) (bs : List Byte) (s : State) :
    (writeDeck sp off bs s).deck = writeDeckMem sp off s.deck bs := rfl

@[simp] theorem writeDeck_deckPoison (sp : Span) (off : Nat) (bs : List Byte) (s : State) : (writeDeck sp off bs s).deckPoison = s.deckPoison := rfl

@[simp] theorem writeDeck_deckCtx (sp : Span) (off : Nat) (bs : List Byte) (s : State) : (writeDeck sp off bs s).deckCtx = s.deckCtx := rfl

@[simp] theorem writeDeck_opbuf (sp : Span) (off : Nat) (bs : List Byte) (s : State) : (writeDeck sp off bs s).opbuf = s.opbuf := rfl

@[simp] theorem writeDeck_bufPoison (sp : Span) (off : Nat) (bs : List Byte) (s : State) : (writeDeck sp off bs s).bufPoison = s.bufPoison := rfl

@[simp] theorem writeDeck_icache (sp : Span) (off : Nat) (bs : List Byte) (s : State) : (writeDeck sp off bs s).icache = s.icache := rfl

@[simp] theorem writeDeck_releases (sp : Span) (off : Nat) (bs : List Byte) (s : State) : (writeDeck sp off bs s).releases = s.releases := rfl

@[simp] theorem writeDeck_late (sp : Span) (off : Nat) (bs : List Byte) (s : State) : (writeDeck sp off bs s).late = s.late := rfl

@[simp] theorem writeDeck_served (sp : Span) (off : Nat) (bs : List Byte) (s : State) : (writeDeck sp off bs s).served = s.served := rfl

@[simp] theorem writeDeck_matrix (sp : Span) (off : Nat) (bs : List Byte) (s : State) : (writeDeck sp off bs s).matrix = s.matrix := rfl

@[simp] theorem writeDeck_raster (sp : Span) (off : Nat) (bs : List Byte) (s : State) : (writeDeck sp off bs s).raster = s.raster := rfl

@[simp] theorem writeDeck_image (sp : Span) (off : Nat) (bs : List Byte) (s : State) : (writeDeck sp off bs s).image = s.image := rfl

@[simp] theorem writeDeck_spans (sp : Span) (off : Nat) (bs : List Byte) (s : State) : (writeDeck sp off bs s).spans = s.spans := rfl

@[simp] theorem writeDeck_launches (sp : Span) (off : Nat) (bs : List Byte) (s : State) : (writeDeck sp off bs s).launches = s.launches := rfl

@[simp] theorem writeDeck_vm (sp : Span) (off : Nat) (bs : List Byte) (s : State) : (writeDeck sp off bs s).vm = s.vm := rfl

@[simp] theorem writeDeck_fe (sp : Span) (off : Nat) (bs : List Byte) (s : State) : (writeDeck sp off bs s).fe = s.fe := rfl

@[simp] theorem writeDeck_outside (sp : Span) (off : Nat) (bs : List Byte) (s : State) : (writeDeck sp off bs s).outside = s.outside := rfl

@[simp] theorem writeDeck_clock (sp : Span) (off : Nat) (bs : List Byte) (s : State) : (writeDeck sp off bs s).clock = s.clock := rfl

@[simp] theorem writeDeck_time (sp : Span) (off : Nat) (bs : List Byte) (s : State) : (writeDeck sp off bs s).time = s.time := rfl

@[simp] theorem writeDeck_fresh (sp : Span) (off : Nat) (bs : List Byte) (s : State) : (writeDeck sp off bs s).fresh = s.fresh := rfl

@[simp] theorem writeDeck_agenda (sp : Span) (off : Nat) (bs : List Byte) (s : State) : (writeDeck sp off bs s).agenda = s.agenda := rfl

@[simp] theorem writeDeck_turn (sp : Span) (off : Nat) (bs : List Byte) (s : State) : (writeDeck sp off bs s).turn = s.turn := rfl

@[simp] theorem writeDeck_issuer (sp : Span) (off : Nat) (bs : List Byte) (s : State) : (writeDeck sp off bs s).issuer = s.issuer := rfl

/-! ### The issuing group rewritten -/

@[simp] theorem modCur_mem (s : State) (f : Group → Group) : (modCur s f).mem = s.mem := by
  unfold modCur; split <;> rfl

@[simp] theorem modCur_peer (s : State) (f : Group → Group) : (modCur s f).peer = s.peer := by
  unfold modCur; split <;> rfl

@[simp] theorem modCur_poison (s : State) (f : Group → Group) : (modCur s f).poison = s.poison := by
  unfold modCur; split <;> rfl

@[simp] theorem modCur_deck (s : State) (f : Group → Group) : (modCur s f).deck = s.deck := by
  unfold modCur; split <;> rfl

@[simp] theorem modCur_deckPoison (s : State) (f : Group → Group) : (modCur s f).deckPoison = s.deckPoison := by
  unfold modCur; split <;> rfl

@[simp] theorem modCur_deckCtx (s : State) (f : Group → Group) : (modCur s f).deckCtx = s.deckCtx := by
  unfold modCur; split <;> rfl

@[simp] theorem modCur_opbuf (s : State) (f : Group → Group) : (modCur s f).opbuf = s.opbuf := by
  unfold modCur; split <;> rfl

@[simp] theorem modCur_bufPoison (s : State) (f : Group → Group) : (modCur s f).bufPoison = s.bufPoison := by
  unfold modCur; split <;> rfl

@[simp] theorem modCur_icache (s : State) (f : Group → Group) : (modCur s f).icache = s.icache := by
  unfold modCur; split <;> rfl

@[simp] theorem modCur_releases (s : State) (f : Group → Group) : (modCur s f).releases = s.releases := by
  unfold modCur; split <;> rfl

@[simp] theorem modCur_late (s : State) (f : Group → Group) : (modCur s f).late = s.late := by
  unfold modCur; split <;> rfl

@[simp] theorem modCur_served (s : State) (f : Group → Group) : (modCur s f).served = s.served := by
  unfold modCur; split <;> rfl

@[simp] theorem modCur_matrix (s : State) (f : Group → Group) : (modCur s f).matrix = s.matrix := by
  unfold modCur; split <;> rfl

@[simp] theorem modCur_raster (s : State) (f : Group → Group) : (modCur s f).raster = s.raster := by
  unfold modCur; split <;> rfl

@[simp] theorem modCur_image (s : State) (f : Group → Group) : (modCur s f).image = s.image := by
  unfold modCur; split <;> rfl

@[simp] theorem modCur_launches (s : State) (f : Group → Group) : (modCur s f).launches = s.launches := by
  unfold modCur; split <;> rfl

@[simp] theorem modCur_vm (s : State) (f : Group → Group) : (modCur s f).vm = s.vm := by
  unfold modCur; split <;> rfl

@[simp] theorem modCur_outside (s : State) (f : Group → Group) : (modCur s f).outside = s.outside := by
  unfold modCur; split <;> rfl

@[simp] theorem modCur_clock (s : State) (f : Group → Group) : (modCur s f).clock = s.clock := by
  unfold modCur; split <;> rfl

@[simp] theorem modCur_time (s : State) (f : Group → Group) : (modCur s f).time = s.time := by
  unfold modCur; split <;> rfl

@[simp] theorem modCur_fresh (s : State) (f : Group → Group) : (modCur s f).fresh = s.fresh := by
  unfold modCur; split <;> rfl

@[simp] theorem modCur_agenda (s : State) (f : Group → Group) : (modCur s f).agenda = s.agenda := by
  unfold modCur; split <;> rfl

@[simp] theorem modCur_turn (s : State) (f : Group → Group) : (modCur s f).turn = s.turn := by
  unfold modCur; split <;> rfl

@[simp] theorem setPc_mem (s : State) (pc : Va) : (setPc s pc).mem = s.mem := modCur_mem s _

@[simp] theorem setPc_peer (s : State) (pc : Va) : (setPc s pc).peer = s.peer := modCur_peer s _

@[simp] theorem setPc_poison (s : State) (pc : Va) : (setPc s pc).poison = s.poison := modCur_poison s _

@[simp] theorem setPc_deck (s : State) (pc : Va) : (setPc s pc).deck = s.deck := modCur_deck s _

@[simp] theorem setPc_deckPoison (s : State) (pc : Va) : (setPc s pc).deckPoison = s.deckPoison := modCur_deckPoison s _

@[simp] theorem setPc_deckCtx (s : State) (pc : Va) : (setPc s pc).deckCtx = s.deckCtx := modCur_deckCtx s _

@[simp] theorem setPc_opbuf (s : State) (pc : Va) : (setPc s pc).opbuf = s.opbuf := modCur_opbuf s _

@[simp] theorem setPc_bufPoison (s : State) (pc : Va) : (setPc s pc).bufPoison = s.bufPoison := modCur_bufPoison s _

@[simp] theorem setPc_icache (s : State) (pc : Va) : (setPc s pc).icache = s.icache := modCur_icache s _

@[simp] theorem setPc_releases (s : State) (pc : Va) : (setPc s pc).releases = s.releases := modCur_releases s _

@[simp] theorem setPc_late (s : State) (pc : Va) : (setPc s pc).late = s.late := modCur_late s _

@[simp] theorem setPc_served (s : State) (pc : Va) : (setPc s pc).served = s.served := modCur_served s _

@[simp] theorem setPc_matrix (s : State) (pc : Va) : (setPc s pc).matrix = s.matrix := modCur_matrix s _

@[simp] theorem setPc_raster (s : State) (pc : Va) : (setPc s pc).raster = s.raster := modCur_raster s _

@[simp] theorem setPc_image (s : State) (pc : Va) : (setPc s pc).image = s.image := modCur_image s _

@[simp] theorem setPc_launches (s : State) (pc : Va) : (setPc s pc).launches = s.launches := modCur_launches s _

@[simp] theorem setPc_vm (s : State) (pc : Va) : (setPc s pc).vm = s.vm := modCur_vm s _

@[simp] theorem setPc_outside (s : State) (pc : Va) : (setPc s pc).outside = s.outside := modCur_outside s _

@[simp] theorem setPc_clock (s : State) (pc : Va) : (setPc s pc).clock = s.clock := modCur_clock s _

@[simp] theorem setPc_time (s : State) (pc : Va) : (setPc s pc).time = s.time := modCur_time s _

@[simp] theorem setPc_fresh (s : State) (pc : Va) : (setPc s pc).fresh = s.fresh := modCur_fresh s _

@[simp] theorem setPc_agenda (s : State) (pc : Va) : (setPc s pc).agenda = s.agenda := modCur_agenda s _

@[simp] theorem setPc_turn (s : State) (pc : Va) : (setPc s pc).turn = s.turn := modCur_turn s _

@[simp] theorem setPc_issuer (s : State) (pc : Va) : (setPc s pc).issuer = s.issuer := modCur_issuer s _

@[simp] theorem advance_mem (len : Nat) (s : State) : (advance len s).mem = s.mem := modCur_mem s _

@[simp] theorem advance_peer (len : Nat) (s : State) : (advance len s).peer = s.peer := modCur_peer s _

@[simp] theorem advance_poison (len : Nat) (s : State) : (advance len s).poison = s.poison := modCur_poison s _

@[simp] theorem advance_deck (len : Nat) (s : State) : (advance len s).deck = s.deck := modCur_deck s _

@[simp] theorem advance_deckPoison (len : Nat) (s : State) : (advance len s).deckPoison = s.deckPoison := modCur_deckPoison s _

@[simp] theorem advance_deckCtx (len : Nat) (s : State) : (advance len s).deckCtx = s.deckCtx := modCur_deckCtx s _

@[simp] theorem advance_opbuf (len : Nat) (s : State) : (advance len s).opbuf = s.opbuf := modCur_opbuf s _

@[simp] theorem advance_bufPoison (len : Nat) (s : State) : (advance len s).bufPoison = s.bufPoison := modCur_bufPoison s _

@[simp] theorem advance_icache (len : Nat) (s : State) : (advance len s).icache = s.icache := modCur_icache s _

@[simp] theorem advance_releases (len : Nat) (s : State) : (advance len s).releases = s.releases := modCur_releases s _

@[simp] theorem advance_late (len : Nat) (s : State) : (advance len s).late = s.late := modCur_late s _

@[simp] theorem advance_served (len : Nat) (s : State) : (advance len s).served = s.served := modCur_served s _

@[simp] theorem advance_matrix (len : Nat) (s : State) : (advance len s).matrix = s.matrix := modCur_matrix s _

@[simp] theorem advance_raster (len : Nat) (s : State) : (advance len s).raster = s.raster := modCur_raster s _

@[simp] theorem advance_image (len : Nat) (s : State) : (advance len s).image = s.image := modCur_image s _

@[simp] theorem advance_launches (len : Nat) (s : State) : (advance len s).launches = s.launches := modCur_launches s _

@[simp] theorem advance_vm (len : Nat) (s : State) : (advance len s).vm = s.vm := modCur_vm s _

@[simp] theorem advance_outside (len : Nat) (s : State) : (advance len s).outside = s.outside := modCur_outside s _

@[simp] theorem advance_clock (len : Nat) (s : State) : (advance len s).clock = s.clock := modCur_clock s _

@[simp] theorem advance_time (len : Nat) (s : State) : (advance len s).time = s.time := modCur_time s _

@[simp] theorem advance_fresh (len : Nat) (s : State) : (advance len s).fresh = s.fresh := modCur_fresh s _

@[simp] theorem advance_agenda (len : Nat) (s : State) : (advance len s).agenda = s.agenda := modCur_agenda s _

@[simp] theorem advance_turn (len : Nat) (s : State) : (advance len s).turn = s.turn := modCur_turn s _

@[simp] theorem advance_issuer (len : Nat) (s : State) : (advance len s).issuer = s.issuer := modCur_issuer s _

/-! ### noteError -/

@[simp] theorem noteError_mem (c : Cause) (s : State) : (noteError c s).mem = s.mem := by unfold noteError; split <;> rfl

@[simp] theorem noteError_peer (c : Cause) (s : State) : (noteError c s).peer = s.peer := by unfold noteError; split <;> rfl

@[simp] theorem noteError_poison (c : Cause) (s : State) : (noteError c s).poison = s.poison := by unfold noteError; split <;> rfl

@[simp] theorem noteError_deck (c : Cause) (s : State) : (noteError c s).deck = s.deck := by unfold noteError; split <;> rfl

@[simp] theorem noteError_deckPoison (c : Cause) (s : State) : (noteError c s).deckPoison = s.deckPoison := by unfold noteError; split <;> rfl

@[simp] theorem noteError_deckCtx (c : Cause) (s : State) : (noteError c s).deckCtx = s.deckCtx := by unfold noteError; split <;> rfl

@[simp] theorem noteError_opbuf (c : Cause) (s : State) : (noteError c s).opbuf = s.opbuf := by unfold noteError; split <;> rfl

@[simp] theorem noteError_bufPoison (c : Cause) (s : State) : (noteError c s).bufPoison = s.bufPoison := by unfold noteError; split <;> rfl

@[simp] theorem noteError_icache (c : Cause) (s : State) : (noteError c s).icache = s.icache := by unfold noteError; split <;> rfl

@[simp] theorem noteError_releases (c : Cause) (s : State) : (noteError c s).releases = s.releases := by unfold noteError; split <;> rfl

@[simp] theorem noteError_late (c : Cause) (s : State) : (noteError c s).late = s.late := by unfold noteError; split <;> rfl

@[simp] theorem noteError_served (c : Cause) (s : State) : (noteError c s).served = s.served := by unfold noteError; split <;> rfl

@[simp] theorem noteError_matrix (c : Cause) (s : State) : (noteError c s).matrix = s.matrix := by unfold noteError; split <;> rfl

@[simp] theorem noteError_raster (c : Cause) (s : State) : (noteError c s).raster = s.raster := by unfold noteError; split <;> rfl

@[simp] theorem noteError_image (c : Cause) (s : State) : (noteError c s).image = s.image := by unfold noteError; split <;> rfl

@[simp] theorem noteError_spans (c : Cause) (s : State) : (noteError c s).spans = s.spans := by unfold noteError; split <;> rfl

@[simp] theorem noteError_launches (c : Cause) (s : State) : (noteError c s).launches = s.launches := by unfold noteError; split <;> rfl

@[simp] theorem noteError_vm (c : Cause) (s : State) : (noteError c s).vm = s.vm := by unfold noteError; split <;> rfl

@[simp] theorem noteError_fe (c : Cause) (s : State) : (noteError c s).fe = s.fe := by unfold noteError; split <;> rfl

@[simp] theorem noteError_clock (c : Cause) (s : State) : (noteError c s).clock = s.clock := by unfold noteError; split <;> rfl

@[simp] theorem noteError_time (c : Cause) (s : State) : (noteError c s).time = s.time := by unfold noteError; split <;> rfl

@[simp] theorem noteError_fresh (c : Cause) (s : State) : (noteError c s).fresh = s.fresh := by unfold noteError; split <;> rfl

@[simp] theorem noteError_agenda (c : Cause) (s : State) : (noteError c s).agenda = s.agenda := by unfold noteError; split <;> rfl

@[simp] theorem noteError_turn (c : Cause) (s : State) : (noteError c s).turn = s.turn := by unfold noteError; split <;> rfl

@[simp] theorem noteError_issuer (c : Cause) (s : State) : (noteError c s).issuer = s.issuer := by unfold noteError; split <;> rfl

theorem noteError_outside (c : Cause) (s : State) :
    (noteError c s).outside = { s.outside with ras := if c.toNat % 32 = 25 then s.outside.ras ++ [c] else s.outside.ras } := by
  unfold noteError
  split <;> rfl

/-! ### settleWrites -/

/-- Late writes performed change the stores alone (R90). -/
theorem performLates_frame (ws : List Late) : ∀ s : State, ws.foldl (fun acc w => performLate w acc) s =
    { s with
      mem := (ws.foldl (fun acc w => performLate w acc) s).mem
      peer := (ws.foldl (fun acc w => performLate w acc) s).peer
      poison := (ws.foldl (fun acc w => performLate w acc) s).poison
      deck := (ws.foldl (fun acc w => performLate w acc) s).deck
      deckPoison := (ws.foldl (fun acc w => performLate w acc) s).deckPoison } := by
  induction ws with
  | nil => intro s; rfl
  | cons w rest ih =>
    intro s
    rw [List.foldl_cons, ih]
    unfold performLate writeSpace
    split <;> rfl

theorem settleWrites_frame (pick : Late → Bool) (s : State) : settleWrites pick s =
    { s with
      mem := (settleWrites pick s).mem
      peer := (settleWrites pick s).peer
      poison := (settleWrites pick s).poison
      deck := (settleWrites pick s).deck
      deckPoison := (settleWrites pick s).deckPoison
      late := (settleWrites pick s).late } := by
  unfold settleWrites
  split
  · rw [performLates_frame]
  · rfl

/-- What is picked is late no more, and the rest stays in order. -/
@[simp] theorem settleWrites_late (pick : Late → Bool) (s : State) : (settleWrites pick s).late = s.late.filter fun w => !pick w := by
  unfold settleWrites
  split
  · rw [performLates_frame]
  · rename_i h
    rw [List.filter_eq_self.mpr]
    intro w hw
    have : ¬ pick w = true := fun hp => h (List.any_eq_true.mpr ⟨w, hw, hp⟩)
    simp [this]

@[simp] theorem settleWrites_deckCtx (pick : Late → Bool) (s : State) : (settleWrites pick s).deckCtx = s.deckCtx := by rw [settleWrites_frame]

@[simp] theorem settleWrites_opbuf (pick : Late → Bool) (s : State) : (settleWrites pick s).opbuf = s.opbuf := by rw [settleWrites_frame]

@[simp] theorem settleWrites_bufPoison (pick : Late → Bool) (s : State) : (settleWrites pick s).bufPoison = s.bufPoison := by rw [settleWrites_frame]

@[simp] theorem settleWrites_icache (pick : Late → Bool) (s : State) : (settleWrites pick s).icache = s.icache := by rw [settleWrites_frame]

@[simp] theorem settleWrites_releases (pick : Late → Bool) (s : State) : (settleWrites pick s).releases = s.releases := by rw [settleWrites_frame]

@[simp] theorem settleWrites_served (pick : Late → Bool) (s : State) : (settleWrites pick s).served = s.served := by rw [settleWrites_frame]

@[simp] theorem settleWrites_matrix (pick : Late → Bool) (s : State) : (settleWrites pick s).matrix = s.matrix := by rw [settleWrites_frame]

@[simp] theorem settleWrites_raster (pick : Late → Bool) (s : State) : (settleWrites pick s).raster = s.raster := by rw [settleWrites_frame]

@[simp] theorem settleWrites_image (pick : Late → Bool) (s : State) : (settleWrites pick s).image = s.image := by rw [settleWrites_frame]

@[simp] theorem settleWrites_spans (pick : Late → Bool) (s : State) : (settleWrites pick s).spans = s.spans := by rw [settleWrites_frame]

@[simp] theorem settleWrites_launches (pick : Late → Bool) (s : State) : (settleWrites pick s).launches = s.launches := by rw [settleWrites_frame]

@[simp] theorem settleWrites_vm (pick : Late → Bool) (s : State) : (settleWrites pick s).vm = s.vm := by rw [settleWrites_frame]

@[simp] theorem settleWrites_fe (pick : Late → Bool) (s : State) : (settleWrites pick s).fe = s.fe := by rw [settleWrites_frame]

@[simp] theorem settleWrites_outside (pick : Late → Bool) (s : State) : (settleWrites pick s).outside = s.outside := by rw [settleWrites_frame]

@[simp] theorem settleWrites_clock (pick : Late → Bool) (s : State) : (settleWrites pick s).clock = s.clock := by rw [settleWrites_frame]

@[simp] theorem settleWrites_time (pick : Late → Bool) (s : State) : (settleWrites pick s).time = s.time := by rw [settleWrites_frame]

@[simp] theorem settleWrites_fresh (pick : Late → Bool) (s : State) : (settleWrites pick s).fresh = s.fresh := by rw [settleWrites_frame]

@[simp] theorem settleWrites_agenda (pick : Late → Bool) (s : State) : (settleWrites pick s).agenda = s.agenda := by rw [settleWrites_frame]

@[simp] theorem settleWrites_turn (pick : Late → Bool) (s : State) : (settleWrites pick s).turn = s.turn := by rw [settleWrites_frame]

@[simp] theorem settleWrites_issuer (pick : Late → Bool) (s : State) : (settleWrites pick s).issuer = s.issuer := by rw [settleWrites_frame]

/-- With nothing picked nothing happens. -/
theorem settleWrites_none {pick : Late → Bool} {s : State} (h : ∀ w ∈ s.late, pick w = false) : settleWrites pick s = s := by
  have : s.late.any pick = false := by
    rw [Bool.eq_false_iff]
    intro hp
    obtain ⟨w, hw, hx⟩ := List.any_eq_true.mp hp
    rw [h w hw] at hx
    exact Bool.noConfusion hx
  simp [settleWrites, this]

end Sys2Proof.Machine
end

