-- ==== Sys2Proof/Laws/Stores.lean ====
section
/-!
SUPPORT. The stores of bytes and marks: every operation that writes one keeps the canonical form (`storesWf`), and the operations that take
traps, complete operations and move barriers change none of them.
-/

namespace Sys2Proof.Machine

/-! ### The stores as one value -/

/-- The stores of bytes, of uncorrectable marks and of deck holders. -/
def stores (s : State) : (Memory × Memory × Cells 1 × Memory) × Cells 1 × Cells 9 × Memory × Cells 1 :=
  ((s.mem, s.peer, s.poison, s.deck), s.deckPoison, s.deckCtx, s.opbuf, s.bufPoison)

/-- The canonical form is a property of the stores alone. -/
theorem storesWf_of_stores {s t : State} (h : stores t = stores s) : storesWf t = storesWf s := by
  simp only [stores, Prod.mk.injEq] at h
  obtain ⟨⟨h1, h2, h3, h4⟩, h5, h6, h7, h8⟩ := h
  simp only [storesWf, h1, h2, h3, h4, h5, h6, h7, h8]

theorem sameBytes_of_stores {s t : State} (h : stores t = stores s) : SameBytes s t := by
  simp only [stores, Prod.mk.injEq] at h
  obtain ⟨⟨h1, h2, _, h4⟩, _, _, h7, _⟩ := h
  intro a
  rw [h1, h2, h4, h7]
  exact ⟨rfl, rfl, rfl, rfl⟩

theorem storesWf_iff (s : State) : storesWf s = true ↔
    Memory.wf s.mem = true ∧ Memory.wf s.peer = true ∧ cellsWf 0 s.poison = true ∧ Memory.wf s.deck = true ∧
      cellsWf 0 s.deckPoison = true ∧ cellsWf 0 s.deckCtx = true ∧ Memory.wf s.opbuf = true ∧ cellsWf 0 s.bufPoison = true := by
  simp [storesWf, and_assoc]

/-! ### Operations that change no store -/

@[simp] theorem stores_modSpan (s : State) (sid : Nat) (f : Span → Span) : stores (modSpan s sid f) = stores s := rfl

@[simp] theorem stores_modLaunch (s : State) (l : Nat) (f : Launch → Launch) : stores (modLaunch s l f) = stores s := rfl

@[simp] theorem stores_modGroup (s : State) (sid g : Nat) (f : Group → Group) : stores (modGroup s sid g f) = stores s := rfl

@[simp] theorem stores_modFe (f : FrontEnd → FrontEnd) (s : State) : stores (modFe f s) = stores s := rfl

@[simp] theorem stores_setFifo (pier : Nat) (l : List MatrixEntry) (s : State) : stores (setFifo pier l s) = stores s := rfl

@[simp] theorem stores_setRasterQueue (pier : Nat) (q : List RasterEntry) (s : State) : stores (setRasterQueue pier q s) = stores s := rfl

@[simp] theorem stores_setImageQueue (pier : Nat) (q : List ImageEntry) (s : State) : stores (setImageQueue pier q s) = stores s := rfl

@[simp] theorem stores_modLink (port : Nat) (f : Link → Link) (s : State) : stores (modLink port f s) = stores s := rfl

@[simp] theorem stores_draw (s : State) : stores (draw s).2 = stores s := rfl

@[simp] theorem stores_modCur (s : State) (f : Group → Group) : stores (modCur s f) = stores s := by
  unfold modCur; split <;> rfl

@[simp] theorem stores_setPc (s : State) (pc : Va) : stores (setPc s pc) = stores s := stores_modCur s _

@[simp] theorem stores_advance (len : Nat) (s : State) : stores (advance len s) = stores s := stores_modCur s _

@[simp] theorem stores_setSlice (k : Nat) (sl : Slice) (s : State) : stores (setSlice k sl s) = stores s := stores_modCur s _

@[simp] theorem stores_modCurSpan (s : State) (f : Span → Span) : stores (modCurSpan s f) = stores s := rfl

@[simp] theorem stores_setMyParked (ps : List Parked) (s : State) : stores (setMyParked ps s) = stores s := by
  unfold setMyParked
  simp

@[simp] theorem stores_killSpan (sid : Nat) (c : Cause) (s : State) : stores (killSpan sid c s) = stores s := rfl

@[simp] theorem stores_enterHandler (sid : Nat) (s : State) : stores (enterHandler sid s) = stores s := by
  unfold enterHandler
  repeat' split
  all_goals rfl

@[simp] theorem stores_takeTrap (sid g : Nat) (c : Cause) (lanes : LaneMask) (s : State) : stores (takeTrap sid g c lanes s) = stores s := by
  unfold takeTrap
  repeat' split
  all_goals simp

@[simp] theorem stores_completionCause (sid : Nat) (g : Option Nat) (c : Cause) (lanes : LaneMask) (block : Option Nat) (s : State) :
    stores (completionCause sid g c lanes block s) = stores s := by
  unfold completionCause
  split
  · rfl
  · dsimp only
    repeat' split
    all_goals simp

@[simp] theorem stores_takeHeld (sid : Nat) (s : State) : stores (takeHeld sid s) = stores s := by
  unfold takeHeld
  repeat' split
  all_goals simp

@[simp] theorem stores_noteError (c : Cause) (s : State) : stores (noteError c s) = stores s := by
  unfold noteError
  split <;> rfl

@[simp] theorem stores_killPoisoned (sid : Nat) (s : State) : stores (killPoisoned sid s) = stores s := by
  rw [killPoisoned, stores_killSpan, stores_noteError]

@[simp] theorem stores_failLaunch (l : Nat) (c : Cause) (s : State) : stores (failLaunch l c s) = stores s := rfl

@[simp] theorem stores_faultWith (src reason : Nat) (lanes : LaneMask) (s : State) : stores (faultWith src reason lanes s) = stores s := by
  unfold faultWith
  repeat' split
  all_goals simp

@[simp] theorem stores_faultPoisoned (src : Nat) (lanes : LaneMask) (s : State) : stores (faultPoisoned src lanes s) = stores s := by
  rw [faultPoisoned, stores_faultWith, stores_noteError]

theorem stores_foldl {α : Type} (f : State → α → State) (h : ∀ s x, stores (f s x) = stores s) (l : List α) :
    ∀ s, stores (l.foldl f s) = stores s := by
  induction l with
  | nil => intro s; rfl
  | cons x rest ih => intro s; rw [List.foldl_cons, ih, h]

@[simp] theorem stores_underrunTest (sid k : Nat) (s : State) : stores (underrunTest sid k s) = stores s := by
  unfold underrunTest
  split
  · rfl
  · split
    · rfl
    · split
      · split
        · rfl
        · dsimp only
          rw [stores_foldl _ (fun s n => stores_modGroup s sid n _), stores_takeTrap]
      · rfl

@[simp] theorem stores_engineArrive (sid k : Nat) (s : State) : stores (engineArrive sid k s) = stores s := rfl

theorem stores_engineFail (sid k : Nat) (deliver : State → State) (h : ∀ s, stores (deliver s) = stores s) (s : State) :
    stores (engineFail sid k deliver s) = stores s := by
  rw [engineFail, stores_underrunTest, h, dropPend, stores_modSpan]

@[simp] theorem stores_raisePend (sid k : Nat) (s : State) : stores (raisePend sid k s) = stores s := rfl

@[simp] theorem stores_groupExit (sid g : Nat) (s : State) : stores (groupExit sid g s) = stores s := by
  unfold groupExit
  simp only [stores_enterHandler]
  rw [stores_foldl _ (fun s k => stores_underrunTest sid k s), stores_modSpan]

/-! ### Marks cleared and bytes written -/

theorem cellsWf_foldl_set {w : Nat} {d : BitVec w} (key : Nat → Nat) (x : BitVec w) (l : List Nat) :
    ∀ {c : Cells w}, cellsWf d c = true → cellsWf d (l.foldl (fun acc i => cellSet d acc (key i) x) c) = true := by
  induction l with
  | nil => intro c h; exact h
  | cons i rest ih => intro c h; exact ih (cellsWf_cellSet _ h _ _)

theorem wf_writeByte {m : Memory} (h : Memory.wf m = true) (a : Nat) (b : Byte) : Memory.wf (writeByte m a b) = true :=
  cellsWf_cellSet _ h a b

theorem wf_writeDeckMem (sp : Span) (bs : List Byte) :
    ∀ (off : Nat) {m : Memory}, Memory.wf m = true → Memory.wf (writeDeckMem sp off m bs) = true := by
  induction bs with
  | nil => intro off m h; exact h
  | cons b rest ih => intro off m h; exact ih _ (wf_writeByte h _ _)

theorem wf_writeResMem (sp : Span) (r : Reservation) (bs : List Byte) :
    ∀ (o : Nat) {m : Memory}, Memory.wf m = true → Memory.wf (writeResMem sp r o bs m) = true := by
  induction bs with
  | nil => intro o m h; exact h
  | cons b rest ih => intro o m h; exact ih _ (wf_writeByte h _ _)

theorem wf_ringWrite (q : BitVec 128) (n v : Nat) {m : Memory} (h : Memory.wf m = true) : Memory.wf (ringWrite q n v m) = true := by
  unfold ringWrite
  exact cellsWf_cellSetRange _ _ _ h

theorem cellsWf_cellsCopy {w : Nat} {d : BitVec w} {c : Cells w} (h : cellsWf d c = true) (src dst n : Nat) :
    cellsWf d (cellsCopy d c src dst n) = true :=
  cellsWf_cellSetAll _ (cellsWf_filter _ h _) _

theorem storesWf_writeDeck {s : State} (h : storesWf s = true) (sp : Span) (off : Nat) (bs : List Byte) :
    storesWf (writeDeck sp off bs s) = true := by
  rw [storesWf_iff] at h ⊢
  simp only [writeDeck_mem, writeDeck_peer, writeDeck_poison, writeDeck_deck, writeDeck_deckPoison, writeDeck_deckCtx, writeDeck_opbuf,
    writeDeck_bufPoison]
  exact ⟨h.1, h.2.1, h.2.2.1, wf_writeDeckMem sp bs off h.2.2.2.1, h.2.2.2.2⟩

theorem storesWf_storeDeck {s : State} (h : storesWf s = true) (sp : Span) (off : Nat) (bs : List Byte) :
    storesWf (storeDeck sp off bs s) = true := by
  have h2 := (storesWf_iff _).mp (storesWf_writeDeck h sp off bs)
  rw [storesWf_iff]
  exact ⟨h2.1, h2.2.1, h2.2.2.1, h2.2.2.2.1, cellsWf_foldl_set _ _ _ h2.2.2.2.2.1, h2.2.2.2.2.2⟩

theorem storesWf_writeRes {s : State} (h : storesWf s = true) (sp : Span) (r : Reservation) (o : Nat) (bs : List Byte) :
    storesWf (writeRes sp r o bs s) = true := by
  rw [storesWf_iff] at h ⊢
  exact ⟨h.1, h.2.1, h.2.2.1, h.2.2.2.1, h.2.2.2.2.1, h.2.2.2.2.2.1, wf_writeResMem sp r bs o h.2.2.2.2.2.2.1,
    cellsWf_foldl_set _ _ _ h.2.2.2.2.2.2.2⟩

theorem storesWf_writeMem {s : State} (h : storesWf s = true) (key : Nat) (bs : List Byte) : storesWf (writeMem key bs s) = true := by
  rw [storesWf_iff] at h ⊢
  exact ⟨cellsWf_cellSetRange _ bs key h.1, h.2.1, cellsWf_foldl_set _ _ _ h.2.2.1, h.2.2.2⟩

theorem storesWf_writePart {s : State} (h : storesWf s = true) (p : Part) (bs : List Byte) : storesWf (writePart p bs s) = true := by
  unfold writePart
  split
  · exact storesWf_writeMem h _ _
  · rw [storesWf_iff] at h ⊢
    exact ⟨h.1, cellsWf_cellSetRange _ bs _ h.2.1, h.2.2⟩
  · exact h

theorem storesWf_writeParts (ps : List Part) :
    ∀ (bs : List Byte) {s : State}, storesWf s = true → storesWf (writeParts ps bs s) = true := by
  induction ps with
  | nil => intro bs s h; exact h
  | cons p rest ih => intro bs s h; exact ih _ (storesWf_writePart h _ _)

theorem storesWf_peer {s : State} (h : storesWf s = true) {m : Memory} (hm : Memory.wf m = true) : storesWf { s with peer := m } = true := by
  rw [storesWf_iff] at h ⊢
  exact ⟨h.1, hm, h.2.2⟩

/-! ### Accesses of several granules (R90) -/

theorem storesWf_writeDeckKey {s : State} (h : storesWf s = true) (key : Nat) (bs : List Byte) : storesWf (writeDeckKey key bs s) = true := by
  rw [storesWf_iff] at h ⊢
  exact ⟨h.1, h.2.1, h.2.2.1, cellsWf_cellSetRange _ bs key h.2.2.2.1, cellsWf_foldl_set _ _ _ h.2.2.2.2.1, h.2.2.2.2.2⟩

theorem storesWf_writeSpace {s : State} (h : storesWf s = true) (sp : Space) (key : Nat) (bs : List Byte) :
    storesWf (writeSpace sp key bs s) = true := by
  cases sp
  · exact storesWf_writeMem h key bs
  · exact storesWf_writeDeckKey h key bs
  · exact storesWf_peer h (cellsWf_cellSetRange _ bs key ((storesWf_iff _).mp h).2.1)

theorem storesWf_foldl {α : Type} (f : State → α → State) (hf : ∀ s x, storesWf s = true → storesWf (f s x) = true) (l : List α) :
    ∀ {s : State}, storesWf s = true → storesWf (l.foldl f s) = true := by
  induction l with
  | nil => intro s h; exact h
  | cons x rest ih => intro s h; exact ih (hf s x h)

theorem storesWf_settleWrites {s : State} (h : storesWf s = true) (pick : Late → Bool) : storesWf (settleWrites pick s) = true := by
  unfold settleWrites
  split
  · exact storesWf_foldl _ (fun s w hs => storesWf_writeSpace hs _ _ _) _ h
  · exact h

theorem storesWf_settleAtomics {s : State} (h : storesWf s = true) : storesWf (settleAtomics s) = true := storesWf_settleWrites h _

theorem storesWf_settleHost {s : State} (h : storesWf s = true) : storesWf (settleHost s) = true := storesWf_settleWrites h _

theorem storesWf_settleSpan {s : State} (h : storesWf s = true) (sid : Nat) : storesWf (settleSpan sid s) = true := storesWf_settleWrites h _

theorem storesWf_settleDeck {s : State} (h : storesWf s = true) (pier : Nat) : storesWf (settleDeck pier s) = true := storesWf_settleWrites h _

theorem storesWf_settlePoint {s : State} (h : storesWf s = true) (party : Option Nat) (sp : Space) (key n : Nat) :
    storesWf (settlePoint party sp key n s) = true := storesWf_settleWrites h _

theorem storesWf_settleLeaving {s : State} (h : storesWf s = true) (sid : Nat) : storesWf (settleLeaving sid s) = true := by
  unfold settleLeaving
  dsimp only
  split
  · exact storesWf_settleSpan h sid
  · exact storesWf_settleDeck (storesWf_settleSpan h sid) _

theorem storesWf_settleGroup {s : State} (h : storesWf s = true) (sid g : Nat) : storesWf (settleGroup sid g s) = true := by
  unfold settleGroup settleLoads
  split
  · exact storesWf_settleWrites h _
  · exact storesWf_settleWrites h _

theorem storesWf_settleAll {s : State} (h : storesWf s = true) : storesWf (settleAll s) = true := storesWf_settleWrites h _

theorem storesWf_putGranules {s : State} (h : storesWf s = true) (owner : Option (Nat × Nat × Nat)) (split point : Option Nat) (sp : Space)
    (key : Nat) (bs : List Byte) : storesWf (putGranules owner split point sp key bs s) = true := by
  refine storesWf_foldl _ (fun s g hs => ?_) _ h
  dsimp only
  split
  · exact hs
  · exact storesWf_writeSpace hs _ _ _

theorem wf_applyPeer (w : OpWrite) {m : Memory} (h : Memory.wf m = true) : Memory.wf (applyPeer w m) = true := by
  unfold applyPeer
  split
  · exact cellsWf_cellSetRange _ _ _ h
  · exact h

theorem wf_applyPeers (ws : List OpWrite) : ∀ {m : Memory}, Memory.wf m = true → Memory.wf (ws.foldl (fun m w => applyPeer w m) m) = true := by
  induction ws with
  | nil => intro m h; exact h
  | cons w rest ih => intro m h; exact ih (wf_applyPeer w h)

theorem storesWf_settleOp {s : State} (h : storesWf s = true) (sid g id : Nat) : storesWf (settleOp sid g id s) = true := by
  have h1 := storesWf_settleGroup h sid g
  unfold settleOp
  dsimp only
  split
  · exact h1
  · exact storesWf_peer h1 (wf_applyPeers _ ((storesWf_iff _).mp h1).2.1)

/-- An operation's completion performs what it has still to perform and changes no store beside (R13, R90). -/
theorem stores_completeOp (sid g id : Nat) (s : State) : stores (completeOp sid g id s) = stores (settleOp sid g id s) := by
  unfold completeOp
  dsimp only
  split
  · rfl
  · split
    · rfl
    · split
      · rw [stores_modGroup, stores_modSpan]
      · rw [stores_completionCause, stores_noteError, stores_modGroup, stores_modSpan]

theorem storesWf_completeOp {s : State} (h : storesWf s = true) (sid g id : Nat) : storesWf (completeOp sid g id s) = true := by
  rw [storesWf_of_stores (stores_completeOp sid g id s)]
  exact storesWf_settleOp h sid g id

/-! ### The context area, frames and deck units -/

theorem storesWf_areaWrite {s : State} (h : storesWf s = true) (a : Nat) (bs : List Byte) : storesWf (areaWrite a bs s) = true := by
  rw [storesWf_iff] at h ⊢
  exact ⟨cellsWf_cellSetAll _ h.1 _, h.2⟩

theorem storesWf_copyFrame {s : State} (h : storesWf s = true) (srcTier srcFrame dstTier dstFrame : Nat) :
    storesWf (copyFrame srcTier srcFrame dstTier dstFrame s) = true := by
  rw [storesWf_iff] at h ⊢
  exact ⟨cellsWf_cellsCopy h.1 _ _ _, h.2.1, cellsWf_cellsCopy h.2.2.1 _ _ _, h.2.2.2⟩

theorem storesWf_passUnits (pier ctx : Nat) (units : List Nat) :
    ∀ {s : State}, storesWf s = true → storesWf (passUnits pier ctx units s) = true := by
  unfold passUnits
  induction units with
  | nil => intro s h; exact h
  | cons u rest ih =>
    intro s h
    rw [List.foldl_cons]
    refine ih ?_
    rw [storesWf_iff] at h ⊢
    dsimp only
    split
    · exact ⟨h.1, h.2.1, h.2.2.1, h.2.2.2.1, h.2.2.2.2.1, cellsWf_cellSet _ h.2.2.2.2.2.1 _ _, h.2.2.2.2.2.2⟩
    · exact ⟨h.1, h.2.1, h.2.2.1, cellsWf_filter _ h.2.2.2.1 _, cellsWf_filter _ h.2.2.2.2.1 _, cellsWf_cellSet _ h.2.2.2.2.2.1 _ _, h.2.2.2.2.2.2⟩

/-- The rings keep the canonical form of memory (R276, R429). -/
theorem storesWf_flushEvents (l : List (BitVec 256)) : ∀ {s : State}, storesWf s = true → storesWf (flushEvents l s) = true := by
  induction l with
  | nil => intro s h; exact h
  | cons r rest ih =>
    intro s h
    rw [flushEvents]
    dsimp only
    split
    · exact h
    · refine ih ?_
      split
      · rw [storesWf_iff] at h ⊢
        exact ⟨wf_ringWrite _ _ _ h.1, h.2⟩
      · rw [storesWf_iff] at h ⊢
        exact ⟨wf_ringWrite _ _ _ h.1, h.2⟩

theorem storesWf_postEvent {s : State} (h : storesWf s = true) (kind detail : Nat) : storesWf (postEvent kind detail s) = true := by
  unfold postEvent
  split
  · exact h
  · exact storesWf_flushEvents _ h

/-- What the keystone posts of the errors met, and the time that passes, keep it (R429). -/
theorem storesWf_reportErrors {s : State} (h : storesWf s = true) : storesWf (reportErrors s) = true := by
  have h0 : storesWf { s with outside := { s.outside with ras := [] } } = true := h
  have h1 := storesWf_foldl (fun acc (c : Cause) => postEvent 3 c.toNat acc) (fun _ c hs => storesWf_postEvent hs 3 c.toNat) s.outside.ras h0
  unfold reportErrors
  split
  · exact h
  · dsimp only
    generalize s.outside.ras.foldl (fun acc (c : Cause) => postEvent 3 c.toNat acc) _ = u at h1 ⊢
    have h2 : storesWf (draw u).2 = true := (storesWf_of_stores (stores_draw u)).trans h1
    split
    · exact h1
    · split
      · exact storesWf_postEvent h2 _ _
      · exact h2

theorem storesWf_trickleLate {s : State} (h : storesWf s = true) : storesWf (trickleLate s) = true := by
  unfold trickleLate
  split
  · exact h
  · exact storesWf_settleWrites ((storesWf_of_stores (stores_draw s)).trans h) _

theorem stores_passTime (s : State) : stores (passTime s) = stores (reportErrors (trickleLate s)) := by
  unfold passTime
  dsimp only
  generalize reportErrors (trickleLate s) = u
  rfl

theorem storesWf_passTime {s : State} (h : storesWf s = true) : storesWf (passTime s) = true :=
  (storesWf_of_stores (stores_passTime s)).trans (storesWf_reportErrors (storesWf_trickleLate h))

theorem storesWf_flushFaults (l : List FaultRec) : ∀ {s : State}, storesWf s = true → storesWf (flushFaults l s) = true := by
  induction l with
  | nil => intro s h; exact h
  | cons f rest ih =>
    intro s h
    rw [flushFaults]
    dsimp only
    split
    · exact h
    · refine ih ?_
      split
      · rw [storesWf_iff] at h ⊢
        exact ⟨wf_ringWrite _ _ _ h.1, h.2⟩
      · rw [storesWf_iff] at h ⊢
        exact ⟨wf_ringWrite _ _ _ h.1, h.2⟩

theorem storesWf_queueFault {s : State} (h : storesWf s = true) (f : FaultRec) : storesWf (queueFault f s) = true := by
  unfold queueFault
  split
  · exact h
  · exact storesWf_flushFaults _ h

/-! ### Traps, each case once (R217 to R222) -/

/-- A trap in the group that runs the handler kills the span. -/
theorem takeTrap_handling {s : State} {sid : Nat} {sp : Span} (g : Nat) (c : Cause) (lanes : LaneMask) (hs : findSpan s sid = some sp)
    (hk : sp.killed = none) (hh : sp.handler.isSome = true) :
    takeTrap sid g c lanes s = killSpan sid c (modGroup s sid g fun x => { x with tcause := c }) := by
  simp [takeTrap, hs, hk, hh]

/-- A trap of a sibling that skids stops the group and discards the cause. -/
theorem takeTrap_skidding {s : State} {sid : Nat} {sp : Span} (g : Nat) (c : Cause) (lanes : LaneMask) (hs : findSpan s sid = some sp)
    (hk : sp.killed = none) (hh : sp.handler = none) (ht : sp.trap.isSome = true) :
    takeTrap sid g c lanes s = enterHandler sid (modGroup s sid g stopGroup) := by
  simp [takeTrap, hs, hk, hh, ht]

/-- A trap where the launch names no handler kills the span. -/
theorem takeTrap_unhandled {s : State} {sid : Nat} {sp : Span} {la : Launch} (g : Nat) (c : Cause) (lanes : LaneMask)
    (hs : findSpan s sid = some sp) (hk : sp.killed = none) (hh : sp.handler = none) (ht : sp.trap = none)
    (hl : findLaunch s sp.launch = some la) (h0 : handlerVa la = 0) :
    takeTrap sid g c lanes s = killSpan sid c (modGroup s sid g fun x => { x with tcause := c, tlanes := lanes }) := by
  simp [takeTrap, hs, hk, hh, ht, hl, h0]

/-- A trap where the launch names a handler halts the span. -/
theorem takeTrap_handled {s : State} {sid : Nat} {sp : Span} {la : Launch} (g : Nat) (c : Cause) (lanes : LaneMask)
    (hs : findSpan s sid = some sp) (hk : sp.killed = none) (hh : sp.handler = none) (ht : sp.trap = none)
    (hl : findLaunch s sp.launch = some la) (h0 : handlerVa la ≠ 0) :
    takeTrap sid g c lanes s = enterHandler sid (modSpan s sid (haltSpan g c lanes)) := by
  simp [takeTrap, hs, hk, hh, ht, hl, h0]

end Sys2Proof.Machine
end

