-- ==== Sys2Proof/Laws/Access.lean ====
section
/-!
SUPPORT. The shared operations of memory instructions, each case once: when an issue stalls, faults, waits, performs; and bytes read back
after a write.
-/

namespace Sys2Proof.Machine

/-! ### Counted operations (R12, R65) -/

/-- Issuing an operation raises its class's counter by one and no other. -/
theorem counter_issueOp (cls : OpClass) (kind : OpKind) (lanes : LaneMask) (g : Group) (c : OpClass) :
    counter (issueOp cls kind lanes g) c = counter g c + if c = cls then 1 else 0 := by
  unfold counter issueOp
  simp only [List.filter_append, List.length_append]
  congr 1
  by_cases h : c = cls
  · subst h; simp
  · rw [if_neg h]
    have hb : (cls == c) = false := by simpa using fun hc => h hc.symm
    simp [hb]

/-- Under U = 1 a false q guard leaves nothing but the pc changed, where nothing of the instruction has parked or waits. -/
theorem guardedOp_off {e : Enc} {s : State} (body : State → State) (hu : e.u = true) (hq : qGuard e s = false) (hp : myParked s = [])
    (hw : waitOf (curGroup s) (issuerSlice s) = none) : guardedOp e body s = advance (wordLen e) s := by
  simp [guardedOp, hu, hq, hp, hw]

theorem guardedOp_on {e : Enc} {s : State} (body : State → State) (h : e.u = true → qGuard e s = true) : guardedOp e body s = body s := by
  unfold guardedOp
  cases hu : e.u
  · simp
  · simp [h hu]

/-- What has parked read its guard at issue. -/
theorem guardedOp_parked {e : Enc} {s : State} (body : State → State) (h : myParked s ≠ []) : guardedOp e body s = body s := by
  simp [guardedOp, h]

/-- With nothing parked the operands are those the registers hold. -/
theorem issueGroup_fresh {s : State} (h : myParked s = []) : issueGroup s = curGroup s := by simp [issueGroup, h]

/-- With nothing parked a lane has all its parts to perform. -/
@[simp] theorem remaining_nil (u : Bool) (r : LaneRun) : remaining [] u r = r := rfl

/-! ### Global accesses (R201 to R204) -/

/-- A cancelled page ends the instruction with its cause. -/
theorem globalIssue_cancelled {cls : OpClass} {kind : OpKind} {pre : PreCheck} {plan : Group → Nat → List Part} {e : Enc} {perf : Perform}
    {s : State} {p : Parked} (hg : e.u = true → qGuard e s = true) (hp : (myParked s).find? (·.cancel) = some p) :
    globalIssue cls kind pre plan e perf s =
      memFault (p.cause.toNat / 32) (p.cause.toNat % 32) (parkedAtIssue s (myParked s)) s := by
  rw [globalIssue, guardedOp_on _ hg]
  simp [hp]

/-- With 63 operations of its class outstanding a first issue stalls. -/
theorem globalIssue_full {cls : OpClass} {kind : OpKind} {pre : PreCheck} {plan : Group → Nat → List Part} {e : Enc} {perf : Perform}
    {s : State} (hg : e.u = true → qGuard e s = true) (hp : myParked s = []) (hc : counter (curGroup s) cls = 63) :
    globalIssue cls kind pre plan e perf s = s := by
  rw [globalIssue, guardedOp_on _ hg]
  simp [issueGroup_fresh hp, hp, hc]

/-- A first issue that fails its own checks traps. -/
theorem globalIssue_pre {cls : OpClass} {kind : OpKind} {pre : PreCheck} {plan : Group → Nat → List Part} {e : Enc} {perf : Perform}
    {s : State} {src reason : Nat} (hg : e.u = true → qGuard e s = true) (hp : myParked s = []) (hc : counter (curGroup s) cls ≠ 63)
    (hf : pre (curGroup s) (accessLanes e.u (actLanes e s)) = some (src, reason)) :
    globalIssue cls kind pre plan e perf s = memFault src reason (actLanes e s) s := by
  rw [globalIssue, guardedOp_on _ hg]
  simp [issueGroup_fresh hp, hp, hc, hf]

/-- A first issue past its own checks: a fault that is not replayable traps 3:r; an access whose peer queue is full stalls; else the lanes
that pass are performed and the others park. -/
theorem globalIssue_fresh {cls : OpClass} {kind : OpKind} {pre : PreCheck} {plan : Group → Nat → List Part} {e : Enc} {perf : Perform}
    {s : State} (hg : e.u = true → qGuard e s = true) (hp : myParked s = []) (hc : counter (curGroup s) cls ≠ 63)
    (hf : pre (curGroup s) (accessLanes e.u (actLanes e s)) = none) :
    globalIssue cls kind pre plan e perf s =
      let runs : List LaneRun := (accessLanes e.u (actLanes e s)).map fun l => (l, plan (curGroup s) l)
      match firstFault (curReplay s) ((runs.map (·.2)).flatten) with
      | some r => memFault 3 r (actLanes e s) s
      | none =>
        if ((runs.map (·.2)).flatten).any (peerBusy s) then s else globalPerform cls kind e perf (actLanes e s) runs s := by
  rw [globalIssue, guardedOp_on _ hg]
  simp [issueGroup_fresh hp, hp, hc, hf] <;> rfl

/-- A retry of which no lane may go on waits. -/
theorem globalIssue_waits {cls : OpClass} {kind : OpKind} {pre : PreCheck} {plan : Group → Nat → List Part} {e : Enc} {perf : Perform}
    {s : State} (hp : myParked s ≠ []) (hn : (myParked s).find? (·.cancel) = none)
    (hr : parkedLanes ((myParked s).filter (·.retry)) = 0) : globalIssue cls kind pre plan e perf s = s := by
  rw [globalIssue, guardedOp_parked _ hp]
  simp [hp, hn, hr]

/-! ### Operations of one entry for all lanes (R204, R341, R415) -/

/-- While every parked lane waits, nothing happens. -/
theorem wholeIssue_waits {lanes : LaneMask} {u : Bool} {runs : State → List LaneRun} {post : State → State} {s : State}
    (hc : (myParked s).find? (·.cancel) = none) (hw : (!(myParked s).isEmpty && (myParked s).all fun p => !p.retry) = true) :
    wholeIssue lanes u runs post s = s := by
  unfold wholeIssue
  simp only [hc, if_pos hw]

/-- With nothing parked, a fault that is not replayable traps 3:r. -/
theorem wholeIssue_fault {lanes : LaneMask} {u : Bool} {runs : State → List LaneRun} {post : State → State} {s : State} {r : Nat}
    (hp : myParked s = []) (hr : firstFault (curReplay (setMyParked [] s)) (((runs (setMyParked [] s)).map (·.2)).flatten) = some r) :
    wholeIssue lanes u runs post s = faultWith 3 r lanes (setMyParked [] s) := by
  unfold wholeIssue
  simp [hp, hr]

/-- With nothing parked and every part passing, the entry is posted. -/
theorem wholeIssue_posts {lanes : LaneMask} {u : Bool} {runs : State → List LaneRun} {post : State → State} {s : State}
    (hp : myParked s = []) (hr : firstFault (curReplay (setMyParked [] s)) (((runs (setMyParked [] s)).map (·.2)).flatten) = none)
    (ha : ((runs (setMyParked [] s)).filter fun r => !runPasses r) = []) :
    wholeIssue lanes u runs post s =
      post (noteRuns (curPier (setMyParked [] s)) (curCtx (setMyParked [] s)) (runs (setMyParked [] s)) (setMyParked [] s)) := by
  unfold wholeIssue
  simp [hp, hr, ha]

/-! ### Deck accesses (R198, R199, R202) -/

/-- A deck access outside the span's allocation traps 2:5. -/
theorem deckIssue_outside {cls : OpClass} {size : Nat} {reads : Bool} {e : Enc} {perf : Perform} {s : State} {sp : Span}
    (hg : e.u = true → qGuard e s = true) (hc : counter (curGroup s) cls ≠ 63) (hs : curSpan s = some sp)
    (ho : (((accessLanes e.u (actLanes e s)).map fun l => (l, ((readLoc (curGroup s) l (raLoc e)).toNat : Int) + immMem e * size)).any
      fun p => decide (p.2 < 0) || decide ((deckSize sp : Int) < p.2 + size)) = true) :
    deckIssue cls size reads e perf s = memFault 2 5 (actLanes e s) s := by
  rw [deckIssue, guardedOp_on _ hg]
  simp only [hs, if_neg hc, if_pos ho]

/-! ### Bytes read back -/

theorem readByte_writeByte (m : Memory) (a b : Nat) (x : Byte) : readByte (writeByte m a x) b = if b = a then x else readByte m b :=
  cellGet_cellSet _ m a b x

theorem readByte_writeMem_other (s : State) {key a : Nat} {bs : List Byte} (h : a < key ∨ key + bs.length ≤ a) :
    readByte (writeMem key bs s).mem a = readByte s.mem a :=
  cellGet_cellSetRange_other _ bs _ _ _ h

theorem readByte_writeMem_in (s : State) (key i : Nat) (bs : List Byte) (h : i < bs.length) :
    readByte (writeMem key bs s).mem (key + i) = bs[i] :=
  cellGet_cellSetRange_in _ bs _ _ _ h

end Sys2Proof.Machine
end

