-- ==== Sys2Proof/Laws/Alu.lean ====
section
/-!
SUPPORT. What an instruction that computes leaves: one lemma for the shared body, under U and the guard, and one for the run of a form.
-/

namespace Sys2Proof.Machine

/-! ### Going on -/

theorem sliceLive_pc (sl : Slice) (pc : Va) : sliceLive { sl with pc := pc } = sliceLive sl := rfl

/-- The gang goes on, whatever else changes in the group but its slices. -/
theorem advance_modCur {s : State} (h : Issues s) (len : Nat) (f : Group → Group) (hf : (f (curGroup s)).slices = (curGroup s).slices) :
    advance len (modCur s f) = modCur s fun g =>
      modSlices (f g) (curSlices s) fun sl => { sl with pc := sl.pc + BitVec.ofNat 57 len } := by
  unfold advance
  rw [curSlices_modCur h f (fun k => by rw [hf]), modCur_modCur]

theorem advance_eq (len : Nat) (s : State) :
    advance len s = modCur s fun g => modSlices g (curSlices s) fun sl => { sl with pc := sl.pc + BitVec.ofNat 57 len } := by
  rfl

theorem advanced_modCur {s : State} (h : Issues s) (len : Nat) (f : Group → Group) (hf : (f (curGroup s)).slices = (curGroup s).slices) :
    Advanced len s (advance len (modCur s f)) := by
  intro k
  rw [advance_modCur h len f hf, curGroup_modCur h, modSlices_getElem? _ (curSlices s) (gangSlices_nodup (curGroup s) (issuerSlice s)), hf]

/-- The one thing the effect of an instruction on its group and its going on can do: rewrite the issuing group. -/
theorem advance_modCur_only {s : State} (h : Issues s) (len : Nat) (f : Group → Group) (hf : (f (curGroup s)).slices = (curGroup s).slices) :
    OnlyGroup s (advance len (modCur s f)) ∧ SameBytes s (advance len (modCur s f)) := by
  rw [advance_modCur h len f hf]
  exact ⟨onlyGroup_modCur h _, sameBytes_modCur s _⟩

/-! ### One lane after another -/

/-- What a loop of lane writes leaves: each lane's own words, every other register, the flags. -/
theorem foldl_lanes (rd k : Nat) (f : Nat → Nat × Flags) (lanes : List Nat) (hn : lanes.Nodup) (hl : ∀ i ∈ lanes, i < 32) (g : Group) :
    let g' := lanes.foldl (fun acc i => mergeFlags (f i).2 (writeVs rd i (wordsOf k (f i).1) acc)) g
    (∀ r lane, lane < 32 → readV g' r lane =
      if lane ∈ lanes ∧ rd ≤ r ∧ r < rd + k then BitVec.ofNat 32 ((f lane).1 / 2 ^ (32 * (r - rd))) else readV g r lane) ∧
    g'.fsr = flagsAfter (lanes.map fun l => (f l).2) g.fsr ∧
    g' = { g with vregs := g'.vregs, fsr := g'.fsr } := by
  induction lanes generalizing g with
  | nil => exact ⟨fun r lane _ => by simp, rfl, rfl⟩
  | cons i rest ih =>
    rw [List.nodup_cons] at hn
    have hi : i < 32 := hl i (by simp)
    have h := ih hn.2 (fun j hj => hl j (by simp [hj])) (mergeFlags (f i).2 (writeVs rd i (wordsOf k (f i).1) g))
    simp only [List.foldl_cons]
    obtain ⟨h1, h2, h3⟩ := h
    refine ⟨?_, ?_, ?_⟩
    · intro r lane hlane
      rw [h1 r lane hlane]
      have hm : ∀ x : Group, readV (mergeFlags (f i).2 x) r lane = readV x r lane := fun _ => rfl
      rw [hm, readV_writeVs _ _ _ _ _ _ hi hlane, wordsOf_length]
      by_cases hr : lane ∈ rest ∧ rd ≤ r ∧ r < rd + k
      · rw [if_pos hr, if_pos (by simp [hr.1, hr.2])]
      · rw [if_neg hr]
        by_cases hc : lane = i ∧ rd ≤ r ∧ r < rd + k
        · rw [if_pos hc, if_pos (by simp [hc.1, hc.2])]
          rw [wordsOf_getElem? k _ _ (by omega), hc.1]
          rfl
        · rw [if_neg hc, if_neg (by simp only [List.mem_cons]; tauto)]
    · rw [h2]
      have : (mergeFlags (f i).2 (writeVs rd i (wordsOf k (f i).1) g)).fsr = g.fsr ||| (f i).2 := by
        rw [writeVs_rest]; rfl
      rw [this]
      rfl
    · rw [h3]
      conv_rhs => rw [h3]
      rw [writeVs_rest]
      rfl

theorem mergeFlags_slices (fl : Flags) (g : Group) : (mergeFlags fl g).slices = g.slices := rfl

theorem lanes_slices {x y : Group} (h : y = { x with vregs := y.vregs, fsr := y.fsr }) (l : List Slice) :
    ({ y with slices := l } : Group) = { x with vregs := y.vregs, fsr := y.fsr, slices := l } := by
  cases x; cases y; simp only [Group.mk.injEq] at h ⊢; simp [h]

theorem group_slices {x y : Group} (h : y = { x with gregs := y.gregs, fsr := y.fsr }) (l : List Slice) :
    ({ y with slices := l } : Group) = { x with gregs := y.gregs, fsr := y.fsr, slices := l } := by
  cases x; cases y; simp only [Group.mk.injEq] at h ⊢; simp [h]

/-- A loop of lane writes over a mask, and the going on, is a `LaneResult`. -/
theorem laneResult_intro {s : State} (h : Issues s) (len : Nat) (lanes : LaneMask) (rd k : Nat) (f : Nat → Nat × Flags) :
    LaneResult s (advance len (modCur s fun g =>
      (laneList lanes).foldl (fun acc i => mergeFlags (f i).2 (writeVs rd i (wordsOf k (f i).1) acc)) g)) len lanes rd k f := by
  have hl : ∀ i ∈ laneList lanes, i < 32 := fun i hi => ((mem_laneList lanes i).mp hi).1
  obtain ⟨h1, h2, h3⟩ := foldl_lanes rd k f (laneList lanes) (laneList_nodup lanes) hl (curGroup s)
  set F : Group → Group := fun g =>
    (laneList lanes).foldl (fun acc i => mergeFlags (f i).2 (writeVs rd i (wordsOf k (f i).1) acc)) g with hF
  have hs : (F (curGroup s)).slices = (curGroup s).slices := by rw [hF]; simpa using congrArg Group.slices h3
  have hg : curGroup (advance len (modCur s F)) =
      modSlices (F (curGroup s)) (curSlices s) fun sl => { sl with pc := sl.pc + BitVec.ofNat 57 len } := by
    rw [advance_modCur h len F hs, curGroup_modCur h]
  have hv : ∀ r lane, readV (curGroup (advance len (modCur s F))) r lane = readV (F (curGroup s)) r lane := by
    intro r lane; rw [hg]; rfl
  have ho := advance_modCur_only h len F hs
  refine ⟨?_, ?_, ?_, advanced_modCur h len F hs, ?_, ho.1, ho.2⟩
  · intro lane hlane hm j hj
    rw [hv, h1 _ lane hlane, if_pos ⟨(mem_laneList lanes lane).mpr ⟨hlane, hm⟩, by omega, by omega⟩, Nat.add_sub_cancel_left]
  · intro r lane hlane hc
    rw [hv, h1 r lane hlane, if_neg]
    intro hc'
    exact hc ⟨((mem_laneList lanes lane).mp hc'.1).2, hc'.2.1, hc'.2.2⟩
  · rw [hg]
    exact h2
  · rw [hg]
    exact lanes_slices h3 _

/-- A write of group registers under a q guard, and the going on, is a `GroupResult`. -/
theorem groupResult_intro {s : State} (h : Issues s) (len : Nat) (q : Bool) (rd k : Nat) (r : Nat × Flags) :
    GroupResult s (advance len (modCur s fun g => if q then mergeFlags r.2 (writeGs rd (wordsOf k r.1) g) else g)) len q rd k r := by
  set F : Group → Group := fun g => if q then mergeFlags r.2 (writeGs rd (wordsOf k r.1) g) else g with hF
  have h3 : F (curGroup s) = { curGroup s with gregs := (F (curGroup s)).gregs, fsr := (F (curGroup s)).fsr } := by
    cases q
    · rfl
    · simp only [hF, if_true]
      rw [writeGs_rest]
      rfl
  have hs : (F (curGroup s)).slices = (curGroup s).slices := by simpa using congrArg Group.slices h3
  have hg : curGroup (advance len (modCur s F)) =
      modSlices (F (curGroup s)) (curSlices s) fun sl => { sl with pc := sl.pc + BitVec.ofNat 57 len } := by
    rw [advance_modCur h len F hs, curGroup_modCur h]
  have hv : ∀ n, readG (curGroup (advance len (modCur s F))) n = readG (F (curGroup s)) n := by intro n; rw [hg]; rfl
  have ho := advance_modCur_only h len F hs
  refine ⟨?_, ?_, ?_, advanced_modCur h len F hs, ?_, ho.1, ho.2⟩
  · intro hq j hj
    rw [hv]
    simp only [hF, hq, if_true]
    show readG (writeGs rd (wordsOf k r.1) (curGroup s)) (rd + j) = _
    rw [readG_writeGs, wordsOf_length, if_pos (by omega), Nat.add_sub_cancel_left, wordsOf_getElem? k _ _ hj]
    rfl
  · intro n hc
    rw [hv]
    cases hq : q
    · simp [hF, hq]
    · simp only [hF, hq, if_true]
      show readG (writeGs rd (wordsOf k r.1) (curGroup s)) n = _
      rw [readG_writeGs, wordsOf_length, if_neg]
      intro hc'
      exact hc ⟨hq, hc'.1, hc'.2⟩
  · rw [hg]
    show (F (curGroup s)).fsr = _
    cases hq : q
    · simp [hF, hq]
    · simp only [hF, hq, if_true]
      rw [writeGs_rest]
      rfl
  · rw [hg]
    exact group_slices h3 _

/-! ### The shared bodies -/

/-- All that `aluBody` does: the result of the computation over its operands, read before anything is written (R135). -/
theorem aluBody_result {s : State} (h : Issues s) (e : Enc) (srcs : List (Loc × Nat)) (rd : Loc) (k : Nat) (f : Alu) :
    Result e rd k (fun g lane => f (srcs.map fun p => readLocs g lane p.2 p.1)) s (aluBody e srcs rd k f s) := by
  unfold Result aluBody aluGroup
  cases hu : e.u
  · simp only [Bool.false_eq_true, if_false]
    have := laneResult_intro h (wordLen e) (actLanes e s) (locNum rd) k
      (fun lane => f (srcs.map fun p => readLocs (curGroup s) lane p.2 p.1))
    have hc : modCur s (aluLanes srcs (locNum rd) k f (actLanes e s)) = modCur s fun g =>
        (laneList (actLanes e s)).foldl (fun acc i => mergeFlags (f (srcs.map fun p => readLocs (curGroup s) i p.2 p.1)).2
          (writeVs (locNum rd) i (wordsOf k (f (srcs.map fun p => readLocs (curGroup s) i p.2 p.1)).1) acc)) g :=
      modCur_congr s rfl
    rw [hc]
    exact this
  · simp only [if_true]
    have := groupResult_intro h (wordLen e) (qGuard e s) (locNum rd) k (f (srcs.map fun p => readLocs (curGroup s) 0 p.2 p.1))
    have hc : modCur s (fun g => if qGuard e s then aluOnce srcs (locNum rd) k f g else g) = modCur s fun g =>
        if qGuard e s then mergeFlags (f (srcs.map fun p => readLocs (curGroup s) 0 p.2 p.1)).2
          (writeGs (locNum rd) (wordsOf k (f (srcs.map fun p => readLocs (curGroup s) 0 p.2 p.1)).1) g) else g :=
      modCur_congr s rfl
    rw [hc]
    exact this

/-- A form whose checks pass runs its body. -/
theorem runForm_legal {f : Form} {extra : Bool} {e : Enc} {s : State} (h : Legal f extra e s) (body : State → State) :
    runForm f extra e body s = .next (body s) := by
  unfold Legal at h
  unfold runForm
  cases hi : s.issuer with
  | nobody => simp only [hi] at h; exact absurd h.2 id
  | gang sid g sl => simp only [hi] at h; simp only [h.2]
  | prologue p => simp only [hi] at h; simp [h.2.1, h.2.2.1, h.2.2.2]

/-- Whatever its checks say, a form answers a next state. -/
theorem runForm_next (f : Form) (extra : Bool) (e : Enc) (body : State → State) (s : State) : ∃ t, runForm f extra e body s = .next t := by
  unfold runForm
  split
  · exact ⟨_, rfl⟩
  · split <;> exact ⟨_, rfl⟩
  · split
    · exact ⟨_, rfl⟩
    · split <;> exact ⟨_, rfl⟩

theorem runCompact_next (guard : Nat) (regs : List Nat) (body : State → State) (s : State) : ∃ t, runCompact guard regs body s = .next t := by
  unfold runCompact
  split
  · exact ⟨_, rfl⟩
  · split <;> exact ⟨_, rfl⟩
  · exact ⟨_, rfl⟩

/-- An instruction of a form over `aluBody` computes. -/
theorem computes_aluBody {i : Instr} {f : Form} {extra : Bool} {e : Enc} {srcs : List (Loc × Nat)} {rd : Loc} {k : Nat} {a : Alu}
    (hi : ∀ s, exec i s = runForm f extra e (aluBody e srcs rd k a) s) :
    Computes i f extra e rd k fun g lane => a (srcs.map fun p => readLocs g lane p.2 p.1) := by
  intro s hs
  exact ⟨_, by rw [hi, runForm_legal hs], aluBody_result hs.1 e srcs rd k a⟩

end Sys2Proof.Machine
end

