-- ==== Sys2Proof/Laws/PerInstr.lean ====
section
/-!
SUPPORT. The encoding law of each constructor of `Instr`: what stands in the code for a well-formed instruction gives it back, and is no
misuse of the prefix.
-/

namespace Sys2Proof.Laws.Encoding

open Sys2Proof

set_option maxRecDepth 8000

/-- A 32-bit word that may stand in the code with the fields it has: its opcode is not XP's, and WAITC has no prefix (R71, R74). -/
def lawful : Shape → Prop
  | .word op e => op ≠ xpOpcode ∧ (op = waitcOpcode → e.xp = none)
  | .compact _ _ => True
  | .xp _ => True

/-- The law of an instruction: its opcode and fields give it back, and may stand in the code. -/
def Statement (i : Instr) : Prop := wellFormed i = true → ∀ sh, shapeOf i = some sh → instrOfShape sh = i ∧ lawful sh

/-- A word of an opcode other than XP's and WAITC's. -/
theorem of_word (i : Instr) (op : BitVec 9) (e : Enc) (hs : shapeOf i = some (.word op e)) (hi : instrOfShape (.word op e) = i)
    (hx : op ≠ xpOpcode) (hw : op ≠ waitcOpcode) : Statement i := by
  intro _ sh h
  rw [hs] at h
  cases h
  exact ⟨hi, hx, fun h => absurd h hw⟩

/-- A step has no encoding. -/
theorem of_step (i : Instr) (hs : shapeOf i = none) : Statement i := by
  intro _ sh h
  rw [hs] at h
  cases h

/-- A compact form. -/
theorem of_compact (i : Instr) (op : BitVec 4) (c : Cmp) (hs : shapeOf i = some (.compact op c))
    (hi : instrOfShape (.compact op c) = i) : Statement i := by
  intro _ sh h
  rw [hs] at h
  cases h
  exact ⟨hi, trivial⟩

/-- The map has no instruction for a reserved opcode (R80). -/
theorem reserved_not_mapped : ∀ op : BitVec 9, reservedOpcode op = true →
    (Machine.keyFind op.toNat opTable).isNone = true ∧ op ≠ xpOpcode ∧ op ≠ waitcOpcode := by
  have h : ∀ n : Fin (2 ^ 9), reservedOpcode (BitVec.ofFin n) = true →
      (Machine.keyFind (BitVec.ofFin n).toNat opTable).isNone = true ∧ BitVec.ofFin n ≠ xpOpcode ∧ BitVec.ofFin n ≠ waitcOpcode := by
    decide +kernel
  intro op
  exact h op.toFin

theorem lsuOpComplete (sid g op : Nat) : Statement (.lsuOpComplete sid g op) := of_step _ rfl
theorem gatherReturn (sid g op : Nat) (errors : BitVec 32) : Statement (.gatherReturn sid g op errors) := of_step _ rfl
theorem conversionOpComplete (sid g op : Nat) : Statement (.conversionOpComplete sid g op) := of_step _ rfl
theorem decodeOpComplete (sid g op : Nat) : Statement (.decodeOpComplete sid g op) := of_step _ rfl
theorem matrixEntryStart (pier : Nat) : Statement (.matrixEntryStart pier) := of_step _ rfl
theorem matrixEntryComplete (pier : Nat) : Statement (.matrixEntryComplete pier) := of_step _ rfl
theorem transferOpStart (sid q : Nat) : Statement (.transferOpStart sid q) := of_step _ rfl
theorem transferOpComplete (sid q : Nat) : Statement (.transferOpComplete sid q) := of_step _ rfl
theorem mcastComplete (sid q : Nat) : Statement (.mcastComplete sid q) := of_step _ rfl
theorem peerWriteAck (sid g op port : Nat) : Statement (.peerWriteAck sid g op port) := of_step _ rfl
theorem peerErrorResponse (sid g op lane reason : Nat) : Statement (.peerErrorResponse sid g op lane reason) := of_step _ rfl
theorem peerAccessIngress (kind : Nat) (offset : BitVec 47) (data : List (BitVec 8)) : Statement (.peerAccessIngress kind offset data) := of_step _ rfl
theorem rasterPrimitive (pier : Nat) : Statement (.rasterPrimitive pier) := of_step _ rfl
theorem erfetchComplete (pier : Nat) : Statement (.erfetchComplete pier) := of_step _ rfl
theorem ivstPerform (pier : Nat) : Statement (.ivstPerform pier) := of_step _ rfl
theorem erflushComplete (pier : Nat) : Statement (.erflushComplete pier) := of_step _ rfl
theorem imageEntryComplete (pier : Nat) : Statement (.imageEntryComplete pier) := of_step _ rfl
theorem walkerTestPoint (launch : Nat) : Statement (.walkerTestPoint launch) := of_step _ rfl
theorem haltSkidExpire (sid g : Nat) : Statement (.haltSkidExpire sid g) := of_step _ rfl
theorem handlerEntry (sid : Nat) : Statement (.handlerEntry sid) := of_step _ rfl
theorem groupSlotFree (sid g : Nat) : Statement (.groupSlotFree sid g) := of_step _ rfl
theorem spanExitCounted (sid : Nat) : Statement (.spanExitCounted sid) := of_step _ rfl
theorem spanKillReport (sid : Nat) : Statement (.spanKillReport sid) := of_step _ rfl
theorem spanRelaunch (sid : Nat) : Statement (.spanRelaunch sid) := of_step _ rfl
theorem qdescCreate (q : Nat) (w : BitVec 256) : Statement (.qdescCreate q w) := of_step _ rfl
theorem qdescDestroyDrain (q : Nat) : Statement (.qdescDestroyDrain q) := of_step _ rfl
theorem qdescDestroyAbort (q : Nat) : Statement (.qdescDestroyAbort q) := of_step _ rfl
theorem qdescDestroyAbortKill (q : Nat) : Statement (.qdescDestroyAbortKill q) := of_step _ rfl
theorem doorbellWrite (q : Nat) (v : BitVec 64) : Statement (.doorbellWrite q v) := of_step _ rfl
theorem queueBind : Statement .queueBind := of_step _ rfl
theorem launchPacket (slot : Nat) : Statement (.launchPacket slot) := of_step _ rfl
theorem waitPacket (slot : Nat) : Statement (.waitPacket slot) := of_step _ rfl
theorem waitReread (slot : Nat) : Statement (.waitReread slot) := of_step _ rfl
theorem signalPacket (slot : Nat) : Statement (.signalPacket slot) := of_step _ rfl
theorem fencePacket (slot : Nat) : Statement (.fencePacket slot) := of_step _ rfl
theorem tablePacket (slot : Nat) : Statement (.tablePacket slot) := of_step _ rfl
theorem nopPacket (slot : Nat) : Statement (.nopPacket slot) := of_step _ rfl
theorem prologueStart (launch : Nat) : Statement (.prologueStart launch) := of_step _ rfl
theorem prologueInstructionLimit (engine : Nat) : Statement (.prologueInstructionLimit engine) := of_step _ rfl
theorem prologueRerun (launch : Nat) : Statement (.prologueRerun launch) := of_step _ rfl
theorem launchComplete (launch : Nat) : Statement (.launchComplete launch) := of_step _ rfl
theorem slotbWrite (slot : Nat) (v : BitVec 64) : Statement (.slotbWrite slot v) := of_step _ rfl
theorem slotiClear (slot : Nat) (v : BitVec 64) : Statement (.slotiClear slot v) := of_step _ rfl
theorem quantumExpired (slot : Nat) : Statement (.quantumExpired slot) := of_step _ rfl
theorem dieSlotReport (die : Nat) : Statement (.dieSlotReport die) := of_step _ rfl
theorem batchDecision : Statement .batchDecision := of_step _ rfl
theorem spanPlace (die : Nat) : Statement (.spanPlace die) := of_step _ rfl
theorem powerRefresh : Statement .powerRefresh := of_step _ rfl
theorem starvationPreempt (launch : Nat) : Statement (.starvationPreempt launch) := of_step _ rfl
theorem slotDeadlock : Statement .slotDeadlock := of_step _ rfl
theorem preemptRequest (v : BitVec 64) : Statement (.preemptRequest v) := of_step _ rfl
theorem spanSave (sid : Nat) : Statement (.spanSave sid) := of_step _ rfl
theorem preemptTimeout (sid : Nat) : Statement (.preemptTimeout sid) := of_step _ rfl
theorem spanRestore (sid : Nat) : Statement (.spanRestore sid) := of_step _ rfl
theorem tlbinvStart (v : BitVec 128) : Statement (.tlbinvStart v) := of_step _ rfl
theorem tlbinvComplete : Statement .tlbinvComplete := of_step _ rfl
theorem replayRetry (v : BitVec 128) : Statement (.replayRetry v) := of_step _ rfl
theorem replayCancel (v : BitVec 128) : Statement (.replayCancel v) := of_step _ rfl
theorem faultqWrite (v : BitVec 128) : Statement (.faultqWrite v) := of_step _ rfl
theorem hwFaultService (context page : Nat) : Statement (.hwFaultService context page) := of_step _ rfl
theorem pageMoveStart (move : Nat) : Statement (.pageMoveStart move) := of_step _ rfl
theorem pageMoveComplete (move : Nat) : Statement (.pageMoveComplete move) := of_step _ rfl
theorem mapoutRequest (v : BitVec 64) : Statement (.mapoutRequest v) := of_step _ rfl
theorem layerFailingReport (stack layer : Nat) : Statement (.layerFailingReport stack layer) := of_step _ rfl
theorem mapoutCommit : Statement .mapoutCommit := of_step _ rfl
theorem spareWrite (v : BitVec 128) : Statement (.spareWrite v) := of_step _ rfl
theorem viaductLineEvict (die line : Nat) : Statement (.viaductLineEvict die line) := of_step _ rfl
theorem trestleMoveStart (launch : Nat) : Statement (.trestleMoveStart launch) := of_step _ rfl
theorem pmarkApply (sid g : Nat) : Statement (.pmarkApply sid g) := of_step _ rfl
theorem trestleLaunchEnd (launch : Nat) : Statement (.trestleLaunchEnd launch) := of_step _ rfl
theorem flitReceive (port seq : Nat) (crcOk : Bool) : Statement (.flitReceive port seq crcOk) := of_step _ rfl
theorem flitReplay (port : Nat) : Statement (.flitReplay port) := of_step _ rfl
theorem flitAck (port seq : Nat) : Statement (.flitAck port seq) := of_step _ rfl
theorem linkRetrain (port : Nat) : Statement (.linkRetrain port) := of_step _ rfl
theorem portDown (port : Nat) : Statement (.portDown port) := of_step _ rfl
theorem hostCxlMemAccess (write : Bool) (tier : Nat) (pa : Nat) (data : List (BitVec 8)) : Statement (.hostCxlMemAccess write tier pa data) := of_step _ rfl
theorem evqWrite (v : BitVec 128) : Statement (.evqWrite v) := of_step _ rfl
theorem privilegedRegisterWrite (offset : Nat) (v : BitVec 128) : Statement (.privilegedRegisterWrite offset v) := of_step _ rfl
theorem coldBoot (slotA slotB : Nat) : Statement (.coldBoot slotA slotB) := of_step _ rfl
theorem recoveryImage (image : Nat) : Statement (.recoveryImage image) := of_step _ rfl
theorem warmReset (checks : BitVec 8) : Statement (.warmReset checks) := of_step _ rfl
theorem spdmRequest (request : Nat) : Statement (.spdmRequest request) := of_step _ rfl
theorem thermalThrottle (die : Nat) (above : Bool) : Statement (.thermalThrottle die above) := of_step _ rfl
theorem thermalTrip (die : Nat) : Statement (.thermalTrip die) := of_step _ rfl
theorem reservedOpcodeWord (op : BitVec 9) (e : Enc) : Statement (.reservedOpcodeWord op e) := by
  intro hw sh h
  cases h
  obtain ⟨h1, h2, h3⟩ := reserved_not_mapped op hw
  rw [Option.isNone_iff_eq_none] at h1
  exact ⟨by simp only [instrOfShape, instrOf, h1], h2, fun h => absurd h h3⟩
theorem linkRetrained (port : Nat) : Statement (.linkRetrained port) := of_step _ rfl
theorem mappedOutLayerClear (stack layer : Nat) : Statement (.mappedOutLayerClear stack layer) := of_step _ rfl
theorem xp (payload : BitVec 22) : Statement (.xp payload) := by
  intro _ sh h
  cases h
  exact ⟨rfl, trivial⟩
theorem compactMov (c : Cmp) : Statement (.compactMov c) := of_compact _ _ _ rfl rfl
theorem compactAddS32 (c : Cmp) : Statement (.compactAddS32 c) := of_compact _ _ _ rfl rfl
theorem compactSubS32 (c : Cmp) : Statement (.compactSubS32 c) := of_compact _ _ _ rfl rfl
theorem compactAnd (c : Cmp) : Statement (.compactAnd c) := of_compact _ _ _ rfl rfl
theorem compactOr (c : Cmp) : Statement (.compactOr c) := of_compact _ _ _ rfl rfl
theorem compactXor (c : Cmp) : Statement (.compactXor c) := of_compact _ _ _ rfl rfl
theorem compactShl (c : Cmp) : Statement (.compactShl c) := of_compact _ _ _ rfl rfl
theorem compactShrZ32 (c : Cmp) : Statement (.compactShrZ32 c) := of_compact _ _ _ rfl rfl
theorem compactAddi (c : Cmp) : Statement (.compactAddi c) := of_compact _ _ _ rfl rfl
theorem compactLi (c : Cmp) : Statement (.compactLi c) := of_compact _ _ _ rfl rfl
theorem compactFaddF32 (c : Cmp) : Statement (.compactFaddF32 c) := of_compact _ _ _ rfl rfl
theorem compactFsubF32 (c : Cmp) : Statement (.compactFsubF32 c) := of_compact _ _ _ rfl rfl
theorem compactFmulF32 (c : Cmp) : Statement (.compactFmulF32 c) := of_compact _ _ _ rfl rfl
theorem compactFminF32 (c : Cmp) : Statement (.compactFminF32 c) := of_compact _ _ _ rfl rfl
theorem compactFmaxF32 (c : Cmp) : Statement (.compactFmaxF32 c) := of_compact _ _ _ rfl rfl
theorem compactMulloB32 (c : Cmp) : Statement (.compactMulloB32 c) := of_compact _ _ _ rfl rfl
theorem addS32 (e : Enc) : Statement (.addS32 e) := of_word _ _ _ rfl rfl (by decide) (by decide)
theorem addsS32 (e : Enc) : Statement (.addsS32 e) := of_word _ _ _ rfl rfl (by decide) (by decide)
theorem subS32 (e : Enc) : Statement (.subS32 e) := of_word _ _ _ rfl rfl (by decide) (by decide)
theorem subsS32 (e : Enc) : Statement (.subsS32 e) := of_word _ _ _ rfl rfl (by decide) (by decide)
theorem mulloB32 (e : Enc) : Statement (.mulloB32 e) := of_word _ _ _ rfl rfl (by decide) (by decide)
theorem mulhiS32 (e : Enc) : Statement (.mulhiS32 e) := of_word _ _ _ rfl rfl (by decide) (by decide)
theorem mulhiZ32 (e : Enc) : Statement (.mulhiZ32 e) := of_word _ _ _ rfl rfl (by decide) (by decide)
theorem madB32 (e : Enc) : Statement (.madB32 e) := of_word _ _ _ rfl rfl (by decide) (by decide)
theorem divS32 (e : Enc) : Statement (.divS32 e) := of_word _ _ _ rfl rfl (by decide) (by decide)
theorem divZ32 (e : Enc) : Statement (.divZ32 e) := of_word _ _ _ rfl rfl (by decide) (by decide)
theorem remS32 (e : Enc) : Statement (.remS32 e) := of_word _ _ _ rfl rfl (by decide) (by decide)
theorem remZ32 (e : Enc) : Statement (.remZ32 e) := of_word _ _ _ rfl rfl (by decide) (by decide)
theorem minS32 (e : Enc) : Statement (.minS32 e) := of_word _ _ _ rfl rfl (by decide) (by decide)
theorem maxS32 (e : Enc) : Statement (.maxS32 e) := of_word _ _ _ rfl rfl (by decide) (by decide)
theorem minZ32 (e : Enc) : Statement (.minZ32 e) := of_word _ _ _ rfl rfl (by decide) (by decide)
theorem maxZ32 (e : Enc) : Statement (.maxZ32 e) := of_word _ _ _ rfl rfl (by decide) (by decide)
theorem and (e : Enc) : Statement (.and e) := of_word _ _ _ rfl rfl (by decide) (by decide)
theorem or (e : Enc) : Statement (.or e) := of_word _ _ _ rfl rfl (by decide) (by decide)
theorem xor (e : Enc) : Statement (.xor e) := of_word _ _ _ rfl rfl (by decide) (by decide)
theorem andn (e : Enc) : Statement (.andn e) := of_word _ _ _ rfl rfl (by decide) (by decide)
theorem shl (e : Enc) : Statement (.shl e) := of_word _ _ _ rfl rfl (by decide) (by decide)
theorem shrZ32 (e : Enc) : Statement (.shrZ32 e) := of_word _ _ _ rfl rfl (by decide) (by decide)
theorem shrS32 (e : Enc) : Statement (.shrS32 e) := of_word _ _ _ rfl rfl (by decide) (by decide)
theorem rotl (e : Enc) : Statement (.rotl e) := of_word _ _ _ rfl rfl (by decide) (by decide)
theorem addi (e : Enc) : Statement (.addi e) := of_word _ _ _ rfl rfl (by decide) (by decide)
theorem shli (e : Enc) : Statement (.shli e) := of_word _ _ _ rfl rfl (by decide) (by decide)
theorem shriZ32 (e : Enc) : Statement (.shriZ32 e) := of_word _ _ _ rfl rfl (by decide) (by decide)
theorem shriS32 (e : Enc) : Statement (.shriS32 e) := of_word _ _ _ rfl rfl (by decide) (by decide)
theorem andi (e : Enc) : Statement (.andi e) := of_word _ _ _ rfl rfl (by decide) (by decide)
theorem li (e : Enc) : Statement (.li e) := of_word _ _ _ rfl rfl (by decide) (by decide)
theorem lih (e : Enc) : Statement (.lih e) := of_word _ _ _ rfl rfl (by decide) (by decide)
theorem not (e : Enc) : Statement (.not e) := of_word _ _ _ rfl rfl (by decide) (by decide)
theorem neg (e : Enc) : Statement (.neg e) := of_word _ _ _ rfl rfl (by decide) (by decide)
theorem absS32 (e : Enc) : Statement (.absS32 e) := of_word _ _ _ rfl rfl (by decide) (by decide)
theorem clzB32 (e : Enc) : Statement (.clzB32 e) := of_word _ _ _ rfl rfl (by decide) (by decide)
theorem ctzB32 (e : Enc) : Statement (.ctzB32 e) := of_word _ _ _ rfl rfl (by decide) (by decide)
theorem popcB32 (e : Enc) : Statement (.popcB32 e) := of_word _ _ _ rfl rfl (by decide) (by decide)
theorem brevB32 (e : Enc) : Statement (.brevB32 e) := of_word _ _ _ rfl rfl (by decide) (by decide)
theorem bfxZ32 (e : Enc) : Statement (.bfxZ32 e) := of_word _ _ _ rfl rfl (by decide) (by decide)
theorem bfxS32 (e : Enc) : Statement (.bfxS32 e) := of_word _ _ _ rfl rfl (by decide) (by decide)
theorem bfi (e : Enc) : Statement (.bfi e) := of_word _ _ _ rfl rfl (by decide) (by decide)
theorem prmt (e : Enc) : Statement (.prmt e) := of_word _ _ _ rfl rfl (by decide) (by decide)
theorem ilv2 (e : Enc) : Statement (.ilv2 e) := of_word _ _ _ rfl rfl (by decide) (by decide)
theorem ilv3 (e : Enc) : Statement (.ilv3 e) := of_word _ _ _ rfl rfl (by decide) (by decide)
theorem dlv2 (e : Enc) : Statement (.dlv2 e) := of_word _ _ _ rfl rfl (by decide) (by decide)
theorem dlv3 (e : Enc) : Statement (.dlv3 e) := of_word _ _ _ rfl rfl (by decide) (by decide)
theorem clzxB32 (e : Enc) : Statement (.clzxB32 e) := of_word _ _ _ rfl rfl (by decide) (by decide)
theorem clzB64 (e : Enc) : Statement (.clzB64 e) := of_word _ _ _ rfl rfl (by decide) (by decide)
theorem addB64 (e : Enc) : Statement (.addB64 e) := of_word _ _ _ rfl rfl (by decide) (by decide)
theorem subB64 (e : Enc) : Statement (.subB64 e) := of_word _ _ _ rfl rfl (by decide) (by decide)
theorem adda (e : Enc) : Statement (.adda e) := of_word _ _ _ rfl rfl (by decide) (by decide)
theorem mulwS32 (e : Enc) : Statement (.mulwS32 e) := of_word _ _ _ rfl rfl (by decide) (by decide)
theorem icmpS32 (e : Enc) : Statement (.icmpS32 e) := of_word _ _ _ rfl rfl (by decide) (by decide)
theorem icmpZ32 (e : Enc) : Statement (.icmpZ32 e) := of_word _ _ _ rfl rfl (by decide) (by decide)
theorem sel (e : Enc) : Statement (.sel e) := of_word _ _ _ rfl rfl (by decide) (by decide)
theorem plop (e : Enc) : Statement (.plop e) := of_word _ _ _ rfl rfl (by decide) (by decide)
theorem p2r (e : Enc) : Statement (.p2r e) := of_word _ _ _ rfl rfl (by decide) (by decide)
theorem r2p (e : Enc) : Statement (.r2p e) := of_word _ _ _ rfl rfl (by decide) (by decide)
theorem mov (e : Enc) : Statement (.mov e) := of_word _ _ _ rfl rfl (by decide) (by decide)
theorem movl (e : Enc) : Statement (.movl e) := of_word _ _ _ rfl rfl (by decide) (by decide)
theorem movs (e : Enc) : Statement (.movs e) := of_word _ _ _ rfl rfl (by decide) (by decide)
theorem movsw (e : Enc) : Statement (.movsw e) := of_word _ _ _ rfl rfl (by decide) (by decide)
theorem ccnt (e : Enc) : Statement (.ccnt e) := of_word _ _ _ rfl rfl (by decide) (by decide)
theorem nop (e : Enc) : Statement (.nop e) := of_word _ _ _ rfl rfl (by decide) (by decide)
theorem faddF32 (e : Enc) : Statement (.faddF32 e) := of_word _ _ _ rfl rfl (by decide) (by decide)
theorem fsubF32 (e : Enc) : Statement (.fsubF32 e) := of_word _ _ _ rfl rfl (by decide) (by decide)
theorem fmulF32 (e : Enc) : Statement (.fmulF32 e) := of_word _ _ _ rfl rfl (by decide) (by decide)
theorem ffmaF32 (e : Enc) : Statement (.ffmaF32 e) := of_word _ _ _ rfl rfl (by decide) (by decide)
theorem fminF32 (e : Enc) : Statement (.fminF32 e) := of_word _ _ _ rfl rfl (by decide) (by decide)
theorem fmaxF32 (e : Enc) : Statement (.fmaxF32 e) := of_word _ _ _ rfl rfl (by decide) (by decide)
theorem fcmpF32 (e : Enc) : Statement (.fcmpF32 e) := of_word _ _ _ rfl rfl (by decide) (by decide)
theorem fabsF32 (e : Enc) : Statement (.fabsF32 e) := of_word _ _ _ rfl rfl (by decide) (by decide)
theorem fnegF32 (e : Enc) : Statement (.fnegF32 e) := of_word _ _ _ rfl rfl (by decide) (by decide)
theorem fdivF32 (e : Enc) : Statement (.fdivF32 e) := of_word _ _ _ rfl rfl (by decide) (by decide)
theorem frcpF32 (e : Enc) : Statement (.frcpF32 e) := of_word _ _ _ rfl rfl (by decide) (by decide)
theorem fsqrtF32 (e : Enc) : Statement (.fsqrtF32 e) := of_word _ _ _ rfl rfl (by decide) (by decide)
theorem frsqF32 (e : Enc) : Statement (.frsqF32 e) := of_word _ _ _ rfl rfl (by decide) (by decide)
theorem fexp2F32 (e : Enc) : Statement (.fexp2F32 e) := of_word _ _ _ rfl rfl (by decide) (by decide)
theorem flog2F32 (e : Enc) : Statement (.flog2F32 e) := of_word _ _ _ rfl rfl (by decide) (by decide)
theorem fsinpiF32 (e : Enc) : Statement (.fsinpiF32 e) := of_word _ _ _ rfl rfl (by decide) (by decide)
theorem fcospiF32 (e : Enc) : Statement (.fcospiF32 e) := of_word _ _ _ rfl rfl (by decide) (by decide)
theorem frndF32 (e : Enc) : Statement (.frndF32 e) := of_word _ _ _ rfl rfl (by decide) (by decide)
theorem hadd2F16 (e : Enc) : Statement (.hadd2F16 e) := of_word _ _ _ rfl rfl (by decide) (by decide)
theorem hadd2Bf16 (e : Enc) : Statement (.hadd2Bf16 e) := of_word _ _ _ rfl rfl (by decide) (by decide)
theorem hmul2F16 (e : Enc) : Statement (.hmul2F16 e) := of_word _ _ _ rfl rfl (by decide) (by decide)
theorem hmul2Bf16 (e : Enc) : Statement (.hmul2Bf16 e) := of_word _ _ _ rfl rfl (by decide) (by decide)
theorem hfma2F16 (e : Enc) : Statement (.hfma2F16 e) := of_word _ _ _ rfl rfl (by decide) (by decide)
theorem hfma2Bf16 (e : Enc) : Statement (.hfma2Bf16 e) := of_word _ _ _ rfl rfl (by decide) (by decide)
theorem daddF64 (e : Enc) : Statement (.daddF64 e) := of_word _ _ _ rfl rfl (by decide) (by decide)
theorem dmulF64 (e : Enc) : Statement (.dmulF64 e) := of_word _ _ _ rfl rfl (by decide) (by decide)
theorem dfmaF64 (e : Enc) : Statement (.dfmaF64 e) := of_word _ _ _ rfl rfl (by decide) (by decide)
theorem dcmpF64 (e : Enc) : Statement (.dcmpF64 e) := of_word _ _ _ rfl rfl (by decide) (by decide)
theorem cvtF32S32 (e : Enc) : Statement (.cvtF32S32 e) := of_word _ _ _ rfl rfl (by decide) (by decide)
theorem cvtF32Z32 (e : Enc) : Statement (.cvtF32Z32 e) := of_word _ _ _ rfl rfl (by decide) (by decide)
theorem cvtS32F32 (e : Enc) : Statement (.cvtS32F32 e) := of_word _ _ _ rfl rfl (by decide) (by decide)
theorem cvtZ32F32 (e : Enc) : Statement (.cvtZ32F32 e) := of_word _ _ _ rfl rfl (by decide) (by decide)
theorem cvtF16x2F32 (e : Enc) : Statement (.cvtF16x2F32 e) := of_word _ _ _ rfl rfl (by decide) (by decide)
theorem cvtBf16x2F32 (e : Enc) : Statement (.cvtBf16x2F32 e) := of_word _ _ _ rfl rfl (by decide) (by decide)
theorem cvtF32F16 (e : Enc) : Statement (.cvtF32F16 e) := of_word _ _ _ rfl rfl (by decide) (by decide)
theorem cvtF32Bf16 (e : Enc) : Statement (.cvtF32Bf16 e) := of_word _ _ _ rfl rfl (by decide) (by decide)
theorem cvtF64F32 (e : Enc) : Statement (.cvtF64F32 e) := of_word _ _ _ rfl rfl (by decide) (by decide)
theorem cvtF32F64 (e : Enc) : Statement (.cvtF32F64 e) := of_word _ _ _ rfl rfl (by decide) (by decide)
theorem cvtT8x4F32 (e : Enc) : Statement (.cvtT8x4F32 e) := of_word _ _ _ rfl rfl (by decide) (by decide)
theorem cvtT6x16F32 (e : Enc) : Statement (.cvtT6x16F32 e) := of_word _ _ _ rfl rfl (by decide) (by decide)
theorem cvtF32T8 (e : Enc) : Statement (.cvtF32T8 e) := of_word _ _ _ rfl rfl (by decide) (by decide)
theorem cvtF32T6 (e : Enc) : Statement (.cvtF32T6 e) := of_word _ _ _ rfl rfl (by decide) (by decide)
theorem scalexT8 (e : Enc) : Statement (.scalexT8 e) := of_word _ _ _ rfl rfl (by decide) (by decide)
theorem scalexT6 (e : Enc) : Statement (.scalexT6 e) := of_word _ _ _ rfl rfl (by decide) (by decide)
theorem cvtN8x4F32 (e : Enc) : Statement (.cvtN8x4F32 e) := of_word _ _ _ rfl rfl (by decide) (by decide)
theorem cvtF32N8 (e : Enc) : Statement (.cvtF32N8 e) := of_word _ _ _ rfl rfl (by decide) (by decide)
theorem shflIdx (e : Enc) : Statement (.shflIdx e) := of_word _ _ _ rfl rfl (by decide) (by decide)
theorem shflXor (e : Enc) : Statement (.shflXor e) := of_word _ _ _ rfl rfl (by decide) (by decide)
theorem shflUp (e : Enc) : Statement (.shflUp e) := of_word _ _ _ rfl rfl (by decide) (by decide)
theorem shflDown (e : Enc) : Statement (.shflDown e) := of_word _ _ _ rfl rfl (by decide) (by decide)
theorem voteAny (e : Enc) : Statement (.voteAny e) := of_word _ _ _ rfl rfl (by decide) (by decide)
theorem voteAll (e : Enc) : Statement (.voteAll e) := of_word _ _ _ rfl rfl (by decide) (by decide)
theorem ballot (e : Enc) : Statement (.ballot e) := of_word _ _ _ rfl rfl (by decide) (by decide)
theorem matchLanes (e : Enc) : Statement (.matchLanes e) := of_word _ _ _ rfl rfl (by decide) (by decide)
theorem reduceAddS32 (e : Enc) : Statement (.reduceAddS32 e) := of_word _ _ _ rfl rfl (by decide) (by decide)
theorem reduceMinS32 (e : Enc) : Statement (.reduceMinS32 e) := of_word _ _ _ rfl rfl (by decide) (by decide)
theorem reduceMaxS32 (e : Enc) : Statement (.reduceMaxS32 e) := of_word _ _ _ rfl rfl (by decide) (by decide)
theorem reduceAddF32 (e : Enc) : Statement (.reduceAddF32 e) := of_word _ _ _ rfl rfl (by decide) (by decide)
theorem scanAddS32 (e : Enc) : Statement (.scanAddS32 e) := of_word _ _ _ rfl rfl (by decide) (by decide)
theorem scanAddF32 (e : Enc) : Statement (.scanAddF32 e) := of_word _ _ _ rfl rfl (by decide) (by decide)
theorem xclr (e : Enc) : Statement (.xclr e) := of_word _ _ _ rfl rfl (by decide) (by decide)
theorem xaccF32 (e : Enc) : Statement (.xaccF32 e) := of_word _ _ _ rfl rfl (by decide) (by decide)
theorem xmacF32 (e : Enc) : Statement (.xmacF32 e) := of_word _ _ _ rfl rfl (by decide) (by decide)
theorem xaccX320 (e : Enc) : Statement (.xaccX320 e) := of_word _ _ _ rfl rfl (by decide) (by decide)
theorem xrndF32 (e : Enc) : Statement (.xrndF32 e) := of_word _ _ _ rfl rfl (by decide) (by decide)
theorem xred (e : Enc) : Statement (.xred e) := of_word _ _ _ rfl rfl (by decide) (by decide)
theorem bra (e : Enc) : Statement (.bra e) := of_word _ _ _ rfl rfl (by decide) (by decide)
theorem brd (e : Enc) : Statement (.brd e) := of_word _ _ _ rfl rfl (by decide) (by decide)
theorem reconv (e : Enc) : Statement (.reconv e) := of_word _ _ _ rfl rfl (by decide) (by decide)
theorem regang (e : Enc) : Statement (.regang e) := of_word _ _ _ rfl rfl (by decide) (by decide)
theorem part (e : Enc) : Statement (.part e) := of_word _ _ _ rfl rfl (by decide) (by decide)
theorem jmpr (e : Enc) : Statement (.jmpr e) := of_word _ _ _ rfl rfl (by decide) (by decide)
theorem call (e : Enc) : Statement (.call e) := of_word _ _ _ rfl rfl (by decide) (by decide)
theorem callr (e : Enc) : Statement (.callr e) := of_word _ _ _ rfl rfl (by decide) (by decide)
theorem ret (e : Enc) : Statement (.ret e) := of_word _ _ _ rfl rfl (by decide) (by decide)
theorem exit (e : Enc) : Statement (.exit e) := of_word _ _ _ rfl rfl (by decide) (by decide)
theorem barInit (e : Enc) : Statement (.barInit e) := of_word _ _ _ rfl rfl (by decide) (by decide)
theorem barArv (e : Enc) : Statement (.barArv e) := of_word _ _ _ rfl rfl (by decide) (by decide)
theorem barWait (e : Enc) : Statement (.barWait e) := of_word _ _ _ rfl rfl (by decide) (by decide)
theorem barSync (e : Enc) : Statement (.barSync e) := of_word _ _ _ rfl rfl (by decide) (by decide)
theorem barQry (e : Enc) : Statement (.barQry e) := of_word _ _ _ rfl rfl (by decide) (by decide)
theorem waitc (e : Enc) : Statement (.waitc e) := by
  intro hw sh h
  cases h
  refine ⟨rfl, by decide, fun _ => ?_⟩
  simpa [wellFormed] using hw
theorem waitr (e : Enc) : Statement (.waitr e) := of_word _ _ _ rfl rfl (by decide) (by decide)
theorem yield (e : Enc) : Statement (.yield e) := of_word _ _ _ rfl rfl (by decide) (by decide)
theorem fence (e : Enc) : Statement (.fence e) := of_word _ _ _ rfl rfl (by decide) (by decide)
theorem qfence (e : Enc) : Statement (.qfence e) := of_word _ _ _ rfl rfl (by decide) (by decide)
theorem trap (e : Enc) : Statement (.trap e) := of_word _ _ _ rfl rfl (by decide) (by decide)
theorem bkpt (e : Enc) : Statement (.bkpt e) := of_word _ _ _ rfl rfl (by decide) (by decide)
theorem rte (e : Enc) : Statement (.rte e) := of_word _ _ _ rfl rfl (by decide) (by decide)
theorem ldZ8 (e : Enc) : Statement (.ldZ8 e) := of_word _ _ _ rfl rfl (by decide) (by decide)
theorem ldS8 (e : Enc) : Statement (.ldS8 e) := of_word _ _ _ rfl rfl (by decide) (by decide)
theorem ldZ16 (e : Enc) : Statement (.ldZ16 e) := of_word _ _ _ rfl rfl (by decide) (by decide)
theorem ldS16 (e : Enc) : Statement (.ldS16 e) := of_word _ _ _ rfl rfl (by decide) (by decide)
theorem ldB32 (e : Enc) : Statement (.ldB32 e) := of_word _ _ _ rfl rfl (by decide) (by decide)
theorem ldB64 (e : Enc) : Statement (.ldB64 e) := of_word _ _ _ rfl rfl (by decide) (by decide)
theorem ldB128 (e : Enc) : Statement (.ldB128 e) := of_word _ _ _ rfl rfl (by decide) (by decide)
theorem stB8 (e : Enc) : Statement (.stB8 e) := of_word _ _ _ rfl rfl (by decide) (by decide)
theorem stB16 (e : Enc) : Statement (.stB16 e) := of_word _ _ _ rfl rfl (by decide) (by decide)
theorem stB32 (e : Enc) : Statement (.stB32 e) := of_word _ _ _ rfl rfl (by decide) (by decide)
theorem stB64 (e : Enc) : Statement (.stB64 e) := of_word _ _ _ rfl rfl (by decide) (by decide)
theorem stB128 (e : Enc) : Statement (.stB128 e) := of_word _ _ _ rfl rfl (by decide) (by decide)
theorem lddB32 (e : Enc) : Statement (.lddB32 e) := of_word _ _ _ rfl rfl (by decide) (by decide)
theorem lddB64 (e : Enc) : Statement (.lddB64 e) := of_word _ _ _ rfl rfl (by decide) (by decide)
theorem lddB128 (e : Enc) : Statement (.lddB128 e) := of_word _ _ _ rfl rfl (by decide) (by decide)
theorem stdB32 (e : Enc) : Statement (.stdB32 e) := of_word _ _ _ rfl rfl (by decide) (by decide)
theorem stdB64 (e : Enc) : Statement (.stdB64 e) := of_word _ _ _ rfl rfl (by decide) (by decide)
theorem stdB128 (e : Enc) : Statement (.stdB128 e) := of_word _ _ _ rfl rfl (by decide) (by decide)
theorem gldZ8 (e : Enc) : Statement (.gldZ8 e) := of_word _ _ _ rfl rfl (by decide) (by decide)
theorem gldB16 (e : Enc) : Statement (.gldB16 e) := of_word _ _ _ rfl rfl (by decide) (by decide)
theorem gldB32 (e : Enc) : Statement (.gldB32 e) := of_word _ _ _ rfl rfl (by decide) (by decide)
theorem gldB64 (e : Enc) : Statement (.gldB64 e) := of_word _ _ _ rfl rfl (by decide) (by decide)
theorem atomAddS32 (e : Enc) : Statement (.atomAddS32 e) := of_word _ _ _ rfl rfl (by decide) (by decide)
theorem atomMinS32 (e : Enc) : Statement (.atomMinS32 e) := of_word _ _ _ rfl rfl (by decide) (by decide)
theorem atomMaxS32 (e : Enc) : Statement (.atomMaxS32 e) := of_word _ _ _ rfl rfl (by decide) (by decide)
theorem atomAndB32 (e : Enc) : Statement (.atomAndB32 e) := of_word _ _ _ rfl rfl (by decide) (by decide)
theorem atomOrB32 (e : Enc) : Statement (.atomOrB32 e) := of_word _ _ _ rfl rfl (by decide) (by decide)
theorem atomXorB32 (e : Enc) : Statement (.atomXorB32 e) := of_word _ _ _ rfl rfl (by decide) (by decide)
theorem atomXchgB32 (e : Enc) : Statement (.atomXchgB32 e) := of_word _ _ _ rfl rfl (by decide) (by decide)
theorem atomCasB32 (e : Enc) : Statement (.atomCasB32 e) := of_word _ _ _ rfl rfl (by decide) (by decide)
theorem atomCasB64 (e : Enc) : Statement (.atomCasB64 e) := of_word _ _ _ rfl rfl (by decide) (by decide)
theorem atomAddF32 (e : Enc) : Statement (.atomAddF32 e) := of_word _ _ _ rfl rfl (by decide) (by decide)
theorem atomXadd (e : Enc) : Statement (.atomXadd e) := of_word _ _ _ rfl rfl (by decide) (by decide)
theorem atomBump (e : Enc) : Statement (.atomBump e) := of_word _ _ _ rfl rfl (by decide) (by decide)
theorem tagl (e : Enc) : Statement (.tagl e) := of_word _ _ _ rfl rfl (by decide) (by decide)
theorem tagi (e : Enc) : Statement (.tagi e) := of_word _ _ _ rfl rfl (by decide) (by decide)
theorem tage (e : Enc) : Statement (.tage e) := of_word _ _ _ rfl rfl (by decide) (by decide)
theorem cctl (e : Enc) : Statement (.cctl e) := of_word _ _ _ rfl rfl (by decide) (by decide)
theorem bld (e : Enc) : Statement (.bld e) := of_word _ _ _ rfl rfl (by decide) (by decide)
theorem bst (e : Enc) : Statement (.bst e) := of_word _ _ _ rfl rfl (by decide) (by decide)
theorem smpNear (e : Enc) : Statement (.smpNear e) := of_word _ _ _ rfl rfl (by decide) (by decide)
theorem smpBil (e : Enc) : Statement (.smpBil e) := of_word _ _ _ rfl rfl (by decide) (by decide)
theorem smpEpb (e : Enc) : Statement (.smpEpb e) := of_word _ _ _ rfl rfl (by decide) (by decide)
theorem vdec (e : Enc) : Statement (.vdec e) := of_word _ _ _ rfl rfl (by decide) (by decide)
theorem vdecq (e : Enc) : Statement (.vdecq e) := of_word _ _ _ rfl rfl (by decide) (by decide)
theorem ldt (e : Enc) : Statement (.ldt e) := of_word _ _ _ rfl rfl (by decide) (by decide)
theorem obres (e : Enc) : Statement (.obres e) := of_word _ _ _ rfl rfl (by decide) (by decide)
theorem obrel (e : Enc) : Statement (.obrel e) := of_word _ _ _ rfl rfl (by decide) (by decide)
theorem obld (e : Enc) : Statement (.obld e) := of_word _ _ _ rfl rfl (by decide) (by decide)
theorem obldt (e : Enc) : Statement (.obldt e) := of_word _ _ _ rfl rfl (by decide) (by decide)
theorem obq (e : Enc) : Statement (.obq e) := of_word _ _ _ rfl rfl (by decide) (by decide)
theorem mmaT8 (e : Enc) : Statement (.mmaT8 e) := of_word _ _ _ rfl rfl (by decide) (by decide)
theorem mmaT6 (e : Enc) : Statement (.mmaT6 e) := of_word _ _ _ rfl rfl (by decide) (by decide)
theorem mmaS8 (e : Enc) : Statement (.mmaS8 e) := of_word _ _ _ rfl rfl (by decide) (by decide)
theorem mmaBf16 (e : Enc) : Statement (.mmaBf16 e) := of_word _ _ _ rfl rfl (by decide) (by decide)
theorem mmaF16 (e : Enc) : Statement (.mmaF16 e) := of_word _ _ _ rfl rfl (by decide) (by decide)
theorem mmaT8s (e : Enc) : Statement (.mmaT8s e) := of_word _ _ _ rfl rfl (by decide) (by decide)
theorem mmaT6s (e : Enc) : Statement (.mmaT6s e) := of_word _ _ _ rfl rfl (by decide) (by decide)
theorem mmaxT8 (e : Enc) : Statement (.mmaxT8 e) := of_word _ _ _ rfl rfl (by decide) (by decide)
theorem mmaxT6 (e : Enc) : Statement (.mmaxT6 e) := of_word _ _ _ rfl rfl (by decide) (by decide)
theorem mmaxS8 (e : Enc) : Statement (.mmaxS8 e) := of_word _ _ _ rfl rfl (by decide) (by decide)
theorem xfixF32 (e : Enc) : Statement (.xfixF32 e) := of_word _ _ _ rfl rfl (by decide) (by decide)
theorem cpy4 (e : Enc) : Statement (.cpy4 e) := of_word _ _ _ rfl rfl (by decide) (by decide)
theorem cpy8 (e : Enc) : Statement (.cpy8 e) := of_word _ _ _ rfl rfl (by decide) (by decide)
theorem cpy16 (e : Enc) : Statement (.cpy16 e) := of_word _ _ _ rfl rfl (by decide) (by decide)
theorem cpyb (e : Enc) : Statement (.cpyb e) := of_word _ _ _ rfl rfl (by decide) (by decide)
theorem bins (e : Enc) : Statement (.bins e) := of_word _ _ _ rfl rfl (by decide) (by decide)
theorem mcast (e : Enc) : Statement (.mcast e) := of_word _ _ _ rfl rfl (by decide) (by decide)
theorem cpyp (e : Enc) : Statement (.cpyp e) := of_word _ _ _ rfl rfl (by decide) (by decide)
theorem erset (e : Enc) : Statement (.erset e) := of_word _ _ _ rfl rfl (by decide) (by decide)
theorem erprim (e : Enc) : Statement (.erprim e) := of_word _ _ _ rfl rfl (by decide) (by decide)
theorem erfetch (e : Enc) : Statement (.erfetch e) := of_word _ _ _ rfl rfl (by decide) (by decide)
theorem erflush (e : Enc) : Statement (.erflush e) := of_word _ _ _ rfl rfl (by decide) (by decide)
theorem ivmov (e : Enc) : Statement (.ivmov e) := of_word _ _ _ rfl rfl (by decide) (by decide)
theorem ivld (e : Enc) : Statement (.ivld e) := of_word _ _ _ rfl rfl (by decide) (by decide)
theorem ivrep (e : Enc) : Statement (.ivrep e) := of_word _ _ _ rfl rfl (by decide) (by decide)
theorem ivpos (e : Enc) : Statement (.ivpos e) := of_word _ _ _ rfl rfl (by decide) (by decide)
theorem ivcnt (e : Enc) : Statement (.ivcnt e) := of_word _ _ _ rfl rfl (by decide) (by decide)
theorem ivmask (e : Enc) : Statement (.ivmask e) := of_word _ _ _ rfl rfl (by decide) (by decide)
theorem ivsplit (e : Enc) : Statement (.ivsplit e) := of_word _ _ _ rfl rfl (by decide) (by decide)
theorem ivst (e : Enc) : Statement (.ivst e) := of_word _ _ _ rfl rfl (by decide) (by decide)
theorem imst (e : Enc) : Statement (.imst e) := of_word _ _ _ rfl rfl (by decide) (by decide)
theorem imstx (e : Enc) : Statement (.imstx e) := of_word _ _ _ rfl rfl (by decide) (by decide)
theorem symq (e : Enc) : Statement (.symq e) := of_word _ _ _ rfl rfl (by decide) (by decide)
theorem pmark (e : Enc) : Statement (.pmark e) := of_word _ _ _ rfl rfl (by decide) (by decide)
theorem smwait (e : Enc) : Statement (.smwait e) := of_word _ _ _ rfl rfl (by decide) (by decide)
theorem resq (e : Enc) : Statement (.resq e) := of_word _ _ _ rfl rfl (by decide) (by decide)
theorem spawn (e : Enc) : Statement (.spawn e) := of_word _ _ _ rfl rfl (by decide) (by decide)
theorem join (e : Enc) : Statement (.join e) := of_word _ _ _ rfl rfl (by decide) (by decide)
theorem qpop (e : Enc) : Statement (.qpop e) := of_word _ _ _ rfl rfl (by decide) (by decide)
theorem qpush (e : Enc) : Statement (.qpush e) := of_word _ _ _ rfl rfl (by decide) (by decide)
theorem pend (e : Enc) : Statement (.pend e) := of_word _ _ _ rfl rfl (by decide) (by decide)
theorem pcancel (e : Enc) : Statement (.pcancel e) := of_word _ _ _ rfl rfl (by decide) (by decide)
theorem prepeat (e : Enc) : Statement (.prepeat e) := of_word _ _ _ rfl rfl (by decide) (by decide)

end Sys2Proof.Laws.Encoding
end

