-- ==== Sys2Proof/Laws/Preds.lean ====
section
/-!
SUPPORT. What an instruction that writes predicates leaves: one lemma for the shared body.
-/

namespace Sys2Proof.Machine

theorem setPredBit_getLsbD (x : BitVec 8) (k j : Nat) (v : Bool) (hk : k < 8) (hj : j ≠ 0) :
    (setPredBit x k v).getLsbD j = if j = k then v else x.getLsbD j := by
  unfold setPredBit
  by_cases h0 : k = 0
  · subst h0; simp [hj]
  · by_cases hjk : j = k
    · subst hjk
      cases v <;> simp [h0, hk]
    · have hne : k ≤ j → j - k ≠ 0 := by omega
      by_cases hj8 : j < 8
      · cases v <;> simp [h0, hjk, hj8] <;> intros <;> omega
      · have hx : x.getLsbD j = false := BitVec.getLsbD_of_ge x j (by omega)
        cases v <;> simp [h0, hjk, hx, hj8]

theorem readP_writeP (g : Group) (k lane j lane' : Nat) (v : Bool) (hk : k < 8) :
    readP (writeP k lane v g) j lane' = if lane' = lane ∧ j = k ∧ k ≠ 0 then v else readP g j lane' := by
  unfold readP writeP
  by_cases hj : j = 0
  · subst hj
    have : ¬ (lane' = lane ∧ 0 = k ∧ k ≠ 0) := by omega
    rw [if_neg this]; rfl
  · have hb : (j == 0) = false := by simpa using hj
    simp only [hb, Bool.false_or]
    rw [cellGet_cellSet]
    by_cases hl : lane' = lane
    · subst hl
      rw [if_pos rfl, setPredBit_getLsbD _ _ _ _ hk hj]
      by_cases hjk : j = k
      · rw [if_pos hjk, if_pos ⟨rfl, hjk, by omega⟩]
      · rw [if_neg hjk, if_neg (by tauto)]
    · rw [if_neg hl, if_neg (by tauto)]

theorem readQ_writeQ (g : Group) (k j : Nat) (v : Bool) (hk : k < 8) :
    readQ (writeQ k v g) j = if j = k ∧ k ≠ 0 then v else readQ g j := by
  unfold readQ writeQ
  by_cases hj : j = 0
  · subst hj
    have : ¬ (0 = k ∧ k ≠ 0) := by omega
    rw [if_neg this]; rfl
  · have hb : (j == 0) = false := by simpa using hj
    simp only [hb, Bool.false_or]
    rw [setPredBit_getLsbD _ _ _ _ hk hj]
    by_cases hjk : j = k
    · rw [if_pos hjk, if_pos ⟨hjk, by omega⟩]
    · rw [if_neg hjk, if_neg (by tauto)]

theorem readP_writePredPair (g : Group) (pd lane j lane' : Nat) (v : Bool) (hpd : pd < 8) :
    readP (writePredPair pd lane v g) j lane' =
      if lane' = lane ∧ pd ≠ 0 ∧ j = pd then v
      else if lane' = lane ∧ pd ≠ 0 ∧ pd % 2 = 0 ∧ j = pd + 1 then !v else readP g j lane' := by
  unfold writePredPair
  by_cases hp : pd % 2 = 0 ∧ pd ≠ 0
  · have : (decide (pd % 2 = 0) && decide (pd ≠ 0)) = true := by simpa using hp
    simp only [this, if_true]
    rw [readP_writeP _ _ _ _ _ _ (by omega), readP_writeP _ _ _ _ _ _ hpd]
    by_cases h1 : lane' = lane ∧ j = pd + 1
    · rw [if_pos (by omega), if_neg (by omega), if_pos (by omega)]
    · rw [if_neg (by omega)]
      by_cases h2 : lane' = lane ∧ j = pd
      · rw [if_pos (by omega), if_pos (by omega)]
      · rw [if_neg (by omega), if_neg (by omega), if_neg (by omega)]
  · have : (decide (pd % 2 = 0) && decide (pd ≠ 0)) = false := by simpa using hp
    simp only [this, Bool.false_eq_true, if_false]
    rw [readP_writeP _ _ _ _ _ _ hpd]
    by_cases h2 : lane' = lane ∧ j = pd ∧ pd ≠ 0
    · rw [if_pos h2, if_pos (by omega)]
    · rw [if_neg h2, if_neg (by omega), if_neg (by omega)]

theorem readQ_writeQPair (g : Group) (pd j : Nat) (v : Bool) (hpd : pd < 8) :
    readQ (writeQPair pd v g) j =
      if pd ≠ 0 ∧ j = pd then v else if pd ≠ 0 ∧ pd % 2 = 0 ∧ j = pd + 1 then !v else readQ g j := by
  unfold writeQPair
  by_cases hp : pd % 2 = 0 ∧ pd ≠ 0
  · have : (decide (pd % 2 = 0) && decide (pd ≠ 0)) = true := by simpa using hp
    simp only [this, if_true]
    rw [readQ_writeQ _ _ _ _ (by omega), readQ_writeQ _ _ _ _ hpd]
    by_cases h1 : j = pd + 1
    · rw [if_pos (by omega), if_neg (by omega), if_pos (by omega)]
    · rw [if_neg (by omega)]
      by_cases h2 : j = pd
      · rw [if_pos (by omega), if_pos (by omega)]
      · rw [if_neg (by omega), if_neg (by omega), if_neg (by omega)]
  · have : (decide (pd % 2 = 0) && decide (pd ≠ 0)) = false := by simpa using hp
    simp only [this, Bool.false_eq_true, if_false]
    rw [readQ_writeQ _ _ _ _ hpd]
    by_cases h2 : j = pd ∧ pd ≠ 0
    · rw [if_pos h2, if_pos (by omega)]
    · rw [if_neg h2, if_neg (by omega), if_neg (by omega)]

theorem writePredPair_rest (pd lane : Nat) (v : Bool) (g : Group) :
    writePredPair pd lane v g = { g with preds := (writePredPair pd lane v g).preds } := by
  unfold writePredPair; simp only; split <;> rfl

theorem writeQPair_rest (pd : Nat) (v : Bool) (g : Group) :
    writeQPair pd v g = { g with qpreds := (writeQPair pd v g).qpreds } := by
  unfold writeQPair; simp only; split <;> rfl

/-- What a loop of predicate writes leaves. -/
theorem foldl_preds (pd : Nat) (hpd : pd < 8) (f : Nat → Bool × Flags) (lanes : List Nat) (hn : lanes.Nodup) (g : Group) :
    let g' := lanes.foldl (fun acc i => mergeFlags (f i).2 (writePredPair pd i (f i).1 acc)) g
    (∀ k lane, readP g' k lane =
      if lane ∈ lanes ∧ pd ≠ 0 ∧ k = pd then (f lane).1
      else if lane ∈ lanes ∧ pd ≠ 0 ∧ pd % 2 = 0 ∧ k = pd + 1 then !(f lane).1 else readP g k lane) ∧
    g'.fsr = flagsAfter (lanes.map fun l => (f l).2) g.fsr ∧
    g' = { g with preds := g'.preds, fsr := g'.fsr } := by
  induction lanes generalizing g with
  | nil => exact ⟨fun k lane => by simp, rfl, rfl⟩
  | cons i rest ih =>
    rw [List.nodup_cons] at hn
    have h := ih hn.2 (mergeFlags (f i).2 (writePredPair pd i (f i).1 g))
    simp only [List.foldl_cons]
    obtain ⟨h1, h2, h3⟩ := h
    refine ⟨?_, ?_, ?_⟩
    · intro k lane
      rw [h1 k lane]
      have hm : ∀ x : Group, readP (mergeFlags (f i).2 x) k lane = readP x k lane := fun _ => rfl
      rw [hm, readP_writePredPair _ _ _ _ _ _ hpd]
      by_cases hc : lane = i
      · subst hc
        have hnot : ¬ lane ∈ rest := hn.1
        simp [hnot]
      · simp [hc]
    · rw [h2]
      have : (mergeFlags (f i).2 (writePredPair pd i (f i).1 g)).fsr = g.fsr ||| (f i).2 := by
        rw [writePredPair_rest]; rfl
      rw [this]
      rfl
    · rw [h3]
      conv_rhs => rw [h3]
      rw [writePredPair_rest]
      rfl

theorem preds_slices {x y : Group} (h : y = { x with preds := y.preds, fsr := y.fsr }) (l : List Slice) :
    ({ y with slices := l } : Group) = { x with preds := y.preds, fsr := y.fsr, slices := l } := by
  cases x; cases y; simp only [Group.mk.injEq] at h ⊢; simp [h]

theorem qpreds_slices {x y : Group} (h : y = { x with qpreds := y.qpreds, fsr := y.fsr }) (l : List Slice) :
    ({ y with slices := l } : Group) = { x with qpreds := y.qpreds, fsr := y.fsr, slices := l } := by
  cases x; cases y; simp only [Group.mk.injEq] at h ⊢; simp [h]

theorem lanePred_intro {s : State} (h : Issues s) (len : Nat) (lanes : LaneMask) (pd : Nat) (hpd : pd < 8) (f : Nat → Bool × Flags) :
    LanePred s (advance len (modCur s fun g =>
      (laneList lanes).foldl (fun acc i => mergeFlags (f i).2 (writePredPair pd i (f i).1 acc)) g)) len lanes pd f := by
  obtain ⟨h1, h2, h3⟩ := foldl_preds pd hpd f (laneList lanes) (laneList_nodup lanes) (curGroup s)
  set F : Group → Group := fun g =>
    (laneList lanes).foldl (fun acc i => mergeFlags (f i).2 (writePredPair pd i (f i).1 acc)) g with hF
  have hs : (F (curGroup s)).slices = (curGroup s).slices := by rw [hF]; simpa using congrArg Group.slices h3
  have hg : curGroup (advance len (modCur s F)) =
      modSlices (F (curGroup s)) (curSlices s) fun sl => { sl with pc := sl.pc + BitVec.ofNat 57 len } := by
    rw [advance_modCur h len F hs, curGroup_modCur h]
  have hv : ∀ k lane, readP (curGroup (advance len (modCur s F))) k lane = readP (F (curGroup s)) k lane := by
    intro k lane; rw [hg]; rfl
  have ho := advance_modCur_only h len F hs
  refine ⟨?_, ?_, ?_, ?_, advanced_modCur h len F hs, ?_, ho.1, ho.2⟩
  · intro lane hlane hm h0
    rw [hv, h1 pd lane, if_pos ⟨(mem_laneList lanes lane).mpr ⟨hlane, hm⟩, h0, rfl⟩]
  · intro lane hlane hm hev h0
    rw [hv, h1 (pd + 1) lane, if_neg (by omega), if_pos ⟨(mem_laneList lanes lane).mpr ⟨hlane, hm⟩, h0, hev, rfl⟩]
  · intro k lane hlane hc
    rw [hv, h1 k lane, if_neg, if_neg]
    · intro hc'
      exact hc ⟨((mem_laneList lanes lane).mp hc'.1).2, hc'.2.1, Or.inr ⟨hc'.2.2.1, hc'.2.1, hc'.2.2.2⟩⟩
    · intro hc'
      exact hc ⟨((mem_laneList lanes lane).mp hc'.1).2, hc'.2.1, Or.inl hc'.2.2⟩
  · rw [hg]
    exact h2
  · rw [hg]
    exact preds_slices h3 _

theorem groupPred_intro {s : State} (h : Issues s) (len : Nat) (q : Bool) (pd : Nat) (hpd : pd < 8) (r : Bool × Flags) :
    GroupPred s (advance len (modCur s fun g => if q then mergeFlags r.2 (writeQPair pd r.1 g) else g)) len q pd r := by
  set F : Group → Group := fun g => if q then mergeFlags r.2 (writeQPair pd r.1 g) else g with hF
  have h3 : F (curGroup s) = { curGroup s with qpreds := (F (curGroup s)).qpreds, fsr := (F (curGroup s)).fsr } := by
    cases q
    · rfl
    · simp only [hF, if_true]
      rw [writeQPair_rest]
      rfl
  have hs : (F (curGroup s)).slices = (curGroup s).slices := by simpa using congrArg Group.slices h3
  have hg : curGroup (advance len (modCur s F)) =
      modSlices (F (curGroup s)) (curSlices s) fun sl => { sl with pc := sl.pc + BitVec.ofNat 57 len } := by
    rw [advance_modCur h len F hs, curGroup_modCur h]
  have hv : ∀ k, readQ (curGroup (advance len (modCur s F))) k = readQ (F (curGroup s)) k := by
    intro k; rw [hg]; rfl
  have hq : q = true → ∀ k, readQ (F (curGroup s)) k = readQ (writeQPair pd r.1 (curGroup s)) k := by
    intro hq k; simp only [hF, hq, if_true]; rfl
  have ho := advance_modCur_only h len F hs
  refine ⟨?_, ?_, ?_, ?_, advanced_modCur h len F hs, ?_, ho.1, ho.2⟩
  · intro hq1 h0
    rw [hv, hq hq1, readQ_writeQPair _ _ _ _ hpd, if_pos ⟨h0, rfl⟩]
  · intro hq1 hev h0
    rw [hv, hq hq1, readQ_writeQPair _ _ _ _ hpd, if_neg (by omega), if_pos ⟨h0, hev, rfl⟩]
  · intro k hc
    rw [hv]
    cases hq0 : q
    · simp [hF, hq0]
    · rw [hq hq0, readQ_writeQPair _ _ _ _ hpd, if_neg, if_neg]
      · intro hc'
        exact hc ⟨hq0, hc'.1, Or.inr ⟨hc'.2.1, hc'.1, hc'.2.2⟩⟩
      · intro hc'
        exact hc ⟨hq0, hc'.1, Or.inl hc'.2⟩
  · rw [hg]
    show (F (curGroup s)).fsr = _
    cases hq0 : q
    · simp [hF, hq0]
    · simp only [hF, hq0, if_true]
      rw [writeQPair_rest]
      rfl
  · rw [hg]
    exact qpreds_slices h3 _

/-- All that `predBody` does. -/
theorem predBody_result {s : State} (h : Issues s) (e : Enc) (f : Group → Nat → Bool × Flags) :
    Predicate e f s (predBody e f s) := by
  have hpd : cmpPd e < 8 := Nat.mod_lt _ (by decide)
  unfold Predicate predBody
  cases hu : e.u
  · simp only [Bool.false_eq_true, if_false]
    have hc : (modCur s fun _ => (laneList (actLanes e s)).foldl (predLane (cmpPd e) f (curGroup s)) (curGroup s)) = modCur s fun g =>
        (laneList (actLanes e s)).foldl (fun acc i => mergeFlags (f (curGroup s) i).2 (writePredPair (cmpPd e) i (f (curGroup s) i).1 acc)) g :=
      modCur_congr s rfl
    rw [hc]
    exact lanePred_intro h (wordLen e) (actLanes e s) (cmpPd e) hpd (f (curGroup s))
  · simp only [if_true]
    have hc : (modCur s fun _ => if qGuard e s then mergeFlags (f (curGroup s) 0).2 (writeQPair (cmpPd e) (f (curGroup s) 0).1 (curGroup s))
          else curGroup s) = modCur s fun g =>
        if qGuard e s then mergeFlags (f (curGroup s) 0).2 (writeQPair (cmpPd e) (f (curGroup s) 0).1 g) else g :=
      modCur_congr s rfl
    rw [hc]
    exact groupPred_intro h (wordLen e) (qGuard e s) (cmpPd e) hpd (f (curGroup s) 0)

/-- An instruction of a form over `predBody` decides. -/
theorem decides_predBody {i : Instr} {f : Form} {extra : Bool} {e : Enc} {r : Group → Nat → Bool × Flags}
    (hi : ∀ s, exec i s = runForm f extra e (predBody e r) s) : Decides i f extra e r := by
  intro s hs
  exact ⟨_, by rw [hi, runForm_legal hs], predBody_result hs.1 e r⟩

end Sys2Proof.Machine
end

