-- ==== Sys2Proof/Tests/Slice0.lean ====
section
/-!
SUPPORT. Tests: words of the opcode map decode to their instructions, ill-formed terms are refused, and single steps on small states give the
values the rules give by hand. The words are those of R79's map with rd = 4, ra = 5, rb = 6, guard 1 and U 0, and those the spec's examples
print; the values are worked from the rules named.
-/

namespace Sys2Proof.Tests

open Sys2Proof Sys2Proof.Machine

set_option maxRecDepth 20000
set_option Elab.async false

/-! ### Decoding (R61, R64, R71, R74, R77 to R80) -/

/-- Words whose fields are rd = 4, ra = 5, rb = 6, guard 1, U 0 decode to the instructions beside them. -/
noncomputable def decodes (l : List (Nat × (Enc → Instr))) : Bool := l.all fun x => decide (decodeTableWord 32 x.1 = some (x.2 ⟨none, 6, 5, 4, 1, false⟩))

/-- Compact words whose fields are rs = 17, rd = 9, guarded. -/
noncomputable def decodesCmp (l : List (Nat × (Cmp → Instr))) : Bool := l.all fun x => decide (decodeTableWord 16 x.1 = some (x.2 ⟨17, 9, true⟩))

theorem test_decode_compact : decodesCmp
  [(0x8A60, .compactMov), (0x8A62, .compactAddS32), (0x8A64, .compactSubS32), (0x8A66, .compactAnd), (0x8A68, .compactOr),
   (0x8A6A, .compactXor), (0x8A6C, .compactShl), (0x8A6E, .compactShrZ32), (0x8A70, .compactAddi), (0x8A72, .compactLi),
   (0x8A74, .compactFaddF32), (0x8A76, .compactFsubF32), (0x8A78, .compactFmulF32), (0x8A7A, .compactFminF32),
   (0x8A7C, .compactFmaxF32), (0x8A7E, .compactMulloB32)] = true := by decide +kernel

theorem test_decode_integer : decodes
  [(0x18510801, .addS32), (0x18510803, .addsS32), (0x18510805, .subS32), (0x18510807, .subsS32), (0x18510809, .mulloB32),
   (0x1851080B, .mulhiS32), (0x1851080D, .mulhiZ32), (0x1851080F, .madB32), (0x18510811, .divS32), (0x18510813, .divZ32),
   (0x18510815, .remS32), (0x18510817, .remZ32), (0x18510819, .minS32), (0x1851081B, .maxS32), (0x1851081D, .minZ32),
   (0x1851081F, .maxZ32), (0x18510821, .and), (0x18510823, .or), (0x18510825, .xor), (0x18510827, .andn), (0x18510829, .shl),
   (0x1851082B, .shrZ32), (0x1851082D, .shrS32), (0x1851082F, .rotl), (0x18510831, .addi), (0x18510833, .shli),
   (0x18510835, .shriZ32), (0x18510837, .shriS32), (0x18510839, .andi), (0x1851083B, .li), (0x1851083D, .lih), (0x1851083F, .not),
   (0x18510841, .neg), (0x18510843, .absS32), (0x18510845, .clzB32), (0x18510847, .ctzB32), (0x18510849, .popcB32),
   (0x1851084B, .brevB32), (0x1851084D, .bfxZ32), (0x1851084F, .bfxS32), (0x18510851, .bfi), (0x18510853, .prmt), (0x18510855, .ilv2),
   (0x18510857, .ilv3), (0x18510859, .dlv2), (0x1851085B, .dlv3), (0x1851085D, .clzxB32), (0x1851085F, .clzB64),
   (0x18510861, .addB64), (0x18510863, .subB64), (0x18510865, .adda), (0x18510867, .mulwS32), (0x18510869, .icmpS32),
   (0x1851086B, .icmpZ32), (0x1851086D, .sel), (0x1851086F, .plop), (0x18510871, .p2r), (0x18510873, .r2p), (0x18510875, .mov),
   (0x18510877, .movl), (0x18510879, .movs), (0x1851087B, .movsw), (0x1851087D, .ccnt), (0x1851087F, .nop)] = true := by decide +kernel

theorem test_decode_float : decodes
  [(0x18510901, .faddF32), (0x18510903, .fsubF32), (0x18510905, .fmulF32), (0x18510907, .ffmaF32), (0x18510909, .fminF32),
   (0x1851090B, .fmaxF32), (0x1851090D, .fcmpF32), (0x1851090F, .fabsF32), (0x18510911, .fnegF32), (0x18510913, .fdivF32),
   (0x18510915, .frcpF32), (0x18510917, .fsqrtF32), (0x18510919, .frsqF32), (0x1851091B, .fexp2F32), (0x1851091D, .flog2F32),
   (0x1851091F, .fsinpiF32), (0x18510921, .fcospiF32), (0x18510923, .frndF32), (0x18510925, .hadd2F16), (0x18510927, .hadd2Bf16),
   (0x18510929, .hmul2F16), (0x1851092B, .hmul2Bf16), (0x1851092D, .hfma2F16), (0x1851092F, .hfma2Bf16), (0x18510931, .daddF64),
   (0x18510933, .dmulF64), (0x18510935, .dfmaF64), (0x18510937, .dcmpF64), (0x18510939, .cvtF32S32), (0x1851093B, .cvtF32Z32),
   (0x1851093D, .cvtS32F32), (0x1851093F, .cvtZ32F32), (0x18510941, .cvtF16x2F32), (0x18510943, .cvtBf16x2F32),
   (0x18510945, .cvtF32F16), (0x18510947, .cvtF32Bf16), (0x18510949, .cvtF64F32), (0x1851094B, .cvtF32F64), (0x1851094D, .cvtT8x4F32),
   (0x1851094F, .cvtT6x16F32), (0x18510951, .cvtF32T8), (0x18510953, .cvtF32T6), (0x18510955, .scalexT8), (0x18510957, .scalexT6),
   (0x18510959, .cvtN8x4F32), (0x1851095B, .cvtF32N8), (0x1851095D, .shflIdx), (0x1851095F, .shflXor), (0x18510961, .shflUp),
   (0x18510963, .shflDown), (0x18510965, .voteAny), (0x18510967, .voteAll), (0x18510969, .ballot), (0x1851096B, .matchLanes),
   (0x1851096D, .reduceAddS32), (0x1851096F, .reduceMinS32), (0x18510971, .reduceMaxS32), (0x18510973, .reduceAddF32),
   (0x18510975, .scanAddS32), (0x18510977, .scanAddF32), (0x18510979, .xclr), (0x1851097B, .xaccF32), (0x1851097D, .xmacF32),
   (0x1851097F, .xaccX320), (0x18510981, .xrndF32), (0x18510983, .xred)] = true := by decide +kernel

theorem test_decode_control : decodes
  [(0x18510A01, .bra), (0x18510A03, .brd), (0x18510A05, .reconv), (0x18510A07, .regang), (0x18510A09, .part), (0x18510A0B, .jmpr),
   (0x18510A0D, .call), (0x18510A0F, .callr), (0x18510A11, .ret), (0x18510A13, .exit), (0x18510A15, .barInit), (0x18510A17, .barArv),
   (0x18510A19, .barWait), (0x18510A1B, .barSync), (0x18510A1D, .barQry), (0x18510A1F, .waitc), (0x18510A21, .waitr),
   (0x18510A23, .yield), (0x18510A25, .fence), (0x18510A27, .qfence), (0x18510A29, .trap), (0x18510A2B, .bkpt), (0x18510A2D, .rte)] = true := by decide +kernel

theorem test_decode_memory : decodes
  [(0x18510B01, .ldZ8), (0x18510B03, .ldS8), (0x18510B05, .ldZ16), (0x18510B07, .ldS16), (0x18510B09, .ldB32), (0x18510B0B, .ldB64),
   (0x18510B0D, .ldB128), (0x18510B0F, .stB8), (0x18510B11, .stB16), (0x18510B13, .stB32), (0x18510B15, .stB64),
   (0x18510B17, .stB128), (0x18510B19, .lddB32), (0x18510B1B, .lddB64), (0x18510B1D, .lddB128), (0x18510B1F, .stdB32),
   (0x18510B21, .stdB64), (0x18510B23, .stdB128), (0x18510B25, .gldZ8), (0x18510B27, .gldB16), (0x18510B29, .gldB32),
   (0x18510B2B, .gldB64), (0x18510B2D, .atomAddS32), (0x18510B2F, .atomMinS32), (0x18510B31, .atomMaxS32), (0x18510B33, .atomAndB32),
   (0x18510B35, .atomOrB32), (0x18510B37, .atomXorB32), (0x18510B39, .atomXchgB32), (0x18510B3B, .atomCasB32),
   (0x18510B3D, .atomCasB64), (0x18510B3F, .atomAddF32), (0x18510B41, .atomXadd), (0x18510B43, .atomBump), (0x18510B45, .tagl),
   (0x18510B47, .tagi), (0x18510B49, .tage), (0x18510B4B, .cctl)] = true := by decide +kernel

theorem test_decode_conversion : decodes
  [(0x18510B4D, .bld), (0x18510B4F, .bst), (0x18510B51, .smpNear), (0x18510B53, .smpBil), (0x18510B55, .smpEpb), (0x18510B57, .vdec),
   (0x18510B59, .vdecq), (0x18510B5B, .ldt)] = true := by decide +kernel

theorem test_decode_matrix : decodes
  [(0x18510B61, .obres), (0x18510B63, .obrel), (0x18510B65, .obld), (0x18510B67, .obldt), (0x18510B69, .obq), (0x18510B6B, .mmaT8),
   (0x18510B6D, .mmaT6), (0x18510B6F, .mmaS8), (0x18510B71, .mmaBf16), (0x18510B73, .mmaF16), (0x18510B75, .mmaT8s),
   (0x18510B77, .mmaT6s), (0x18510B79, .mmaxT8), (0x18510B7B, .mmaxT6), (0x18510B7D, .mmaxS8), (0x18510B7F, .xfixF32)] = true := by decide +kernel

theorem test_decode_transfer : decodes
  [(0x18510B91, .cpy4), (0x18510B93, .cpy8), (0x18510B95, .cpy16), (0x18510B97, .cpyb), (0x18510B99, .bins), (0x18510B9B, .mcast),
   (0x18510B9D, .cpyp)] = true := by decide +kernel

theorem test_decode_raster : decodes
  [(0x18510BB1, .erset), (0x18510BB3, .erprim), (0x18510BB5, .erfetch), (0x18510BB7, .erflush), (0x18510BB9, .ivmov),
   (0x18510BBB, .ivld), (0x18510BBD, .ivrep), (0x18510BBF, .ivpos), (0x18510BC1, .ivcnt), (0x18510BC3, .ivmask),
   (0x18510BC5, .ivsplit), (0x18510BC7, .ivst)] = true := by decide +kernel

theorem test_decode_tier : decodes
  [(0x18510BD1, .imst), (0x18510BD3, .imstx), (0x18510BD5, .symq), (0x18510BE1, .pmark), (0x18510BE3, .smwait), (0x18510BE5, .resq),
   (0x18510BF1, .spawn), (0x18510BF3, .join), (0x18510BF5, .qpop), (0x18510BF7, .qpush), (0x18510BF9, .pend), (0x18510BFB, .pcancel),
   (0x18510BFD, .prepeat)] = true := by decide +kernel

/-- Words of the spec's examples, 32 bits each. -/
noncomputable def decodesTo (l : List (Nat × Instr)) : Bool := l.all fun x => decide (decodeTableWord 32 x.1 = some x.2)

/-- An extended word after its XP, at the start of a block. -/
noncomputable def decodesPair (l : List (Nat × Nat × Instr)) : Bool := l.all fun x => decide (decodeTableWord 64 (x.1 + 2 ^ 32 * x.2.1) = some x.2.2)

/-- The examples of "Encoding" to "Pier memory access". -/
theorem test_decode_examples_pier : decodesTo
  [(0x18510011, .divS32 ⟨none, 6, 5, 4, 0, false⟩), (0x10348069, .icmpS32 ⟨none, 4, 3, 18, 0, false⟩),
   (0x0000C079, .movs ⟨none, 0, 0, 3, 0, false⟩), (0x1C61815F, .shflXor ⟨none, 7, 6, 6, 0, false⟩),
   (0xFFFE0201, .bra ⟨none, 63, 63, 56, 0, false⟩), (0x0020021B, .barSync ⟨none, 0, 2, 0, 0, false⟩),
   (0x0B200215, .barInit ⟨none, 2, 50, 0, 0, false⟩), (0x0011021D, .barQry ⟨none, 0, 1, 4, 0, false⟩),
   (0xFFFE421F, .waitc ⟨none, 63, 63, 57, 0, false⟩), (0x08500621, .waitr ⟨none, 2, 5, 0, 0, true⟩),
   (0x00500229, .trap ⟨none, 0, 5, 0, 0, false⟩), (0x00E00225, .fence ⟨none, 0, 14, 0, 0, false⟩),
   (0x00000213, .exit ⟨none, 0, 0, 0, 0, false⟩), (0xF821030B, .ldB64 ⟨none, 62, 2, 4, 0, false⟩),
   (0x0862031D, .lddB128 ⟨none, 2, 6, 8, 0, false⟩), (0x00C28329, .gldB32 ⟨none, 0, 12, 10, 0, false⟩),
   (0x0421833B, .atomCasB32 ⟨none, 1, 2, 6, 0, false⟩), (0x00224345, .tagl ⟨none, 0, 2, 9, 0, false⟩),
   (0x0020034B, .cctl ⟨none, 0, 2, 0, 0, false⟩)] = true := by decide +kernel

/-- R28's worked encodings: `(p2) FFMA.f32 v8, v9, v10` and `ADD.s32 v3, v3, v7`, which is the compact word of the same fields. -/
theorem test_decode_worked :
    decodeTableWord 32 0x28921107 = some (.ffmaF32 ⟨none, 10, 9, 8, 2, false⟩) ∧
    decodeTableWord 16 0x38C2 = some (.compactAddS32 ⟨7, 3, false⟩) := by decide +kernel

/-- R28: of its worked encodings the first stays a word; the second is short under `.compact on`, and not with another first source, with v32,
with the guard p2, with U, with a prefix or under `.compact off`. The least and the greatest immediate of ADDI and LI are short, the next are not. -/
theorem test_compact_choice :
    let add (e : Enc) : Shape := assembled true (.word 0x000 e)
    shapeBytes (assembled true (.word 0x083 ⟨none, 10, 9, 8, 2, false⟩)) = wordBytes 0x28921107 ∧
    shapeBytes (add ⟨none, 7, 3, 3, 0, false⟩) = halfBytes 0x38C2 ∧ add ⟨none, 7, 3, 3, 1, false⟩ = .compact 1 ⟨7, 3, true⟩ ∧
    (∀ e ∈ [(⟨none, 7, 4, 3, 0, false⟩ : Enc), ⟨none, 32, 3, 3, 0, false⟩, ⟨none, 7, 32, 32, 0, false⟩, ⟨none, 7, 3, 3, 2, false⟩,
      ⟨none, 7, 3, 3, 0, true⟩, ⟨some 0, 7, 3, 3, 0, false⟩], add e = .word 0x000 e) ∧
    assembled false (.word 0x000 ⟨none, 7, 3, 3, 0, false⟩) = .word 0x000 ⟨none, 7, 3, 3, 0, false⟩ ∧
    assembled true (.word 0x018 ⟨none, 48, 3, 3, 0, false⟩) = .compact 8 ⟨16, 3, false⟩ ∧
    assembled true (.word 0x018 ⟨none, 16, 3, 3, 0, false⟩) = .word 0x018 ⟨none, 16, 3, 3, 0, false⟩ ∧
    assembled true (.word 0x01D ⟨none, 0, 15, 3, 0, false⟩) = .compact 9 ⟨15, 3, false⟩ ∧
    assembled true (.word 0x01D ⟨none, 63, 47, 3, 0, false⟩) = .word 0x01D ⟨none, 63, 47, 3, 0, false⟩ ∧
    assembled true (.word 0x03A ⟨none, 0, 5, 3, 0, false⟩) = .compact 0 ⟨5, 3, false⟩ := by decide +kernel

/-- The examples of the engines. -/
theorem test_decode_examples_engines : decodesTo
  [(0x20218391, .cpy4 ⟨none, 8, 2, 6, 0, false⟩), (0x000107B1, .erset ⟨none, 0, 0, 4, 0, true⟩),
   (0x006007B3, .erprim ⟨none, 0, 6, 0, 0, true⟩), (0x008047B3, .erprim ⟨none, 0, 8, 1, 0, true⟩),
   (0x000203B5, .erfetch ⟨none, 0, 0, 8, 0, false⟩), (0x000007B7, .erflush ⟨none, 0, 0, 0, 0, true⟩),
   (0x000403B9, .ivmov ⟨none, 0, 0, 16, 0, false⟩), (0x050003BB, .ivld ⟨none, 1, 16, 0, 0, false⟩),
   (0x005103BD, .ivrep ⟨none, 0, 5, 4, 0, false⟩), (0x007183BF, .ivpos ⟨none, 0, 7, 6, 0, false⟩),
   (0x000243C1, .ivcnt ⟨none, 0, 0, 9, 0, false⟩), (0x00A003C3, .ivmask ⟨none, 0, 10, 0, 0, false⟩),
   (0x0070C3C5, .ivsplit ⟨none, 0, 7, 3, 0, false⟩), (0x148303C7, .ivst ⟨none, 5, 8, 12, 0, false⟩),
   (0x0C8103D5, .symq ⟨none, 3, 8, 4, 0, false⟩), (0x4C8103D5, .symq ⟨none, 19, 8, 4, 0, false⟩)] = true := by decide +kernel

/-- The examples with a prefix: its payload is the XP's [31:10]. -/
theorem test_decode_examples_extended : decodesPair
  [(0x011183FF, 0x10308053, .prmt ⟨some 0x4460, 4, 3, 2, 0, false⟩), (0x024583FF, 0x28920107, .ffmaF32 ⟨some 0x9160, 10, 9, 8, 0, false⟩),
   (0x038003FF, 0x0821C313, .stB32 ⟨some 0xE000, 2, 2, 7, 0, false⟩), (0x010103FF, 0x148303C7, .ivst ⟨some 0x4040, 5, 8, 12, 0, false⟩)] = true :=
  by decide +kernel

/-- A reserved opcode (R80), an XP by itself, two XPs, and an XP before WAITC (R74). -/
theorem test_decode_no_instruction :
    decodeTableWord 32 0x00000081 = some (.reservedOpcodeWord 0x040 ⟨none, 0, 0, 0, 0, false⟩) ∧
    decodeTableWord 32 0x000003FF = some (.xp 0) ∧
    decodeTableWord 64 (0x000007FF + 2 ^ 32 * 0x000003FF) = some (.xp 1) ∧
    decodeTableWord 64 (0x000003FF + 2 ^ 32 * 0xFFFE421F) = some (.xp 0) := by decide +kernel

/-- The pair of an XP and its word does not cross the end of a block; a plain word may (R62, R74). -/
theorem test_decode_places :
    decode 56 (encode (.prmt ⟨some 0x4460, 4, 3, 2, 0, false⟩)) = .ok (.prmt ⟨some 0x4460, 4, 3, 2, 0, false⟩, 8) ∧
    decode 58 (encode (.prmt ⟨some 0x4460, 4, 3, 2, 0, false⟩)) = .ok (.xp 0x4460, 4) ∧
    decode 62 (encode (.nop ⟨none, 0, 0, 0, 0, false⟩)) = .ok (.nop ⟨none, 0, 0, 0, 0, false⟩, 4) ∧
    decode 1 [0, 0] = .error .misaligned ∧ decode 0 [1, 0] = .error .truncated := by decide +kernel

/-- The encoder writes the words of the examples. -/
theorem test_encode_examples :
    encode (.divS32 ⟨none, 6, 5, 4, 0, false⟩) = [0x11, 0x00, 0x51, 0x18] ∧
    encode (.stB32 ⟨some 0xE000, 2, 2, 7, 0, false⟩) = [0xFF, 0x03, 0x80, 0x03, 0x13, 0xC3, 0x21, 0x08] ∧
    encode (.compactMov ⟨17, 9, true⟩) = [0x60, 0x8A] := by decide +kernel

/-! ### Well-formed terms -/

/-- Each check refuses a term beyond its limit and lets the limit's last term through. -/
def refuses (l : List (Instr × Instr)) : Bool := l.all fun x => wellFormed x.1 && !wellFormed x.2

theorem test_wellFormed_code : refuses
  [(.waitc ⟨none, 0, 0, 0, 0, false⟩, .waitc ⟨some 0, 0, 0, 0, 0, false⟩),
   (.reservedOpcodeWord 0x040 ⟨none, 0, 0, 0, 0, false⟩, .reservedOpcodeWord 0x03F ⟨none, 0, 0, 0, 0, false⟩)] = true := by decide +kernel

theorem test_wellFormed_piers : refuses
  [(.matrixEntryStart 255, .matrixEntryStart 256), (.matrixEntryComplete 255, .matrixEntryComplete 256),
   (.rasterPrimitive 255, .rasterPrimitive 256), (.erfetchComplete 255, .erfetchComplete 256), (.ivstPerform 255, .ivstPerform 256),
   (.erflushComplete 255, .erflushComplete 256), (.imageEntryComplete 255, .imageEntryComplete 256)] = true := by decide +kernel

theorem test_wellFormed_queues : refuses
  [(.transferOpStart 0 3, .transferOpStart 0 4), (.transferOpComplete 0 3, .transferOpComplete 0 4), (.mcastComplete 0 3, .mcastComplete 0 4),
   (.qdescCreate 4095 0, .qdescCreate 4096 0), (.qdescDestroyDrain 4095, .qdescDestroyDrain 4096),
   (.qdescDestroyAbort 4095, .qdescDestroyAbort 4096), (.qdescDestroyAbortKill 4095, .qdescDestroyAbortKill 4096),
   (.doorbellWrite 4095 0, .doorbellWrite 4096 0)] = true := by decide +kernel

theorem test_wellFormed_slots : refuses
  [(.launchPacket 127, .launchPacket 128), (.waitPacket 127, .waitPacket 128), (.waitReread 127, .waitReread 128),
   (.signalPacket 127, .signalPacket 128), (.fencePacket 127, .fencePacket 128), (.tablePacket 127, .tablePacket 128),
   (.nopPacket 127, .nopPacket 128), (.slotbWrite 127 0, .slotbWrite 128 0), (.slotiClear 127 0, .slotiClear 128 0),
   (.quantumExpired 127, .quantumExpired 128), (.prologueInstructionLimit 3, .prologueInstructionLimit 4)] = true := by decide +kernel

theorem test_wellFormed_parts : refuses
  [(.dieSlotReport 3, .dieSlotReport 4), (.spanPlace 3, .spanPlace 4), (.viaductLineEvict 3 0, .viaductLineEvict 4 0),
   (.thermalThrottle 3 true, .thermalThrottle 4 true), (.thermalTrip 3, .thermalTrip 4), (.layerFailingReport 7 15, .layerFailingReport 8 15),
   (.layerFailingReport 7 15, .layerFailingReport 7 16), (.mappedOutLayerClear 7 15, .mappedOutLayerClear 8 15),
   (.flitReceive 15 0 true, .flitReceive 16 0 true), (.flitReplay 15, .flitReplay 16), (.flitAck 15 0, .flitAck 16 0),
   (.linkRetrain 15, .linkRetrain 16), (.linkRetrained 15, .linkRetrained 16), (.portDown 15, .portDown 16),
   (.hostCxlMemAccess true 2 0 [], .hostCxlMemAccess true 3 0 [])] = true := by decide +kernel

/-! ### Steps: the states -/

/-- The span of `withFetchWord` with its one group issuing, no code fetched. -/
def gangState : State := { State.reset.withFetchWord 32 0 with agenda := [], issuer := .gang 0 0 none }

/-- The same with the group changed. -/
def gangWith (f : Group → Group) : State := modCur gangState f

/-- A translation of a 2 MiB page of context 0: page `n` at HBM byte 2^21·n, readable, writable, executable. -/
def pageEntry (n : Nat) : TlbEntry := ⟨0, n, ⟨0, 2 ^ 21 * n, 21, true, true, true, false, 0, 0, false⟩⟩

/-- The same machine with pages 0 and 1 of context 0 in the pier's TLB, and no window for the context. -/
def mapped (s : State) : State :=
  { s with vm := { s.vm with
      pierTlb := [(0, [pageEntry 0, pageEntry 1])]
      windows := [⟨0, false, 0, 0, 0, 0⟩] } }

/-- What an instruction leaves. -/
def after (i : Instr) (s : State) : State :=
  match exec i s with
  | .next t => t
  | _ => State.reset

/-- Fields rd, ra, rb of a plain word, U = 0 and U = 1, and with a prefix. -/
def word (rd ra rb : BitVec 6) : Enc := ⟨none, rb, ra, rd, 0, false⟩
def wordU (rd ra rb : BitVec 6) : Enc := ⟨none, rb, ra, rd, 0, true⟩
def wordX (xp : BitVec 22) (rd ra rb : BitVec 6) : Enc := ⟨some xp, rb, ra, rd, 0, false⟩

/-- The group with lane 0 alone active. -/
def oneLane (g : Group) : Group := { g with slices := (g.slices.map fun sl => { sl with act := 0 }).set 0 { Slice.start 0 with act := 1 } }

/-- The group with lane 0 alone active, and `a` in v2, `b` in v3 and `d` in v1 of it. -/
def withRegs (a b d : Word) (g : Group) : Group := oneLane (writeV 1 0 d (writeV 2 0 a (writeV 3 0 b g)))

/-- v1 of lane 0 and the flags after an instruction on v1 = d, v2 = a, v3 = b. -/
def result (mk : Enc → Instr) (a b d : Word) : Word × Flags :=
  let g := curGroup (after (mk (word 1 2 3)) (gangWith (withRegs a b d)))
  (readV g 1 0, g.fsr)

/-- Some results at once. -/
def gives (l : List ((Enc → Instr) × Word × Word × Word × Word × Flags)) : Bool :=
  l.all fun x => decide (result x.1 x.2.1 x.2.2.1 x.2.2.2.1 = x.2.2.2.2)

/-! ### Integers (R137 to R146) -/

theorem test_add_sub : gives
  [(.addS32, 0x7FFFFFFF, 1, 9, 0x80000000, 0), (.addsS32, 0x7FFFFFFF, 1, 9, 0x7FFFFFFF, flagSAT),
   (.subS32, 0, 1, 9, 0xFFFFFFFF, 0), (.subsS32, 0x80000000, 1, 9, 0x80000000, flagSAT)] = true := by decide +kernel

theorem test_multiply : gives
  [(.mulloB32, 0x00010001, 0x00010001, 9, 0x00020001, 0), (.mulhiS32, 0xFFFFFFFF, 1, 9, 0xFFFFFFFF, 0),
   (.mulhiZ32, 0xFFFFFFFF, 0xFFFFFFFF, 9, 0xFFFFFFFE, 0), (.madB32, 3, 4, 10, 22, 0)] = true := by decide +kernel

theorem test_divide : gives
  [(.divS32, 0xFFFFFFF9, 2, 9, 0xFFFFFFFD, 0), (.divS32, 5, 0, 9, 0x7FFFFFFF, flagDZ), (.divS32, 0x80000000, 0xFFFFFFFF, 9, 0x7FFFFFFF, flagSAT),
   (.divZ32, 0xFFFFFFF9, 2, 9, 0x7FFFFFFC, 0)] = true := by decide +kernel

theorem test_remainder : gives
  [(.remS32, 0xFFFFFFF9, 2, 9, 0xFFFFFFFF, 0), (.remS32, 0x80000000, 0xFFFFFFFF, 9, 0, flagSAT), (.remZ32, 7, 0, 9, 7, flagDZ),
   (.remZ32, 0xFFFFFFF9, 2, 9, 1, 0)] = true := by decide +kernel

theorem test_min_max : gives
  [(.minS32, 0xFFFFFFFF, 1, 9, 0xFFFFFFFF, 0), (.maxS32, 0xFFFFFFFF, 1, 9, 1, 0), (.minZ32, 0xFFFFFFFF, 1, 9, 1, 0),
   (.maxZ32, 0xFFFFFFFF, 1, 9, 0xFFFFFFFF, 0)] = true := by decide +kernel

theorem test_logic : gives
  [(.and, 0xC, 0xA, 9, 0x8, 0), (.or, 0xC, 0xA, 9, 0xE, 0), (.xor, 0xC, 0xA, 9, 0x6, 0), (.andn, 0xC, 0xA, 9, 0x4, 0)] = true := by
  decide +kernel

theorem test_shifts : gives
  [(.shl, 1, 32, 9, 0, 0), (.shrZ32, 0x80000000, 31, 9, 1, 0), (.shrS32, 0x80000000, 40, 9, 0xFFFFFFFF, 0),
   (.rotl, 0x80000001, 33, 9, 3, 0)] = true := by decide +kernel

/-- The immediate is the third field: 6 bits, signed where the rule says so. -/
theorem test_immediates : gives
  [(.addi, 10, 0, 9, 13, 0), (.shli, 1, 0, 9, 8, 0), (.shriZ32, 0x80000000, 0, 9, 0x10000000, 0), (.shriS32, 0x80000000, 0, 9, 0xF0000000, 0),
   (.andi, 0xFF, 0, 9, 3, 0)] = true := by decide +kernel

/-- R141's example of CTZ, and the corners the table names. -/
theorem test_unary : gives
  [(fun e => .not { e with rb := 0 }, 0, 0, 9, 0xFFFFFFFF, 0), (fun e => .neg { e with rb := 0 }, 5, 0, 9, 0xFFFFFFFB, 0),
   (fun e => .absS32 { e with rb := 0 }, 0x80000000, 0, 9, 0x80000000, 0), (fun e => .clzB32 { e with rb := 0 }, 0x00010000, 0, 9, 15, 0),
   (fun e => .ctzB32 { e with rb := 0 }, 0x00000A00, 0, 9, 9, 0), (fun e => .popcB32 { e with rb := 0 }, 0xF0F0, 0, 9, 8, 0),
   (fun e => .brevB32 { e with rb := 0 }, 1, 0, 9, 0x80000000, 0), (fun e => .mov { e with rb := 0 }, 7, 0, 9, 7, 0)] = true := by
  decide +kernel

/-- R142's example of BFX.s32 and R144's of ILV3, DLV3 and CLZX. -/
theorem test_bit_fields : gives
  [(.bfxS32, 0x00000F50, 0x0406, 9, 0xFFFFFFFD, 0), (.bfxZ32, 0x00000F50, 0x0406, 9, 13, 0), (.bfi, 0xAB, 0x0808, 0x11223344, 0x1122AB44, 0),
   (.ilv3, 5, 3, 6, 0x173, 0), (.clzxB32, 0x00001000, 0x00001FFF, 9, 20, 0), (.ilv2, 3, 0, 9, 5, 0),
   (fun e => .dlv3 { e with rb := 2 }, 0x173, 0, 9, 6, 0), (fun e => .dlv2 { e with rb := 1 }, 0xA, 0, 9, 3, 0)] = true := by decide +kernel

/-- R143's example of PRMT: the selector 0x0123 reverses the bytes. -/
theorem test_prmt :
    gives [(fun e => .prmt { e with xp := some 0x4460 }, 0x11223344, 0, 9, 0x44332211, 0), (.prmt, 0x11112222, 0x33334444, 9, 0x44442222, 0)] = true := by
  decide +kernel

/-- R145: ADDA's example, and a carry and a sign into the high word. -/
theorem test_pairs :
    (let g := curGroup (after (.adda (wordX 0x2000 2 2 9)) (gangWith fun g => writeV 2 0 0xFFFFFFF0 (writeV 3 0 1 (writeV 9 0 0xFFFFFFF8 g))))
     readV g 2 0 = 0xFFFFFFD0 ∧ readV g 3 0 = 1) ∧
    (let g := curGroup (after (.addB64 (word 4 2 6)) (gangWith fun g => writeV 2 0 0xFFFFFFFF (writeV 6 0 1 g)))
     readV g 4 0 = 0 ∧ readV g 5 0 = 1) ∧
    (let g := curGroup (after (.mulwS32 (word 4 2 3)) (gangWith fun g => writeV 2 0 0xFFFFFFFF (writeV 3 0 2 g)))
     readV g 4 0 = 0xFFFFFFFE ∧ readV g 5 0 = 0xFFFFFFFF) := by decide +kernel

/-- ICMP.s32.lt p2: p2 and its complement p3 (R69, R146); predicate 0 stays true. -/
theorem test_compare :
    let g := curGroup (after (.icmpS32 (word 18 2 3)) (gangWith fun g => writeV 2 0 0xFFFFFFFF (writeV 3 0 1 g)))
    readP g 2 0 = true ∧ readP g 3 0 = false ∧ readP g 2 1 = false ∧ readP g 3 1 = true ∧ readP g 0 0 = true := by decide +kernel

/-- PLOP.andn p4, p2, p6 (R148), SEL by p2 (R147), P2R and R2P (R149). -/
theorem test_predicates :
    (let g := curGroup (after (.plop (word 28 2 6)) (gangWith (writeP 2 0 true)))
     readP g 4 0 = true ∧ readP g 5 0 = false ∧ readP g 4 1 = false) ∧
    (let g := curGroup (after (.sel ⟨none, 3, 2, 1, 2, false⟩) (gangWith fun g => writeV 2 0 5 (writeV 3 0 6 (writeV 3 1 7 (writeP 2 0 true g)))))
     readV g 1 0 = 5 ∧ readV g 1 1 = 7) ∧
    readV (curGroup (after (.p2r (word 1 0 0)) (gangWith (writeP 2 0 true)))) 1 0 = 5 ∧
    (let g := curGroup (after (.r2p (word 0 7 0)) (gangWith (writeV 7 0 0xFF09)))
     readP g 3 0 = true ∧ readP g 1 0 = false) := by decide +kernel

/-- LIH keeps the low half (R140), MOVL reads one lane (R151), MOVS %lane (R152), NOP only goes on (R154). -/
theorem test_moves :
    readG (curGroup (after (.movl (wordU 4 7 12)) (gangWith (writeV 7 12 99)))) 4 = 99 ∧
    readV (curGroup (after (.movs (word 3 0 0)) gangState)) 3 17 = 17 ∧
    curPc (after (.nop (word 0 0 0)) gangState) = 4 ∧
    (curGroup (after (.movsw (word 1 0 0)) gangState)).tcause.toNat = 2 := by decide +kernel

/-! ### Floating point, conversions, cross-lane, exact sums (R155 to R176) -/

/-- With rb 0, and the rounding mode of a prefix. -/
def one (mk : Enc → Instr) (e : Enc) : Instr := mk { e with rb := 0 }
def rounded (mode : Nat) (mk : Enc → Instr) (e : Enc) : Instr := mk { e with xp := some (BitVec.ofNat 22 (4096 * mode)) }

/-- R158 to R163: 1 + 2, 1 · 2, 2·3 + 1 with d = 1, -0 against +0, and FRND's two examples. -/
theorem test_float_arithmetic : gives
  [(.faddF32, 0x3F800000, 0x40000000, 0, 0x40400000, 0), (.fsubF32, 0x3F800000, 0x40000000, 0, 0xBF800000, 0),
   (.fmulF32, 0x40000000, 0x40400000, 0, 0x40C00000, 0), (.ffmaF32, 0x40000000, 0x40400000, 0x3F800000, 0x40E00000, 0),
   (one .frndF32, 0x40200000, 0, 0, 0x40000000, flagINX), (rounded 1 (one .frndF32), 0xBE99999A, 0, 0, 0x80000000, flagINX),
   (one .fabsF32, 0xBF800000, 0, 0, 0x3F800000, 0), (one .fnegF32, 0x3F800000, 0, 0, 0xBF800000, 0)] = true := by decide +kernel

/-- R161, R162: exact quotients, roots and transcendental values; a quotient by zero. -/
theorem test_float_functions : gives
  [(.fdivF32, 0x40C00000, 0x40000000, 0, 0x40400000, 0), (.fdivF32, 0x3F800000, 0, 0, 0x7F800000, flagDZ),
   (one .frcpF32, 0x40000000, 0, 0, 0x3F000000, 0), (one .fsqrtF32, 0x40800000, 0, 0, 0x40000000, 0),
   (one .fexp2F32, 0x40400000, 0, 0, 0x41000000, 0), (one .flog2F32, 0x41000000, 0, 0, 0x40400000, 0)] = true := by decide +kernel

/-- R164: the example of HADD2.f16, in both modes. -/
theorem test_packed : gives
  [(.hadd2F16, 0x7BFF, 0x5000, 0, 0x7C00, flagOVF ||| flagINX), (rounded 1 .hadd2F16, 0x7BFF, 0x5000, 0, 0x7BFF, flagOVF ||| flagINX),
   (.hmul2F16, 0x3C004000, 0x3C004000, 0, 0x3C004400, 0)] = true := by decide +kernel

/-- R165: 1 + 2 in FP64. -/
theorem test_double :
    let g := curGroup (after (.daddF64 (word 4 2 6)) (gangWith fun g => writeV 3 0 0x3FF00000 (writeV 7 0 0x40000000 g)))
    readV g 4 0 = 0 ∧ readV g 5 0 = 0x40080000 := by decide +kernel

/-- R167: the rows of its table. -/
theorem test_convert : gives
  [(one .cvtS32F32, 0x40200000, 0, 0, 2, flagINX), (rounded 4 (one .cvtS32F32), 0x40200000, 0, 0, 3, flagINX),
   (one .cvtS32F32, 0xCF32D05E, 0, 0, 0x80000000, flagSAT), (rounded 1 (one .cvtZ32F32), 0xBE99999A, 0, 0, 0, flagINX),
   (one .cvtZ32F32, 0xBF333333, 0, 0, 0, flagSAT), (one .cvtF32S32, 16777217, 0, 0, 0x4B800000, flagINX)] = true := by decide +kernel

/-- R169, R170: the scaled path of R170's table, and 0.5 as an N8 element (R45). -/
theorem test_tapered :
    gives [(one .scalexT8, 0x447A0000, 0, 0, 0x7C, 0)] = true ∧
    (let g := curGroup (after (.cvtT8x4F32 (word 4 8 12)) (gangWith fun g => oneLane (writeV 8 0 0x447A0000 (writeV 9 0 0x3F000000
        (writeV 10 0 0xC0000000 (writeV 11 0 0x3C23D70A (writeV 12 0 0x7C g)))))))
     readV g 4 0 = 0x1290607F ∧ g.fsr = flagSAT ||| flagINX) ∧
    readV (curGroup (after (.cvtF32T8 (word 16 4 12)) (gangWith fun g => writeV 4 0 0x1290607F (writeV 12 0 0x7C g)))) 16 0 = 0x44000000 ∧
    (let g := curGroup (after (.cvtN8x4F32 (word 4 8 0)) (gangWith fun g => oneLane (writeV 8 0 0x3F000000 g)))
     readV g 4 0 = 128 ∧ g.fsr = flagINX) := by decide +kernel

/-- R172: SHFL.xor by 1 swaps neighbours; R173: BALLOT and MATCH. -/
theorem test_cross_lane :
    (let g := curGroup (after (.shflXor (word 6 6 7)) (gangWith fun g => writeV 6 0 10 (writeV 6 1 11 (writeV 7 0 1 (writeV 7 1 1 g)))))
     readV g 6 0 = 11 ∧ readV g 6 1 = 10) ∧
    readV (curGroup (after (.ballot (word 1 2 0)) (gangWith fun g => writeP 2 0 true (writeP 2 31 true g)))) 1 7 = 0x80000001 ∧
    (let g := curGroup (after (.matchLanes (word 1 2 0)) (gangWith fun g => writeV 2 0 5 (writeV 2 4 5 g)))
     readV g 1 4 = 0x11 ∧ readV g 1 1 = 0xFFFFFFEE) := by decide +kernel

/-- R174: sums of all lanes and of the lanes up to one; R176: the float tree loses what the exact sum keeps. -/
theorem test_reduce :
    readV (curGroup (after (.reduceAddS32 (word 1 2 0)) (gangWith fun g => writeV 2 0 5 (writeV 2 31 7 g)))) 1 3 = 12 ∧
    (let g := curGroup (after (.scanAddS32 (word 1 2 0)) (gangWith fun g => writeV 2 0 5 (writeV 2 31 7 g)))
     readV g 1 30 = 5 ∧ readV g 1 31 = 12) ∧
    (let g := curGroup (after (.reduceAddF32 (word 2 8 0)) (gangWith fun g => writeV 8 0 0x4E800000 (writeV 8 1 0x3F800000 (writeV 8 2 0xCE800000 g))))
     readV g 2 9 = 0 ∧ g.fsr = flagINX) := by decide +kernel

/-- R175, R176: XRED of the three terms' accumulators, and XRND of the sum. -/
theorem test_exact :
    readV (curGroup (after (.xaccF32 (word 20 8 0)) (gangWith fun g => writeV 8 0 0x3F800000 g))) 24 0 = 0x00200000 ∧
    readV (curGroup (after (.xrndF32 (word 2 30 0)) (gangWith fun g => writeV 34 0 0x00200000 g))) 2 0 = 0x3F800000 ∧
    (let g := curGroup (after (.xred (word 30 20 0)) (gangWith fun g => writeV 24 0 0x00200000 (writeV 24 9 0x00200000 g)))
     readV g 34 5 = 0x00400000 ∧ readV g 35 5 = 0) := by decide +kernel

/-- R78: the compact forms act on rd and rs, under p1 where bit 5 is set. -/
theorem test_compact :
    readV (curGroup (after (.compactAddS32 ⟨2, 1, false⟩) (gangWith (withRegs 5 0 7)))) 1 0 = 12 ∧
    readV (curGroup (after (.compactAddi ⟨31, 1, false⟩) (gangWith (withRegs 5 0 7)))) 1 0 = 6 ∧
    readV (curGroup (after (.compactMov ⟨2, 1, true⟩) (gangWith (withRegs 5 0 7)))) 1 0 = 7 ∧
    curPc (after (.compactMov ⟨2, 1, true⟩) gangState) = 2 := by decide +kernel

/-! ### Control, barriers, waits, traps (R122 to R130, R178 to R223) -/

/-- The group at an address. -/
def atPc (pc : Va) (g : Group) : Group := { g with slices := g.slices.map fun sl => { sl with pc := pc } }

/-- Slice `k` of the group after an instruction. -/
def sliceAfter (k : Nat) (i : Instr) (s : State) : Slice := ((curGroup (after i s)).slices[k]?).getD (Slice.start 0)

/-- R178: offsets are in halfwords from the word's own address; CALL leaves the address after it in g62:g63, RET goes back there. -/
theorem test_branches :
    curPc (after (.bra (word 8 0 0)) (gangWith (atPc 0x100))) = 0x110 ∧
    curPc (after (.bra (word 56 63 63)) (gangWith (atPc 0x100))) = 0xF0 ∧
    (let t := after (.call (word 8 0 0)) (gangWith (atPc 0x100))
     curPc t = 0x110 ∧ readG (curGroup t) 62 = 0x104 ∧ readG (curGroup t) 63 = 0) ∧
    curPc (after (.ret (word 0 0 0)) (gangWith (writeG 62 0x104))) = 0x104 ∧
    curPc (after (.jmpr (wordU 0 4 0)) (gangWith (writeG 4 0x200))) = 0x200 := by decide +kernel

/-- R179's example word at 0x100: the taken lane goes to 0x110, the others are pushed with the reconvergence point 0x11C. -/
theorem test_brd :
    let sl := sliceAfter 0 (.brd ⟨none, 0, 8, 3, 2, false⟩) (gangWith fun g => atPc 0x100 (writeP 2 1 true g))
    packWord 0x101 ⟨none, 0, 8, 3, 2, false⟩ = 0x0080D203 ∧ sl.act = 2 ∧ sl.pc = 0x110 ∧ sl.stack = [⟨0x11C, 13, 0x104⟩] := by decide +kernel

/-- R123: RECONV at the top entry's point starts the other path; at its second coming the lanes are together. -/
theorem test_reconv :
    (let sl := sliceAfter 0 (.reconv (word 0 0 0)) (gangWith fun g => { g with slices := g.slices.map fun sl =>
        { sl with pc := 0x11C, act := 2, stack := [⟨0x11C, 13, 0x104⟩] } })
     sl.pc = 0x104 ∧ sl.act = 13) ∧
    (let sl := sliceAfter 0 (.reconv (word 0 0 0)) (gangWith fun g => { g with slices := g.slices.map fun sl =>
        { sl with pc := 0x11C, act := 13, stack := [⟨0x11C, 2, 0x105⟩] } })
     sl.pc = 0x120 ∧ sl.act = 15 ∧ sl.stack = []) := by decide +kernel

/-- R126: PART parts each slice at its depth; the last slice at REGANG joins the gang again. R124: EXIT takes the guarded lanes. -/
theorem test_part_regang_exit :
    (sliceAfter 3 (.part (word 0 0 0)) gangState).part = some 0 ∧
    (let s := gangWith fun g => { g with slices := g.slices.map fun sl => { sl with part := some 0, atRegang := true } }
     let t := after (.regang (word 0 0 0)) { s with issuer := .gang 0 0 (some 7) }
     ((curGroup t).slices.map fun sl => (sl.part, sl.atRegang, sl.pc)) = List.replicate 8 (none, false, 4)) ∧
    (sliceAfter 0 (.exit ⟨none, 0, 0, 0, 2, false⟩) (gangWith (writeP 2 1 true))).live = 13 := by decide +kernel

/-- Barrier `k` of the span after an instruction. -/
def barrierAfter (k : Nat) (i : Instr) (s : State) : Option Barrier := (curSpan (after i s)).bind fun sp => sp.barriers[k]?

/-- The same state with barrier 2 as given. -/
def withBarrier (b : Barrier) : State := modSpan gangState 0 fun sp => { sp with barriers := sp.barriers.set 2 b }

/-- R184, R185, R189: the example of BAR.INIT; an arrival that completes the phase; BAR.QRY's word of a barrier with n 5 and a 1. -/
theorem test_barriers :
    barrierAfter 2 (.barInit (word 0 50 2)) gangState = some ⟨true, true, 5, 5, 0, false, 0⟩ ∧
    barrierAfter 2 (.barArv (word 0 2 0)) (withBarrier ⟨true, false, 2, 2, 1, false, 0⟩) = some ⟨true, false, 2, 2, 0, true, 0⟩ ∧
    readV (curGroup (after (.barQry (word 4 2 0)) (withBarrier ⟨true, true, 5, 5, 1, true, 3⟩))) 4 9 = 0x00040307 ∧
    (curGroup (after (.barArv (word 0 2 0)) gangState)).tcause = 15 := by decide +kernel

/-- R185: BAR.SYNC alone at a count of 1 goes on; at a count of 2 it waits. -/
theorem test_bar_sync :
    curPc (after (.barSync (word 0 2 0)) (withBarrier ⟨true, false, 1, 1, 0, false, 0⟩)) = 4 ∧
    (let t := after (.barSync (word 0 2 0)) (withBarrier ⟨true, false, 2, 2, 0, false, 1⟩)
     curPc t = 0 ∧ (curGroup t).waits = [⟨none, .barrier 2 false true true, false, false⟩]) := by decide +kernel

/-- A load in flight. -/
def loadOp : OpRec := ⟨0, .ld, .lsu, 1, [], 0, none, none, true, false, [], false⟩

/-- R190: WAITC ld=0 waits while a load is in flight, and ld=1 does not; R193: FENCE.rel.dev goes on; R195: QFENCE 0 does. -/
theorem test_waits :
    curPc (after (.waitc ⟨none, 63, 63, 56, 0, false⟩) (gangWith fun g => { g with ops := [loadOp] })) = 0 ∧
    curPc (after (.waitc ⟨none, 63, 63, 57, 0, false⟩) (gangWith fun g => { g with ops := [loadOp] })) = 4 ∧
    curPc (after (.fence (word 0 14 0)) gangState) = 4 ∧ curPc (after (.qfence (word 0 0 0)) gangState) = 4 ∧
    curPc (after (.waitr (wordU 0 5 0)) (gangWith fun g => writeG 5 1 { g with ops := [loadOp] })) = 4 ∧
    curPc (after (.yield (word 0 0 0)) gangState) = 4 := by decide +kernel

/-- The launch has a handler at 0x400 (R233). -/
def handled (s : State) : State :=
  { s with launches := s.launches.map fun p => (p.1, { p.2 with record := BitVec.ofNat 1024 (2 ^ (8 * 112) * 0x400) }) }

/-- R196, R220, R223: TRAP 5 records the address after it and enters the handler; RTE there goes back; RTE outside one faults 0:2. -/
theorem test_trap :
    (let t := after (.trap (word 0 5 0)) (handled gangState)
     curPc t = 0x400 ∧ (curGroup t).tcause = causeOf 0 28 ∧ (curGroup t).tlanes = 0xFFFFFFFF ∧ (curSpan t).map (·.handler) = some (some 0) ∧
     curPc (after (.rte (word 0 0 0)) t) = 4) ∧
    (curGroup (after (.rte (word 0 0 0)) (handled gangState))).tcause = causeOf 0 2 ∧
    (curGroup (after (.bkpt (word 0 0 0)) (handled gangState))).tcause = causeOf 0 27 := by decide +kernel

/-- R74, R80, R81: a misused prefix, a reserved opcode, a reserved field, an odd pair, a register beyond the allocation. -/
theorem test_illegal :
    (curGroup (after (.xp 0) (handled gangState))).tcause = causeOf 0 1 ∧
    (curGroup (after (.reservedOpcodeWord 0x40 (word 0 0 0)) (handled gangState))).tcause = causeOf 0 0 ∧
    (curGroup (after (.nop (word 1 0 0)) (handled gangState))).tcause = causeOf 0 0 ∧
    (curGroup (after (.addB64 (word 1 2 4)) (handled gangState))).tcause = causeOf 0 4 ∧
    (curGroup (after (.addS32 (word 1 2 3)) (handled (gangWith fun g => { g with alloc := 3 })))).tcause = causeOf 0 3 := by decide +kernel

/-! ### Memory (R198 to R213) -/

/-- Lane 0 alone, with 0x1000 in v2:v3 and `d` in v4, pages 0 and 1 mapped, and bytes 1 to 8 at HBM address 0x1000. -/
def memState (d : Word) : State :=
  let s := mapped (gangWith fun g => oneLane (writeV 2 0 0x1000 (writeV 4 0 d g)))
  { s with mem := cellSetRange 0 s.mem (memKey 0 0x1000) [1, 2, 3, 4, 5, 6, 7, 0x88] }

/-- R12, R13: a load is counted at its issue and writes at its completion; a signed byte is extended (R201). -/
theorem test_load :
    (let t := after (.ldB32 (word 4 2 0)) (memState 9)
     readV (curGroup t) 4 0 = 9 ∧ counter (curGroup t) .ld = 1 ∧ curPc t = 4 ∧
     (let u := after (.lsuOpComplete 0 0 0) t
      readV (curGroup u) 4 0 = 0x04030201 ∧ counter (curGroup u) .ld = 0)) ∧
    readV (curGroup (after (.lsuOpComplete 0 0 0) (after (.ldS8 (word 4 2 7)) (memState 9)))) 4 0 = 0xFFFFFF88 := by decide +kernel

/-- A store is counted; what is stored of a register are its low bytes, and no other byte changes. -/
theorem test_store :
    let s := memState 0xAABBCCDD
    let a := storeLane 2 (fun l => readLocs (curGroup s) l 1 (.lane 4)) (Acc.start s 0 none none) 0 (.glob [⟨.store, 0x1002, 2, .mem (memKey 0 0x1002)⟩])
    cellRange 0 a.s.mem (memKey 0 0x1000) 6 = [1, 2, 0xDD, 0xCC, 5, 6] := by decide +kernel

/-- R203: an atomic that is not aligned traps 3:4, a load of a page that is not mapped 3:6; a load need not be aligned. -/
theorem test_access_faults :
    (curGroup (after (.atomAddS32 (word 4 2 0)) (handled (modCur (memState 9) (writeV 2 0 0x1001))))).tcause = causeOf 3 4 ∧
    (curGroup (after (.ldB32 (word 4 2 0)) (handled (modCur (memState 9) (writeV 3 0 1))))).tcause = causeOf 3 6 ∧
    readV (curGroup (after (.lsuOpComplete 0 0 0) (after (.ldB32 (word 4 2 0)) (modCur (memState 9) (writeV 2 0 0x1001))))) 4 0 = 0x05040302 := by
  decide +kernel

/-- R208: ATOM.add.s32.dev gives the old value and leaves the sum; ATOM.cas.b32.dev stores only where its pair's first word is found. -/
theorem test_atomics :
    (let t := after (.atomAddS32 (wordX 0xC000 4 2 0)) (memState 0xFF)
     cellRange 0 t.mem (memKey 0 0x1000) 4 = [0, 3, 3, 4] ∧ readV (curGroup (after (.lsuOpComplete 0 0 0) t)) 4 0 = 0x04030201) ∧
    (let t := after (.atomCasB32 (wordX 0xC000 4 2 0)) (modCur (memState 0x04030201) (writeV 5 0 0x11223344))
     cellRange 0 t.mem (memKey 0 0x1000) 4 = [0x44, 0x33, 0x22, 0x11]) ∧
    (let t := after (.atomCasB32 (wordX 0xC000 4 2 0)) (modCur (memState 0) (writeV 5 0 0x11223344))
     cellRange 0 t.mem (memKey 0 0x1000) 4 = [1, 2, 3, 4]) := by decide +kernel

/-- R201, R202: a deck store, and a deck load of what it stored. -/
theorem test_deck :
    let t := after (.stdB32 (word 4 6 0)) (modCur (memState 0x01020304) (writeV 6 0 8))
    readV (curGroup (after (.lsuOpComplete 0 0 1) (after (.lddB32 (word 8 6 0)) t))) 8 0 = 0x01020304 := by decide +kernel

/-- R212: TAGL of an absent key gives 0xFFFFFFFF; TAGI installs it in the lowest invalid way of its set; R211: slot 0 of one set. -/
theorem test_tags :
    readV (curGroup (after (.lsuOpComplete 0 0 0) (after (.tagl (word 5 2 0)) (memState 9)))) 5 0 = 0xFFFFFFFF ∧
    (let t := after (.tagl (word 5 2 0)) (after (.tagi (word 4 2 0)) (memState 9))
     readV (curGroup (after (.lsuOpComplete 0 0 1) t)) 5 0 = 0) := by decide +kernel

/-- R213: CCTL is counted in st and goes on. -/
theorem test_cctl : (let t := after (.cctl (word 0 2 0)) (memState 9); counter (curGroup t) .st = 1 ∧ curPc t = 4) := by decide +kernel

/-! ### Engines, front end, host (R320, R338 to R341, R365, R399 to R402, R229 to R231, R278, R425 to R433) -/

/-- The interval of the example of "Raster and interval instructions": views 0 to 7, steps after views 2 and 6, x 0, sequence id 7. -/
def exampleInterval : List Word := [0x700, 0xFF, 0, 0x44, 0, 7]

/-- It in iv0 of lane 0, with `a` in v5. -/
def withInterval (a : Word) : State := gangWith fun g => writeInterval 0 0 exampleInterval (writeV 5 0 a g)

/-- R401: the example's IVREP, IVPOS and IVCNT. -/
theorem test_interval_reads :
    readV (curGroup (after (.ivrep (word 4 5 0)) (withInterval 8))) 4 0 = 0x00010004 ∧
    readV (curGroup (after (.ivpos (word 4 5 0)) (withInterval 7))) 4 0 = 2 ∧
    readV (curGroup (after (.ivcnt (word 9 0 0)) (withInterval 0))) 9 0 = 8 ∧
    readV (curGroup (after (.ivmov (word 16 0 0)) (withInterval 0))) 19 0 = 0x44 := by decide +kernel

/-- R402: the example's IVSPLIT at view 5. -/
theorem test_interval_split :
    let g := curGroup (after (.ivsplit (word 3 5 0)) (withInterval 5))
    readInterval g 0 0 = [0x400, 0x1F, 0, 0x04, 0, 7] ∧ readInterval g 3 0 = [0x10705, 0xE0, 0, 0x40, 0, 7] := by decide +kernel

/-- A span that holds four granules of the operand buffer. -/
def withGranules : State := modSpan gangState 0 fun sp => { sp with granules := [0, 1, 2, 3] }

/-- R338's example descriptor, and R340's word of what it grants: base 0, size 3, .t8, valid. -/
theorem test_reservation :
    let t := after (.obres (wordU 4 0 2)) (modCur withGranules (writeG 4 0x1803))
    let u := after (.obq (wordU 6 0 2)) t
    readG (curGroup u) 6 = 0 ∧ readG (curGroup u) 7 = BitVec.ofNat 32 (2 ^ 15 * 3 + 2 ^ 8 * 0x0C + 1) ∧
    readG (curGroup (after (.obq (wordU 6 0 2)) (after (.obrel (wordU 0 0 2)) t))) 7 = 0 := by decide +kernel

/-- R365: CPY.4 posts one entry of its queue and is counted in cp. -/
theorem test_copy :
    let t := after (.cpy4 (word 6 2 0)) (memState 9)
    counter (curGroup t) .cp = 1 ∧ (curSpan t).map (fun sp => sp.queues.map List.length) = some [1, 0, 0, 0] := by decide +kernel

/-- R238: PCANCEL 5 ends the launch without a span; PEND with a record of zeros fails it with 10:0 (R234). -/
theorem test_prologue_end :
    (let la := keyFind 0 (after (.pcancel (wordU 0 5 0)) { State.reset.withFetchWord 32 0x7F9 with issuer := .prologue 0 }).launches
     la.map (·.cancel) = some (some 5) ∧ la.map (fun x => decide (x.phase = .finishing)) = some true) ∧
    (keyFind 0 (after (.pend (wordU 0 0 0)) { State.reset.withFetchWord 32 0x7F9 with issuer := .prologue 0 }).launches).map (·.failed)
      = some (some (causeOf 10 0)) := by decide +kernel

/-- R229, R230: a queue of 16 packets at 0x10000; a doorbell raises its write index; one that is not higher, or of an absent queue, is ignored. -/
theorem test_doorbell :
    let s := after (.qdescCreate 5 (BitVec.ofNat 256 (2 ^ 192 + 2 ^ 128 * 4 + 2 ^ 64 * 0x20000 + 0x10000))) State.reset
    let t := after (.doorbellWrite 5 3) s
    (findQueue t 5).writeIndex = 3 ∧ (findQueue (after (.doorbellWrite 5 2) t) 5).writeIndex = 3 ∧
    (findQueue (after (.doorbellWrite 6 3) t) 6).writeIndex = 0 := by decide +kernel

/-- R239, R278: FMODE's reserved bits; CTXTAB's tier. R437: a cold boot without a good image enters recovery; a good one then runs. -/
theorem test_keystone :
    (after (.privilegedRegisterWrite 0 0x3F) State.reset).fe.fmode = 0x3F ∧
    (after (.privilegedRegisterWrite 0 0x40) State.reset).fe.fmode = 0x3F ∧
    (after (.privilegedRegisterWrite 0x40 0x10001) State.reset).vm.ctxtab = 0x10001 ∧
    (after (.privilegedRegisterWrite 0x40 0x10002) State.reset).vm.ctxtab = 0 ∧
    (let t := after (.coldBoot 0 2) State.reset
     t.outside.boot = .recovery ∧ (after (.recoveryImage 3) t).outside.boot = .running) := by decide +kernel

/-- R433: an expected flit is taken, a bad one asks for a replay. R425: a host write and read within a line, and none across it. -/
theorem test_outside :
    ((after (.flitReceive 3 0 true) State.reset).outside.links[3]?).map (·.expected) = some 1 ∧
    ((after (.flitReceive 3 0 false) State.reset).outside.links[3]?).map (·.replayAsked) = some true ∧
    (after (.hostCxlMemAccess false 0 0x40 [0, 0]) (after (.hostCxlMemAccess true 0 0x40 [7, 8]) State.reset)).outside.hostAnswers
      = [some [], some [7, 8]] ∧
    (after (.hostCxlMemAccess true 0 0x3F [7, 8]) State.reset).outside.hostAnswers = [] := by decide +kernel

/-! ### A step (R61, R129) -/

/-- The word of an instruction in the code is what a step runs: DIV.s32 v4, v5, v6 of 0 by 0 gives 0x7FFFFFFF (R138). -/
theorem test_step :
    (match step (State.reset.withFetchWord 32 0x18510011) with
      | .next t => t.spans.map fun p => p.2.groups.map fun g => (readV g 4 3, g.slices.map (·.pc))
      | _ => []) = [[(0x7FFFFFFF, List.replicate 8 4)]] := by decide +kernel

end Sys2Proof.Tests
end

