-- ==== Sys2Proof/Tests/Witnesses.lean ====
section
/-!
SUPPORT. Witnesses: for every statement that has hypotheses, a state and operands that meet them together, clause by clause.
-/

namespace Sys2Proof.Tests

open Sys2Proof Sys2Proof.Machine Sys2Proof.Claims

set_option maxRecDepth 20000
set_option Elab.async false

/-- A word is legal in a state whose gang issues. -/
theorem legal_gang {f : Form} {extra : Bool} {e : Enc} {s : State} {sid n : Nat} {sl : Option Nat} (hi : s.issuer = .gang sid n sl)
    (hg : (findGroup s sid n).isSome = true) (hc : checkEnc f extra (curGroup s).alloc e = none) : Legal f extra e s := by
  refine ⟨?_, ?_⟩
  · unfold Issues
    rw [hi]
    exact hg
  · rw [hi]
    exact hc

/-- A word is legal in `gangState`. -/
theorem legal_here {f : Form} {extra : Bool} {e : Enc} (hc : checkEnc f extra 128 e = none) : Legal f extra e gangState :=
  legal_gang rfl rfl hc

/-- A word is legal in `gangState` with its group changed. -/
theorem legal_with {f : Form} {extra : Bool} {e : Enc} (h : Group → Group) (hc : checkEnc f extra (curGroup (gangWith h)).alloc e = none) :
    Legal f extra e (gangWith h) :=
  legal_gang (sid := 0) (n := 0) (sl := none) rfl rfl hc

/-- What an option holds, where it has a property. -/
theorem some_with {α : Type} {o : Option α} {p : α → Prop} [DecidablePred p] (h : o.any (fun x => decide (p x)) = true) :
    ∃ x, o = some x ∧ p x := by
  cases o with
  | none => cases h
  | some x => exact ⟨x, rfl, of_decide_eq_true h⟩

/-- R137 to R141, R150: the largest shift immediate and the largest LIH immediate of a word without a prefix among them. -/
theorem witness_IntegerResults :
    Legal formRrr true (word 1 2 3) gangState ∧ Legal formRri true (word 1 2 63) gangState ∧
    Legal formRri (decide (immRri (word 1 2 31) < 32)) (word 1 2 31) gangState ∧ Legal formRj true (word 1 63 63) gangState ∧
    Legal formRj (decide (immRj (word 1 63 63) < 0x10000)) (word 1 63 63) gangState ∧ Legal formRr true (word 1 2 0) gangState :=
  ⟨legal_here (by decide), legal_here (by decide), legal_here (by decide), legal_here (by decide), legal_here (by decide),
    legal_here (by decide)⟩


/-- R142 to R145: the largest component indices, the largest shift of ADDA, and PRMT with a selector. -/
theorem witness_BitFieldsAndPairs :
    Legal formRrr true (word 1 2 3) gangState ∧
    Legal { formRrr with rc := .bits, mods := 0x3FF } true (wordX 0x4460 1 2 3) gangState ∧
    Legal formRri (decide (immRri (word 1 2 1) < 2)) (word 1 2 1) gangState ∧
    Legal formRri (decide (immRri (word 1 2 2) < 3)) (word 1 2 2) gangState ∧
    Legal clz64Form true (word 1 2 0) gangState ∧ Legal pairForm true (word 4 2 6) gangState ∧
    Legal addaForm (decide (modifier (wordX 0x4000 2 2 9) % 8 ≤ 4)) (wordX 0x4000 2 2 9) gangState ∧
    Legal mulwForm true (word 4 2 3) gangState := by
  refine ⟨legal_here ?_, legal_here ?_, legal_here ?_, legal_here ?_, legal_here ?_, legal_here ?_, legal_here ?_, legal_here ?_⟩ <;> decide

/-- R146, R160, R166: the last conditions of the codes, 5 and 7. -/
theorem witness_Compares :
    Legal compareForm true (word 47 2 3) gangState ∧ Legal { rd := .cond 8, ra := .reg 1 1, rb := .reg 1 1 } true (word 63 2 3) gangState ∧
    Legal { rd := .cond 8, ra := .reg 2 2, rb := .reg 2 2 } true (word 63 2 4) gangState :=
  ⟨legal_here (by decide), legal_here (by decide), legal_here (by decide)⟩

/-- R147 to R149, R173: PLOP's last two-operand and one-operand codes, votes, and the moves of predicates under both values of U. -/
theorem witness_PredicateMoves :
    (Legal logicForm (decide (cmpCond (word 42 2 7) < 6) || (word 42 2 7).rb == 0) (word 42 2 7) gangState) ∧
    (Legal logicForm (decide (cmpCond (word 58 2 0) < 6) || (word 58 2 0).rb == 0) (word 58 2 0) gangState) ∧
    Legal voteForm true (word 2 4 0) gangState ∧ Legal formRrr true (word 1 2 3) gangState ∧ Legal p2rForm true (word 1 0 0) gangState ∧
    (Legal r2pForm true (word 0 7 0) gangState ∧ (word 0 7 0).u = false) ∧ (Legal r2pForm true (wordU 0 7 0) gangState ∧ (wordU 0 7 0).u = true) :=
  ⟨legal_here (by decide), legal_here (by decide), legal_here (by decide), legal_here (by decide), legal_here (by decide),
    ⟨legal_here (by decide), rfl⟩, legal_here (by decide), rfl⟩

/-- The span and the launch of `gangState`. -/
theorem here_span : (curSpan gangState).isSome = true ∧ (curLaunch gangState).isSome = true := by decide +kernel

/-- R151 to R154: lane 31, the last special register, and a register MOVSW may write. -/
theorem witness_SpecialMoves :
    (Legal movlForm (decide (immRri (wordU 4 7 31) < 32)) (wordU 4 7 31) gangState ∧ laneInGang gangState (immRri (wordU 4 7 31)) = true) ∧
    (∃ sp la, Legal movsForm (decide (immRri (word 3 0 28) < 29)) (word 3 0 28) gangState ∧
      ¬ ((word 3 0 28).u = true ∧ spLane (immRri (word 3 0 28)) = true) ∧ curSpan gangState = some sp ∧ curLaunch gangState = some la) ∧
    (Legal movsForm (decide (immRri (word 1 0 15) < 29)) (word 1 0 15) gangState ∧ spWritable (immRri (word 1 0 15)) = true) ∧
    Legal { rd := .reg 2 2, ra := .unused, rb := .unused } true (word 2 0 0) gangState ∧
    Legal { rd := .unused, ra := .unused, rb := .unused, xp := .zero, prologue := true } true (word 0 0 0) gangState :=
  ⟨⟨legal_here (by decide), by decide +kernel⟩,
    ⟨(curSpan gangState).get here_span.1, (curLaunch gangState).get here_span.2, legal_here (by decide), fun h => absurd h.1 (by decide),
      (Option.some_get here_span.1).symm, (Option.some_get here_span.2).symm⟩,
    ⟨legal_here (by decide), by decide +kernel⟩, legal_here (by decide), legal_here (by decide)⟩

/-- R158 to R170: each form, with the last rounding mode and a third operand named. -/
theorem witness_FloatResults :
    Legal (floatForm2 1) true (wordX 0x4000 1 2 3) gangState ∧ Legal (floatForm1 1 1) true (wordX 0x4000 1 2 0) gangState ∧
    Legal (fusedForm 1) true (wordX 0x8080 1 2 3) gangState ∧ Legal (floatForm2 2) true (word 4 2 6) gangState ∧
    Legal (fusedForm 2) true (word 4 2 6) gangState ∧
    Legal { rd := .reg 1 1, ra := .reg 2 2, rb := .unused, round := true } true (word 1 2 0) gangState ∧
    (∀ p ∈ conversionRows.map (·.2.1), Legal { rd := .reg p.2.2.1 p.2.2.2, ra := .reg p.1 p.2.1, rb := .unused } true (word 0 4 0) gangState) ∧
    (∀ p ∈ scaledRows.map (·.2.1), Legal { rd := .reg p.2.2.1 p.2.2.2, ra := .reg p.1 p.2.1, rb := .reg 1 1 } true (word 16 32 1) gangState) ∧
    Legal { rd := .reg 1 1, ra := .reg 1 1, rb := .reg 1 1 } true (word 1 2 3) gangState ∧
    Legal { rd := .reg 1 1, ra := .reg 1 1, rb := .unused, mods := 1 } true (wordX 0x1000 1 2 0) gangState ∧
    Legal { rd := .reg 1 1, ra := .reg 1 1, rb := .imm, xp := .layoutB } (decide (immRri (word 1 2 3) < 4)) (word 1 2 3) gangState :=
  ⟨legal_here (by decide), legal_here (by decide), legal_here (by decide), legal_here (by decide), legal_here (by decide),
    legal_here (by decide), fun p hp => legal_here (by revert p; decide), fun p hp => legal_here (by revert p; decide),
    legal_here (by decide), legal_here (by decide), legal_here (by decide)⟩

/-- R33: 3/2 in FP32 rounds to itself. -/
theorem witness_RoundingIsCorrect : ∃ r, (3 : Nat) ≠ 0 ∧ patternRat fp32 (roundFinite fp32 .rne false 3 (-1)).1 = some r :=
  ⟨_, by decide, rfl⟩

/-- R171 to R174. -/
theorem witness_CrossLane :
    Legal shuffleForm true (word 6 6 7) gangState ∧ Legal { rd := .reg 1 1, ra := .pred, rb := .unused, u := .zero } true (word 1 7 0) gangState ∧
    Legal reduceForm true (word 1 2 0) gangState ∧ takesPart (word 1 2 0) gangState 31 = true :=
  ⟨legal_here (by decide), legal_here (by decide), legal_here (by decide), by decide +kernel⟩

/-- R175, R176. -/
theorem witness_ExactSums :
    Legal { rd := .reg 10 2, ra := .unused, rb := .unused, u := .zero } true (word 20 0 0) gangState ∧
    Legal { rd := .reg 10 2, ra := .reg 1 1, rb := .unused, u := .zero } true (word 20 8 0) gangState ∧
    Legal { rd := .reg 10 2, ra := .reg 1 1, rb := .reg 1 1, u := .zero } true (word 20 8 9) gangState ∧
    Legal { rd := .reg 10 2, ra := .reg 10 2, rb := .unused, u := .zero } true (word 20 30 0) gangState ∧
    Legal { rd := .reg 1 1, ra := .reg 10 2, rb := .unused, u := .zero } true (word 2 30 0) gangState :=
  ⟨legal_here (by decide), legal_here (by decide), legal_here (by decide), legal_here (by decide), legal_here (by decide)⟩

/-- R82: every register a compact form can name is within an allocation of 128. -/
theorem witness_CompactForms : CompactLegal [31, 31] gangState := ⟨⟨0, 0, none, rfl, by decide +kernel⟩, by decide +kernel⟩

/-! ### Control (R122 to R126, R178 to R197) -/

/-- R178: each instruction with an effect, and each way it has none or faults. -/
theorem witness_Branches :
    (Legal branchForm true (word 8 0 0) gangState ∧ ¬ held (word 8 0 0) gangState ∧ wholeGang gangState = true) ∧
    (Legal branchForm true ⟨none, 0, 0, 8, 1, true⟩ gangState ∧ held ⟨none, 0, 0, 8, 1, true⟩ gangState) ∧
    (Legal branchForm true (word 8 0 0) { gangState with issuer := .gang 0 0 (some 3) } ∧
      ¬ held (word 8 0 0) { gangState with issuer := .gang 0 0 (some 3) } ∧ wholeGang { gangState with issuer := .gang 0 0 (some 3) } = false) ∧
    (Legal jumpForm true (wordU 0 4 0) gangState ∧ ¬ held (wordU 0 4 0) gangState ∧ namesTarget (wordU 0 4 0) gangState 0 ∧
      (0 : Va).getLsbD 0 = false) ∧
    (Legal jumpForm true (wordU 0 4 0) (gangWith (writeG 4 1)) ∧ namesTarget (wordU 0 4 0) (gangWith (writeG 4 1)) 1 ∧
      (1 : Va).getLsbD 0 = true) ∧
    (Legal jumpForm true (word 0 4 0) (gangWith (writeV 4 0 2)) ∧ laneActive (gangWith (writeV 4 0 2)) 0 ∧
      laneActive (gangWith (writeV 4 0 2)) 31 ∧ pairAt (word 0 4 0) (gangWith (writeV 4 0 2)) 0 ≠ pairAt (word 0 4 0) (gangWith (writeV 4 0 2)) 31) ∧
    (Legal jumpForm true (word 0 4 0) (gangWith fun g => { g with slices := g.slices.map fun sl => { sl with act := 0 } }) ∧
      ∀ l, l < 32 → (gangLanes (gangWith fun g => { g with slices := g.slices.map fun sl => { sl with act := 0 } })).getLsbD l = false) ∧
    (Legal retForm true (word 0 0 0) gangState ∧ (linkOf gangState).getLsbD 0 = false) ∧
    (Legal retForm true (word 0 0 0) (gangWith (writeG 62 1)) ∧ (linkOf (gangWith (writeG 62 1))).getLsbD 0 = true) :=
  ⟨⟨legal_here (by decide), by unfold held; decide +kernel, by decide +kernel⟩,
    ⟨legal_here (by decide), by unfold held; decide +kernel⟩,
    ⟨legal_gang (sid := 0) (n := 0) (sl := some 3) rfl (by decide +kernel) (by decide +kernel), by unfold held; decide +kernel, by decide +kernel⟩,
    ⟨legal_here (by decide), by unfold held; decide +kernel, by unfold namesTarget; rw [if_pos (by decide)]; decide +kernel, by decide⟩,
    ⟨legal_gang (sid := 0) (n := 0) (sl := none) (by decide +kernel) (by decide +kernel) (by decide +kernel),
      by unfold namesTarget; rw [if_pos (by decide)]; decide +kernel, by decide⟩,
    ⟨legal_gang (sid := 0) (n := 0) (sl := none) (by decide +kernel) (by decide +kernel) (by decide +kernel),
      by unfold laneActive; decide +kernel, by unfold laneActive; decide +kernel, by decide +kernel⟩,
    ⟨legal_gang (sid := 0) (n := 0) (sl := none) (by decide +kernel) (by decide +kernel) (by decide +kernel), by decide +kernel⟩,
    ⟨legal_here (by decide), by decide +kernel⟩,
    ⟨legal_gang (sid := 0) (n := 0) (sl := none) (by decide +kernel) (by decide +kernel) (by decide +kernel), by decide +kernel⟩⟩


/-- The slices of the group changed. -/
def slicesWith (f : Nat → Slice → Slice) (g : Group) : Group := { g with slices := g.slices.mapIdx f }

/-- BRD by p2. -/
def brdWord : Enc := ⟨none, 0, 8, 3, 2, false⟩

/-- p2 true in every lane; in the lanes of slices 0 and 1; in lane 1. -/
def allTaken (g : Group) : Group := (upTo 32).foldl (fun g l => writeP 2 l true g) g
def someSlices (g : Group) : Group := (upTo 8).foldl (fun g l => writeP 2 l true g) g

/-- R122: guard 0, all taken, none taken, slices parted, lanes parted with 31 entries on chip, lanes parted at 288 entries. -/
theorem witness_Divergence :
    (Legal brdForm true { brdWord with guard := 0 } gangState ∧ guardNum { brdWord with guard := 0 } = 0 ∧ guardNum brdWord ≠ 0) ∧
    Legal brdForm true brdWord (gangWith allTaken) ∧
    ((∀ k ∈ curSlices (gangWith allTaken), restOf brdWord (gangWith allTaken) k = 0) ∧
      ∃ k ∈ curSlices (gangWith allTaken), takenOf brdWord (gangWith allTaken) k ≠ 0) ∧
    (Legal brdForm true brdWord gangState ∧ ∀ k ∈ curSlices gangState, takenOf brdWord gangState k = 0) ∧
    (Legal brdForm true brdWord (gangWith someSlices) ∧
      (∀ k ∈ curSlices (gangWith someSlices), ¬ (takenOf brdWord (gangWith someSlices) k ≠ 0 ∧ restOf brdWord (gangWith someSlices) k ≠ 0)) ∧
      (∃ k ∈ curSlices (gangWith someSlices), takenOf brdWord (gangWith someSlices) k ≠ 0) ∧
      ∃ k ∈ curSlices (gangWith someSlices), restOf brdWord (gangWith someSlices) k ≠ 0) ∧
    (let s := gangWith fun g => writeP 2 1 true (slicesWith (fun _ sl => { sl with stack := List.replicate 31 ⟨0, 0, 0⟩ }) g)
     Legal brdForm true brdWord s ∧ (∃ k ∈ curSlices s, takenOf brdWord s k ≠ 0 ∧ restOf brdWord s k ≠ 0) ∧
      ∀ k ∈ curSlices s, (curSlice s k).stack.length < 32 ∧ stackDepth (curSlice s k) < 288) ∧
    (let s := gangWith fun g => writeP 2 1 true (slicesWith (fun _ sl => { sl with stack := List.replicate 32 ⟨0, 0, 0⟩, spilled := 8 }) g)
     Legal brdForm true brdWord s ∧ (∃ k ∈ curSlices s, takenOf brdWord s k ≠ 0 ∧ restOf brdWord s k ≠ 0) ∧
      ∃ k ∈ curSlices s, 288 ≤ stackDepth (curSlice s k)) :=
  ⟨⟨legal_here (by decide), by decide⟩, legal_with _ (by decide +kernel), by decide +kernel, ⟨legal_here (by decide), by decide +kernel⟩,
    ⟨legal_with _ (by decide +kernel), by decide +kernel⟩,
    ⟨legal_with _ (by decide +kernel), by decide +kernel, by decide +kernel⟩,
    ⟨legal_with _ (by decide +kernel), by decide +kernel, by decide +kernel⟩⟩

/-- A slice of the group issues alone, every slice parted and at REGANG at address 0. -/
def partedState (k depth : Nat) : State :=
  { gangWith (slicesWith fun j sl => { sl with
      part := some 0
      atRegang := decide (j ≠ k)
      stack := List.replicate depth ⟨0x100, 0, 0⟩ }) with issuer := .gang 0 0 (some k) }

/-- R123, R126: RECONV with an entry that names it and one below the depth of a parting; PART and REGANG in the gang and in a slice; a slice
that is not back at its depth; one that waits for another, and the last. -/
theorem witness_Reconvergence :
    (Legal bareForm true (word 0 0 0) gangState ∧ (∀ k ∈ curSlices gangState, onChip (curSlice gangState k)) ∧
      (∀ k ∈ curSlices gangState, ¬ mergesBelow (wordAddr (word 0 0 0) gangState) (curSlice gangState k)) ∧ issuerSlice gangState = none) ∧
    (let s := gangWith (slicesWith fun _ sl => { sl with stack := [⟨0, 0, 0⟩], part := some 1 })
     Legal bareForm true (word 0 0 0) s ∧ (∀ k ∈ curSlices s, onChip (curSlice s k)) ∧
      ∃ k ∈ curSlices s, mergesBelow (wordAddr (word 0 0 0) s) (curSlice s k)) ∧
    (Legal bareForm true (word 0 0 0) (partedState 7 0) ∧ issuerSlice (partedState 7 0) = some 7 ∧
      stackDepth (curSlice (partedState 7 0) 7) ≤ (curSlice (partedState 7 0) 7).part.getD 0) ∧
    ((∃ sl, (curGroup (partedState 7 0)).slices[7]? = some sl ∧ sl.live ≠ 0) ∧
      ∀ j < 8, j ≠ 7 → ∃ sl, (curGroup (partedState 7 0)).slices[j]? = some sl ∧ sl.atRegang = true ∧
        regangAddr sl = wordAddr (word 0 0 0) (partedState 7 0)) ∧
    (Legal bareForm true (word 0 0 0) (partedState 7 1) ∧ issuerSlice (partedState 7 1) = some 7 ∧
      (curSlice (partedState 7 1) 7).part.getD 0 < stackDepth (curSlice (partedState 7 1) 7)) ∧
    (let s := { gangWith (slicesWith fun _ sl => { sl with part := some 0 }) with issuer := .gang 0 0 (some 7) }
     Legal bareForm true (word 0 0 0) s ∧ issuerSlice s = some 7 ∧ stackDepth (curSlice s 7) ≤ (curSlice s 7).part.getD 0 ∧
      ∃ sl, (curGroup s).slices[0]? = some sl ∧ sl.live ≠ 0 ∧ sl.atRegang = false) := by
  refine ⟨⟨legal_here (by decide), by unfold onChip; decide +kernel, ?_, rfl⟩, ⟨legal_with _ (by decide +kernel), by unfold onChip; decide +kernel, ?_⟩,
    ⟨legal_gang (sid := 0) (n := 0) (sl := some 7) rfl (by decide +kernel) (by decide +kernel), rfl, by decide +kernel⟩, ⟨?_, ?_⟩,
    ⟨legal_gang (sid := 0) (n := 0) (sl := some 7) rfl (by decide +kernel) (by decide +kernel), rfl, by decide +kernel⟩,
    ⟨legal_gang (sid := 0) (n := 0) (sl := some 7) rfl (by decide +kernel) (by decide +kernel), rfl, by decide +kernel, ?_⟩⟩
  · rintro k hk ⟨en, rest, d, h, -⟩
    have : ∀ k ∈ curSlices gangState, (curSlice gangState k).stack = [] := by decide +kernel
    rw [this k hk] at h
    cases h
  · exact ⟨0, by decide +kernel, ⟨0, 0, 0⟩, [], 1, by decide +kernel, by decide +kernel, by decide +kernel, by decide +kernel⟩
  · exact some_with (p := fun sl : Slice => sl.live ≠ 0) (by decide +kernel)
  · intro j hj hne
    exact some_with (p := fun sl : Slice => sl.atRegang = true ∧ regangAddr sl = wordAddr (word 0 0 0) (partedState 7 0))
      (by revert j; decide +kernel)
  · exact some_with (p := fun sl : Slice => sl.live ≠ 0 ∧ sl.atRegang = false) (by decide +kernel)

/-- EXIT of lane 1 by p2, of no lane, EXIT 1. -/
def exitWord (code : BitVec 6) : Enc := ⟨none, 0, code, 0, 2, false⟩

/-- R124, R181, R224: an exit of no lane, of one lane, of the lanes on which another path of the stack waits, of the whole group; EXIT 1. -/
theorem witness_ExitsAndKills :
    (Legal exitForm (decide (immRj (exitWord 0) < 2)) (exitWord 0) gangState ∧ guardedLanes (guardNum (exitWord 0)) gangState = 0) ∧
    (let s := gangWith (writeP 2 1 true)
     Legal exitForm (decide (immRj (exitWord 1) < 2)) (exitWord 1) s ∧ guardedLanes (guardNum (exitWord 1)) s ≠ 0 ∧ immRj (exitWord 1) = 1) ∧
    (let s := gangWith (writeP 2 1 true)
     Legal exitForm (decide (immRj (exitWord 0) < 2)) (exitWord 0) s ∧ guardedLanes (guardNum (exitWord 0)) s ≠ 0 ∧ immRj (exitWord 0) = 0 ∧
      (∀ k ∈ curSlices s, ∃ sl, (curGroup s).slices[k]? = some sl ∧ (without (guardedLanes (guardNum (exitWord 0)) s) k sl).live ≠ 0 ∧ onChip sl) ∧
      ¬ gangEmptied (guardedLanes (guardNum (exitWord 0)) s) s) ∧
    (let s := gangWith fun g => allTaken (slicesWith (fun _ sl => { sl with act := 1 }) g)
     Legal exitForm (decide (immRj (exitWord 0) < 2)) (exitWord 0) s ∧ guardedLanes (guardNum (exitWord 0)) s ≠ 0 ∧
      (∀ k ∈ curSlices s, ∃ sl, (curGroup s).slices[k]? = some sl ∧ (without (guardedLanes (guardNum (exitWord 0)) s) k sl).live ≠ 0 ∧ onChip sl) ∧
      gangEmptied (guardedLanes (guardNum (exitWord 0)) s) s) ∧
    (let s := gangWith allTaken
     Legal exitForm (decide (immRj (exitWord 0) < 2)) (exitWord 0) s ∧ guardedLanes (guardNum (exitWord 0)) s ≠ 0 ∧
      ∃ sp, curSpan s = some sp ∧ sp.trap = none ∧ (∀ b ∈ sp.barriers, b.auto = false) ∧ (∀ g ∈ sp.groups, ∀ k < 16, groupAwaits k g = false) ∧
        sp.killed = none ∧ ∀ k < 8, ∀ sl ∈ (curGroup s).slices[k]?, (without (guardedLanes (guardNum (exitWord 0)) s) k sl).live = 0) := by
  refine ⟨⟨legal_here (by decide), by decide +kernel⟩, ⟨legal_with _ (by decide +kernel), by decide +kernel, by decide⟩,
    ⟨legal_with _ (by decide +kernel), by decide +kernel, by decide, ?_, by unfold gangEmptied; decide +kernel⟩,
    ⟨legal_with _ (by decide +kernel), by decide +kernel, ?_, by unfold gangEmptied; decide +kernel⟩,
    ⟨legal_with _ (by decide +kernel), by decide +kernel, some_with (by decide +kernel)⟩⟩
  · intro k hk
    have h : ∀ k ∈ curSlices (gangWith (writeP 2 1 true)), ((curGroup (gangWith (writeP 2 1 true))).slices[k]?).any (fun sl =>
      decide ((without (guardedLanes (guardNum (exitWord 0)) (gangWith (writeP 2 1 true))) k sl).live ≠ 0 ∧ (sl.stack = [] → sl.spilled = 0))) = true := by
      decide +kernel
    exact some_with (p := fun sl : Slice => (without (guardedLanes (guardNum (exitWord 0)) (gangWith (writeP 2 1 true))) k sl).live ≠ 0 ∧
      (sl.stack = [] → sl.spilled = 0)) (h k hk)
  · intro k hk
    have h : ∀ k ∈ curSlices (gangWith fun g => allTaken (slicesWith (fun _ sl => { sl with act := 1 }) g)),
      ((curGroup (gangWith fun g => allTaken (slicesWith (fun _ sl => { sl with act := 1 }) g))).slices[k]?).any (fun sl =>
      decide ((without (guardedLanes (guardNum (exitWord 0)) (gangWith fun g => allTaken (slicesWith (fun _ sl => { sl with act := 1 }) g))) k sl).live ≠ 0 ∧
        (sl.stack = [] → sl.spilled = 0))) = true := by decide +kernel
    exact some_with (p := fun sl : Slice =>
      (without (guardedLanes (guardNum (exitWord 0)) (gangWith fun g => allTaken (slicesWith (fun _ sl => { sl with act := 1 }) g))) k sl).live ≠ 0 ∧
        (sl.stack = [] → sl.spilled = 0)) (h k hk)

/-- R125: a slice whose stack is full. -/
theorem witness_StackSpills : ({ Slice.start 0 with stack := List.replicate 32 ⟨0, 0, 0⟩ } : Slice).stack.length = 32 := by decide


/-- R184, R189: BAR.INIT with its least and greatest index and counts: nothing changes, the barrier is in use, it is initialised; BAR.QRY of
barrier 15. -/
theorem witness_BarrierStates :
    (let s := withBarrier ⟨true, true, 5, 5, 3, false, 0⟩
     Legal { barForm with xp := .layoutB } (decide (1 ≤ immRj (word 0 50 2) / 32) && decide (immRj (word 0 50 2) / 32 ≤ 65535)) (word 0 50 2) s ∧
      immRj (word 0 50 2) % 16 = 2 ∧ immRj (word 0 50 2) / 32 = 5 ∧ immRj (word 0 50 2) / 16 % 2 = 1 ∧ inHandler s = false ∧ wholeGang s = true ∧
      ∃ sp, curSpan s = some sp ∧ sp.barriers[2]? = some ⟨true, true, 5, 5, 3, false, 0⟩) ∧
    (let s := withBarrier ⟨true, false, 5, 5, 3, false, 0⟩
     inHandler s = false ∧ wholeGang s = true ∧ ∃ sp, curSpan s = some sp ∧ sp.barriers[2]? = some ⟨true, false, 5, 5, 3, false, 0⟩) ∧
    (let s := withBarrier ⟨true, false, 5, 5, 0, false, 0⟩
     inHandler s = false ∧ wholeGang s = true ∧ ∃ sp, curSpan s = some sp ∧ sp.barriers[2]? = some ⟨true, false, 5, 5, 0, false, 0⟩) ∧
    (Legal { rd := .reg 1 1, ra := .imm, rb := .imm, xp := .zero } (decide (immRj (word 4 15 0) < 16)) (word 4 15 0) gangState ∧
      ∃ sp, curSpan gangState = some sp ∧ sp.barriers[15]? = some Barrier.reset) :=
  ⟨⟨legal_gang (sid := 0) (n := 0) (sl := none) rfl (by decide +kernel) (by decide +kernel), by decide, by decide, by decide, by decide +kernel,
      by decide +kernel, some_with (by decide +kernel)⟩,
    ⟨by decide +kernel, by decide +kernel, some_with (by decide +kernel)⟩, ⟨by decide +kernel, by decide +kernel, some_with (by decide +kernel)⟩,
    ⟨legal_here (by decide), some_with (by decide +kernel)⟩⟩

/-- A barrier state in which the group may use barrier 2. -/
def mayUse (b : Barrier) (f : Group → Group) (p : State → Prop) : Prop :=
  let s := modCur (withBarrier b) f
  Legal barForm (decide (immRj (word 0 2 0) < 16)) (word 0 2 0) s ∧ immRj (word 0 2 0) = 2 ∧
    (∃ sp, curSpan s = some sp ∧ sp.barriers[2]? = some b) ∧ p s

/-- The gang waits for a phase of barrier 2, or has waited. -/
def waitingAt (woken : Bool) (g : Group) : Group := { g with waits := [⟨none, .barrier 2 false true true, woken, false⟩] }

theorem mayUse_of {b : Barrier} {f : Group → Group} {p : State → Prop}
    (hc : checkEnc barForm (decide (immRj (word 0 2 0) < 16)) (curGroup (modCur (withBarrier b) f)).alloc (word 0 2 0) = none)
    (hs : (curSpan (modCur (withBarrier b) f)).any (fun sp => decide (sp.barriers[2]? = some b)) = true) (hp : p (modCur (withBarrier b) f)) :
    mayUse b f p :=
  ⟨legal_gang (sid := 0) (n := 0) (sl := none) rfl (by rfl) hc, by decide, some_with hs, hp⟩

/-- `gangState` with a flag that is armed, in a trap handler, and with its gang not whole. -/
def armedFlag : State := gangWith fun g => { g with fsr := 1, fen := 1 }
def handlesTrap : State := modSpan gangState 0 fun sp => { sp with handler := some 0 }
def oneSlice : State := { gangState with issuer := .gang 0 0 (some 3) }

/-- R49, R185: an arrival that faults, one that counts and one that completes; a wait that faults, goes on, blocks, and one that has ended or
not; a barrier instruction under an armed flag, in a trap handler, and by part of a group. -/
theorem witness_BarrierPhases :
    mayUse ⟨false, false, 2, 2, 0, false, 0⟩ (fun g => g) (fun s => mayBar s ∧ curWait s = none) ∧
    mayUse ⟨true, false, 2, 2, 1, false, 0⟩ (fun g => { g with arr := 4 }) (fun s => mayBar s ∧ (curGroup s).arr.getLsbD 2 = true ∧ curWait s = none) ∧
    mayUse ⟨true, false, 2, 2, 0, false, 0⟩ (fun g => g) (fun s => mayBar s ∧ (curGroup s).arr.getLsbD 2 = false ∧ curWait s = none ∧
      ¬ completes ⟨true, false, 2, 2, 0, false, 0⟩) ∧
    mayUse ⟨true, false, 2, 2, 1, false, 0⟩ (fun g => g) (fun s => mayBar s ∧ (curGroup s).arr.getLsbD 2 = false ∧ curWait s = none ∧
      completes ⟨true, false, 2, 2, 1, false, 0⟩ ∧ (arrivedAt ⟨true, false, 2, 2, 1, false, 0⟩).init = true) ∧
    mayUse ⟨true, false, 2, 2, 0, true, 0⟩ (fun g => { g with tv := 4 }) (fun s => mayBar s ∧ (curGroup s).tv.getLsbD 2 = true ∧
      (curGroup s).tok.getLsbD 2 = false) ∧
    mayUse ⟨true, false, 2, 2, 1, false, 0⟩ (waitingAt true) (fun s => ∃ w, curWait s = some w ∧ w.wait = .barrier 2 false true true ∧ w.woken = true) ∧
    mayUse ⟨true, false, 2, 2, 1, false, 0⟩ (waitingAt false) (fun s => ∃ w, curWait s = some w ∧ w.wait = .barrier 2 false true true ∧ w.woken = false) ∧
    (∀ s ∈ [armedFlag, handlesTrap, oneSlice], Legal barForm (decide (immRj (word 0 2 0) < 16)) (word 0 2 0) s ∧ curWait s = none) ∧
    ((curGroup armedFlag).fsr &&& (curGroup armedFlag).fen ≠ 0 ∧
      (curGroup handlesTrap).fsr &&& (curGroup handlesTrap).fen = 0 ∧ inHandler handlesTrap = true ∧
      (curGroup oneSlice).fsr &&& (curGroup oneSlice).fen = 0 ∧ inHandler oneSlice = false ∧ wholeGang oneSlice = false) :=
  ⟨mayUse_of (by decide +kernel) (by decide +kernel) (by unfold mayBar; decide +kernel),
    mayUse_of (by decide +kernel) (by decide +kernel) (by unfold mayBar; decide +kernel),
    mayUse_of (by decide +kernel) (by decide +kernel) (by unfold mayBar completes; decide +kernel),
    mayUse_of (by decide +kernel) (by decide +kernel) (by unfold mayBar completes; decide +kernel),
    mayUse_of (by decide +kernel) (by decide +kernel) (by unfold mayBar; decide +kernel),
    mayUse_of (by decide +kernel) (by decide +kernel) (some_with (by decide +kernel)),
    mayUse_of (by decide +kernel) (by decide +kernel) (some_with (by decide +kernel)),
    fun s hs => by
      simp only [List.mem_cons, List.not_mem_nil, or_false] at hs
      obtain rfl | rfl | rfl := hs
      · exact ⟨legal_gang (sid := 0) (n := 0) (sl := none) rfl (by decide +kernel) (by decide +kernel), by decide +kernel⟩
      · exact ⟨legal_gang (sid := 0) (n := 0) (sl := none) rfl (by decide +kernel) (by decide +kernel), by decide +kernel⟩
      · exact ⟨legal_gang (sid := 0) (n := 0) (sl := some 3) rfl (by decide +kernel) (by decide +kernel), by decide +kernel⟩,
    by decide +kernel⟩

/-- R188: the one group waits at a barrier of count 2 that it alone has arrived at, with a handler; with an arrival pending it does not
underrun. -/
theorem witness_Underrun :
    (let s := handled (modCur (withBarrier ⟨true, false, 2, 2, 1, false, 0⟩) (waitingAt false))
     ∃ sp, findSpan s 0 = some sp ∧ sp.killed = none ∧ sp.trap = none ∧ sp.handler = none ∧
      sp.barriers[2]? = some ⟨true, false, 2, 2, 1, false, 0⟩ ∧ (∀ g ∈ sp.groups, g.num = 0 ∧ g.waits = [⟨none, .barrier 2 false true true, false, false⟩]) ∧
      sp.groups.length = 1 ∧ (findLaunch s sp.launch).any (fun la => handlerVa la != 0) = true) ∧
    (let s := modCur (withBarrier ⟨true, false, 2, 2, 1, false, 1⟩) (waitingAt false)
     ∃ sp, findSpan s 0 = some sp ∧ sp.killed = none ∧ sp.trap = none ∧ sp.handler = none ∧
      sp.barriers[2]? = some ⟨true, false, 2, 2, 1, false, 1⟩ ∧ ¬ (1 : Nat) + 1 < 2) :=
  ⟨some_with (by decide +kernel), some_with (by decide +kernel)⟩

/-- WAITC ld=0, WAITR ld, g5. -/
def waitcWord : Enc := ⟨none, 63, 63, 56, 0, false⟩

/-- A load in flight; the gang waits for the loads. -/
def oneLoad (g : Group) : Group := { g with ops := [loadOp] }
def waitsForLoads (g : Group) : Group := { g with waits := [⟨none, .counters [(.ld, 0)], false, false⟩] }

/-- R190 to R195: each wait met and not met, at first issue and when issued again; the largest legal FENCE immediate; QFENCE with one
operation covered and with none. -/
theorem witness_WaitsAndFences :
    (Legal { rd := .imm, ra := .imm, rb := .imm, xp := .zero, u := .zero, guard := .zero } true waitcWord gangState ∧ noWait gangState ∧
      ∀ i < 6, waitField waitcWord i = 7 ∨ counter (curGroup gangState) (classAt i) ≤ waitField waitcWord i) ∧
    (Legal { rd := .imm, ra := .imm, rb := .imm, xp := .zero, u := .zero, guard := .zero } true waitcWord (gangWith oneLoad) ∧
      noWait (gangWith oneLoad) ∧ ¬ (waitField waitcWord 0 = 7 ∨ counter (curGroup (gangWith oneLoad)) (classAt 0) ≤ waitField waitcWord 0)) ∧
    (Legal { rd := .imm, ra := .imm, rb := .imm, xp := .zero, u := .zero, guard := .zero } true waitcWord (gangWith waitsForLoads) ∧
      ∃ w, curWait (gangWith waitsForLoads) = some w ∧ w.wait = .counters [(.ld, 0)]) ∧
    (let s := gangWith fun g => oneLoad (writeG 5 1 g)
     Legal { rd := .unused, ra := .groupReg 1 1, rb := .imm, xp := .layoutB, u := .one } (decide (immRri (wordU 0 5 5) < 6)) (wordU 0 5 5) s ∧
      noWait s ∧ counter (curGroup s) (classAt 0) ≤ (readG (curGroup s) 5).toNat) ∧
    (Legal { rd := .unused, ra := .groupReg 1 1, rb := .imm, xp := .layoutB, u := .one } (decide (immRri (wordU 0 5 0) < 6)) (wordU 0 5 0)
        (gangWith oneLoad) ∧ noWait (gangWith oneLoad) ∧ qGuard (wordU 0 5 0) (gangWith oneLoad) = true ∧
      (readG (curGroup (gangWith oneLoad)) 5).toNat < counter (curGroup (gangWith oneLoad)) (classAt (immRri (wordU 0 5 0)))) ∧
    (Legal { bareForm with u := .both } true (word 0 0 0) gangState ∧ inHandler gangState = false ∧
      ∃ sp, curSpan gangState = some sp ∧ sp.marked = false) ∧
    (let s := modSpan gangState 0 fun sp => { sp with marked := true }
     inHandler s = false ∧ ∃ sp, curSpan s = some sp ∧ sp.marked = true) ∧
    inHandler (modSpan gangState 0 fun sp => { sp with handler := some 0 }) = true ∧
    Legal { barForm with u := .both } (fenceImm (immRj (word 0 47 0))) (word 0 47 0) gangState ∧
    (Legal { barForm with u := .both } (decide (immRj (word 0 8 0) < 256)) (word 0 8 0) gangState ∧ noWait gangState ∧
      (immRj (word 0 8 0)).testBit 7 = false ∧ ∃ sp, curSpan gangState = some sp ∧ queueOps gangState 0 sp 3 = []) ∧
    (let s := modSpan gangState 0 fun sp => { sp with queues := [[⟨0, 0, .copy [], none, false, false, [], none, [], [], none⟩], [], [], []] }
     (immRj (word 0 8 0)).testBit 3 = true ∧ ∃ sp, curSpan s = some sp ∧ queueOps s 0 sp 3 ≠ []) :=
  ⟨⟨legal_here (by decide), by unfold noWait; decide +kernel, by decide +kernel⟩,
    ⟨legal_with _ (by decide +kernel), by unfold noWait; decide +kernel, by decide +kernel⟩,
    ⟨legal_with _ (by decide +kernel), some_with (by decide +kernel)⟩,
    ⟨legal_with _ (by decide +kernel), by unfold noWait; decide +kernel, by decide +kernel⟩,
    ⟨legal_with _ (by decide +kernel), by unfold noWait; decide +kernel, by decide +kernel, by decide +kernel⟩,
    ⟨legal_here (by decide), by decide +kernel, some_with (by decide +kernel)⟩, ⟨by decide +kernel, some_with (by decide +kernel)⟩,
    by decide +kernel, legal_here (by decide),
    ⟨legal_here (by decide), by unfold noWait; decide +kernel, by decide, some_with (by decide +kernel)⟩,
    ⟨by decide, some_with (by decide +kernel)⟩⟩

/-- R196, R218: TRAP 4095 with every lane, and with none. -/
theorem witness_SoftwareTraps :
    (Legal { rd := .unused, ra := .imm, rb := .imm, xp := .zero } true (word 0 63 63) gangState ∧ trapsNow (word 0 63 63) gangState ∧
      inSkid gangState = false) ∧
    (Legal { rd := .unused, ra := .imm, rb := .imm, xp := .zero } true ⟨none, 63, 63, 0, 2, false⟩ gangState ∧
      ¬ trapsNow ⟨none, 63, 63, 0, 2, false⟩ gangState) :=
  ⟨⟨legal_here (by decide), by unfold trapsNow; rw [if_neg (by decide)]; decide +kernel, by decide +kernel⟩,
    ⟨legal_here (by decide), by unfold trapsNow; rw [if_neg (by decide)]; decide +kernel⟩⟩

/-- The span of `gangState` with a second group that runs, or that waits at a barrier. -/
def twoGroups (waits : List GroupWait) : State :=
  handled (modSpan gangState 0 fun sp => { sp with groups := sp.groups ++ [{ Group.start 1 1 128 0 with waits := waits }] })

/-- R217 to R221: a trap while the sibling runs, while it stands at a barrier; a trap in the handling group, and one without a handler. -/
theorem witness_TrapEntry :
    (∃ sp, findSpan (twoGroups []) 0 = some sp ∧ sp.killed = none ∧ sp.handler = none ∧ sp.trap = none ∧ sp.groups.length = 2 ∧
      (findLaunch (twoGroups []) sp.launch).any (fun la => handlerVa la != 0) = true ∧
      ∀ g ∈ sp.groups[1]?, g.halted = false ∧ g.waits = [] ∧ g.parked = [] ∧ ∀ sl ∈ g.slices, sl.live ≠ 0 ∧ sl.atRegang = false) ∧
    (∃ sp, findSpan (twoGroups [⟨none, .barrier 2 false false false, false, false⟩]) 0 = some sp ∧ sp.killed = none ∧ sp.handler = none ∧ sp.trap = none ∧
      ∀ g ∈ sp.groups[1]?, ∃ w ∈ g.waits, w.slice = none ∧ w.woken = false) ∧
    (∃ sp, findSpan (modSpan gangState 0 fun sp => { sp with handler := some 0 }) 0 = some sp ∧ sp.killed = none ∧ sp.handler ≠ none) ∧
    (∃ sp, findSpan gangState 0 = some sp ∧ sp.killed = none ∧ sp.handler = none ∧ sp.trap = none ∧
      (findLaunch gangState sp.launch).any (fun la => handlerVa la == 0) = true) :=
  ⟨some_with (by decide +kernel), some_with (by decide +kernel), some_with (by decide +kernel), some_with (by decide +kernel)⟩

/-- The handling group's state: one entry on each stack more than at entry, an odd recorded pc, or neither. -/
def inHandlerState (depth : Nat) (tpc : Va) : State :=
  modSpan (gangWith (slicesWith fun _ sl => { sl with stack := List.replicate depth ⟨0x100, 0, 0⟩, tpc := tpc })) 0
    fun sp => { sp with handler := some 0 }

/-- R197, R223: RTE outside a handler, at another depth, to an odd address, and where it returns. -/
theorem witness_TrapReturn :
    (Legal bareForm true (word 0 0 0) gangState ∧ ∃ sp, curSpan gangState = some sp ∧ sp.handler ≠ some (curNum gangState)) ∧
    (∃ sp, curSpan (inHandlerState 1 0) = some sp ∧ sp.handler = some (curNum (inHandlerState 1 0)) ∧
      ∀ sl ∈ (curGroup (inHandlerState 1 0)).slices[0]?, sl.live ≠ 0 ∧ stackDepth sl ≠ sl.entryDepth) ∧
    (∃ sp, curSpan (inHandlerState 0 1) = some sp ∧ sp.handler = some (curNum (inHandlerState 0 1)) ∧
      ∀ k < 8, ∀ sl ∈ (curGroup (inHandlerState 0 1)).slices[k]?, stackDepth sl = sl.entryDepth ∧ sl.tpc.getLsbD 0 = true) ∧
    (Legal bareForm true (word 0 0 0) (inHandlerState 0 4) ∧ ∃ sp, curSpan (inHandlerState 0 4) = some sp ∧
      sp.handler = some (curNum (inHandlerState 0 4)) ∧ sp.held = [] ∧ (∀ g ∈ sp.groups, g.waits ++ g.savedWaits = []) ∧ sp.groups.length = 1 ∧
      (∃ sl ∈ (curGroup (inHandlerState 0 4)).slices[0]?, sl.live ≠ 0 ∧ sl.savedRegang = false) ∧ curNum (inHandlerState 0 4) = 0 ∧
      ∀ k < 8, ∀ sl ∈ (curGroup (inHandlerState 0 4)).slices[k]?, stackDepth sl = sl.entryDepth ∧ sl.tpc.getLsbD 0 = false) :=
  ⟨⟨legal_here (by decide), some_with (by decide +kernel)⟩, some_with (by decide +kernel), some_with (by decide +kernel),
    legal_gang (sid := 0) (n := 0) (sl := none) rfl (by decide +kernel) (by decide +kernel), some_with (by decide +kernel)⟩


/-- A word is legal in another state whose gang issues. -/
theorem legal_at {f : Form} {extra : Bool} {e : Enc} {s : State} (hi : s.issuer = .gang 0 0 none)
    (h : ((findGroup s 0 0).isSome && decide (checkEnc f extra (curGroup s).alloc e = none)) = true) : Legal f extra e s := by
  simp only [Bool.and_eq_true, decide_eq_true_eq] at h
  exact legal_gang hi h.1 h.2

/-- Bytes from HBM address 0x1000. -/
def at1000 (n : Nat) : Nat → List Nat := fun _ => (List.range n).map (memKey 0 0x1000 + ·)

/-- R204 to R206: each load, gather and store of lane 0 at 0x1000; a gather at 0x1001, where its size is more than a byte. -/
theorem witness_GlobalAccesses :
    (∀ p ∈ loadRows.map (·.2.1), let s := memState 9
      GangIssues s (curSid s) (curNum s) (issuerSlice s) ∧ Legal { globalForm p.2 [0, 1] with prologue := true } true (word 4 2 0) s ∧
      FirstIssue .ld (word 4 2 0) s ∧ Reaches (word 4 2 0) .load p.1 p.1 s (at1000 p.1) ∧
      ∀ l ∈ accessesOf (word 4 2 0) s, Correctable s (at1000 p.1 l)) ∧
    (∀ p ∈ gatherRows.map (·.2.1), let s := memState 9
      Legal (gatherForm p.2) true (word 4 2 0) s ∧ FirstIssue .ld (word 4 2 0) s ∧ Reaches (word 4 2 0) .load p.1 p.1 s (at1000 p.1) ∧
      (∀ l ∈ accessesOf (word 4 2 0) s, addressOf (word 4 2 0) p.1 (curGroup s) l % p.1 = 0) ∧
      ∀ l ∈ accessesOf (word 4 2 0) s, Correctable s (at1000 p.1 l)) ∧
    (let s := modCur (memState 9) (writeV 2 0 0x1001)
     Legal (gatherForm 1) true (word 4 2 0) s ∧ FirstIssue .ld (word 4 2 0) s ∧
      ∃ l ∈ accessesOf (word 4 2 0) s, addressOf (word 4 2 0) 4 (curGroup s) l % 4 ≠ 0) ∧
    (∀ p ∈ storeRows.map (·.2), let s := memState 9
      Legal (globalForm p.2 [0, 2]) true (word 4 2 0) s ∧ FirstIssue .st (word 4 2 0) s ∧
      Reaches (word 4 2 0) .store p.1 p.1 s (at1000 p.1)) ∧
    Narrow 8 ((accessesOf (word 4 2 0) (memState 9)).map (addressOf (word 4 2 0) 8 (curGroup (memState 9)))) ∧ (memState 9).late = [] :=
  ⟨fun p hp => ⟨⟨rfl, by decide +kernel⟩, legal_at rfl (by revert p; decide +kernel), by unfold FirstIssue held; decide +kernel,
      by revert p; unfold Reaches; decide +kernel, by revert p; unfold Correctable; decide +kernel⟩,
    fun p hp => ⟨legal_at rfl (by revert p; decide +kernel), by unfold FirstIssue held; decide +kernel,
      by revert p; unfold Reaches; decide +kernel, by revert p; decide +kernel, by revert p; unfold Correctable; decide +kernel⟩,
    ⟨legal_at rfl (by decide +kernel), by unfold FirstIssue held; decide +kernel, by decide +kernel⟩,
    fun p hp => ⟨legal_at rfl (by revert p; decide +kernel), by unfold FirstIssue held; decide +kernel,
      by revert p; unfold Reaches; decide +kernel⟩, by unfold Narrow; decide +kernel, rfl⟩

/-- Lane 0 alone, with deck offset `off` in v6, in a span of one deck unit. -/
def deckState (off : Word) : State :=
  modSpan (modCur (memState 9) (writeV 6 0 off)) 0 fun sp => { sp with deckUnits := [0] }

/-- Form, class, size and word of every deck instruction: loads, stores, the atomics and ATOM.bump. -/
noncomputable def deckRows : List (Form × OpClass × Nat × Enc) :=
  let e := wordX 0x40000 4 6 0
  (deckLoadRows.map fun p => (deckForm p.2 [0, 1], .ld, 4 * p.2, word 8 6 0)) ++
  (deckStoreRows.map fun p => (deckForm p.2 [0, 2], .st, 4 * p.2, word 8 6 0)) ++
  (atomForm 2 2 e, .ld, 8, e) :: atomRows.map fun p => (atomForm p.regs p.align e, .ld, p.size, e)

/-- R199, R202: the deck's last 16 bytes, the offset past its end, and one off alignment. -/
theorem witness_DeckAccesses :
    (∀ p ∈ deckLoadRows.map (·.2), let s := deckState 4080
      (Legal (deckForm p [0, 1]) true (word 8 6 0) s ∧ Legal (deckForm p [0, 2]) true (word 8 6 0) s) ∧
        (FirstIssue .ld (word 8 6 0) s ∧ FirstIssue .st (word 8 6 0) s) ∧ s.late = [] ∧
        ∃ sp, curSpan s = some sp ∧ OnDeck (word 8 6 0) (4 * p) sp s ∧ DeckCorrectable (word 8 6 0) (4 * p) sp s) ∧
    (∀ p ∈ deckRows, let s := deckState 4096
      ∃ sp, curSpan s = some sp ∧ Legal p.1 true p.2.2.2 s ∧ FirstIssue p.2.1 p.2.2.2 s ∧
        ∃ l ∈ accessesOf p.2.2.2 s, let off := deckOffset p.2.2.2 p.2.2.1 (curGroup s)
          off l < 0 ∨ 4096 * (sp.deckUnits.length : Int) < off l + p.2.2.1) ∧
    (∀ p ∈ deckRows, let s := deckState 2
      ∃ sp, curSpan s = some sp ∧ Legal p.1 true p.2.2.2 s ∧ FirstIssue p.2.1 p.2.2.2 s ∧
        (∀ l ∈ accessesOf p.2.2.2 s, let off := deckOffset p.2.2.2 p.2.2.1 (curGroup s)
          0 ≤ off l ∧ off l + p.2.2.1 ≤ 4096 * (sp.deckUnits.length : Int)) ∧
        ∃ l ∈ accessesOf p.2.2.2 s, deckOffset p.2.2.2 p.2.2.1 (curGroup s) l % p.2.2.1 ≠ 0) := by
  refine ⟨fun p hp => ⟨⟨legal_at rfl (by revert p; decide +kernel), legal_at rfl (by revert p; decide +kernel)⟩,
      by revert p; unfold FirstIssue held; decide +kernel, rfl,
      _, ((Option.some_get (x := curSpan _) (by decide +kernel)).symm), by revert p; unfold OnDeck; decide +kernel,
      by revert p; unfold DeckCorrectable; decide +kernel⟩,
    fun p hp => ⟨_, ((Option.some_get (x := curSpan _) (by decide +kernel)).symm), legal_at rfl (by revert p; decide +kernel), by revert p; unfold FirstIssue held; decide +kernel,
      by revert p; decide +kernel⟩,
    fun p hp => ⟨_, ((Option.some_get (x := curSpan _) (by decide +kernel)).symm), legal_at rfl (by revert p; decide +kernel), by revert p; unfold FirstIssue held; decide +kernel,
      by revert p; decide +kernel, by revert p; decide +kernel⟩⟩

/-- R208 to R210: every atomic of lane 0 at 0x1000 and at deck offset 0. -/
theorem witness_AtomicAccesses :
    (∀ p ∈ atomRows.map (fun p => (p.regs, p.align, p.size)), let s := memState 9
      Legal (atomForm p.1 p.2.1 (word 4 2 0)) true (word 4 2 0) s ∧ FirstIssue .ld (word 4 2 0) s ∧ memDeck (word 4 2 0) = false ∧
      (∀ l ∈ accessesOf (word 4 2 0) s, addressOf (word 4 2 0) p.2.2 (curGroup s) l % p.2.2 = 0) ∧
      Reaches (word 4 2 0) .atomic p.2.2 p.2.2 s (at1000 p.2.2) ∧ ∀ l ∈ accessesOf (word 4 2 0) s, Correctable s (at1000 p.2.2 l)) ∧
    (∀ p ∈ atomRows.map (fun p => (p.regs, p.align, p.size)), let s := deckState 0; let e := wordX 0x40000 4 6 0
      memDeck e = true ∧ Legal (atomForm p.1 p.2.1 e) true e s ∧ FirstIssue .ld e s ∧
      ∃ sp, curSpan s = some sp ∧ OnDeck e p.2.2 sp s ∧ DeckCorrectable e p.2.2 sp s) ∧
    (let s := memState 9
     Legal (atomForm 2 2 (word 4 2 0)) true (word 4 2 0) s ∧ FirstIssue .ld (word 4 2 0) s ∧
      Reaches (word 4 2 0) .atomic 8 8 s (at1000 8)) ∧
    (let s := deckState 0; let e := wordX 0x40000 4 6 0
     memDeck e = true ∧ Legal (atomForm 2 2 e) true e s ∧ FirstIssue .ld e s ∧
      ∃ sp, curSpan s = some sp ∧ OnDeck e 8 sp s ∧ DeckCorrectable e 8 sp s) ∧
    (memState 9).late = [] ∧ (deckState 0).late = [] := by
  refine ⟨fun p hp => ⟨legal_at rfl (by revert p; decide +kernel), by unfold FirstIssue held; decide +kernel, rfl, by revert p; decide +kernel,
      by revert p; unfold Reaches; decide +kernel, by revert p; unfold Correctable; decide +kernel⟩,
    fun p hp => ⟨by decide, legal_at rfl (by revert p; decide +kernel), by unfold FirstIssue held; decide +kernel,
      _, ((Option.some_get (x := curSpan _) (by decide +kernel)).symm), by revert p; unfold OnDeck; decide +kernel, by revert p; unfold DeckCorrectable; decide +kernel⟩,
    ⟨legal_at rfl (by decide +kernel), by unfold FirstIssue held; decide +kernel, by unfold Reaches; decide +kernel⟩,
    ⟨by decide, legal_at rfl (by decide +kernel), by unfold FirstIssue held; decide +kernel,
      _, ((Option.some_get (x := curSpan _) (by decide +kernel)).symm), by unfold OnDeck; decide +kernel, by unfold DeckCorrectable; decide +kernel⟩,
    rfl, rfl⟩


/-- `memState` with page 0's leaf changed. -/
def pageState (f : Xlat → Xlat) : State :=
  { memState 9 with vm := { (memState 9).vm with pierTlb := [(0, [{ pageEntry 0 with leaf := f (pageEntry 0).leaf }, pageEntry 1])] } }

/-- An access of `n` bytes fails check `i` first. -/
def checkFails (need : Need) (n i : Nat) (sr : Nat × Nat) (s : State) : Bool :=
  let fails (sr : Nat × Nat) : Bool := (accessesOf (word 4 2 0) s).any fun l =>
    (curRun s need (addressOf (word 4 2 0) n (curGroup s) l) n).any (partFault (curReplay s) sr.1 sr.2)
  let order : List (Nat × Nat) := [(2, 6), (3, 9), (3, 7), (3, 8), (4, 6), (5, 10)]
  decide (order[i]? = some sr) && fails sr && (order.take i).all fun x => !fails x

/-- The same machine with its launch replayable (R217). -/
def replays (s : State) : State := { s with launches := s.launches.map fun p => (p.1, { p.2 with record := BitVec.ofNat 1024 (2 ^ (8 * 32 + 2)) }) }

/-- An address outside the address space, one that nothing maps, in a launch that traps and in one that parks. -/
def faraway (hi : Word) : State := modCur (memState 9) (writeV 3 0 hi)

/-- R202, R203: each check that a load, a store or an atomic can fail first, and an atomic off alignment; every row that parks. -/
theorem witness_AccessChecks :
    (∀ n ∈ [1, 16], checkFails .load n 0 (2, 6) (faraway 0x02000000) ∧ checkFails .load n 1 (3, 9) (pageState fun x => { x with r := false }) ∧
      checkFails .load n 4 (4, 6) (faraway 1) ∧ checkFails .load n 5 (5, 10) (pageState fun x => { x with hostOwned := true })) ∧
    (∀ n ∈ [1, 16], checkFails .store n 0 (2, 6) (faraway 0x02000000) ∧ checkFails .store n 2 (3, 7) (pageState fun x => { x with w := false }) ∧
      checkFails .store n 4 (4, 6) (faraway 1) ∧ checkFails .store n 5 (5, 10) (pageState fun x => { x with hostOwned := true })) ∧
    (∀ n ∈ [4, 64], checkFails .atomic n 0 (2, 6) (faraway 0x02000000) ∧ checkFails .atomic n 1 (3, 9) (pageState fun x => { x with r := false }) ∧
      checkFails .atomic n 2 (3, 7) (pageState fun x => { x with w := false }) ∧
      checkFails .atomic n 4 (4, 6) (faraway 1) ∧ checkFails .atomic n 5 (5, 10) (pageState fun x => { x with hostOwned := true })) ∧
    (∀ s ∈ [faraway 0x02000000, faraway 1, pageState fun x => { x with r := false }, pageState fun x => { x with w := false },
        pageState fun x => { x with hostOwned := true }, replays (faraway 1)], ∀ p ∈ globalRows, GlobalIssues p (word 4 2 0) s) ∧
    (let s := modCur (memState 9) (writeV 2 0 0x1001)
     ∀ p ∈ globalRows, p.natural = true → Legal (p.form (word 4 2 0)) true (word 4 2 0) s ∧ memDeck (word 4 2 0) = false ∧
      FirstIssue p.cls (word 4 2 0) s ∧ ∃ l ∈ accessesOf (word 4 2 0) s, addressOf (word 4 2 0) p.size (curGroup s) l % p.size ≠ 0) ∧
    (let s := replays (faraway 1)
     curReplay s = true ∧ accessesOf (word 4 2 0) s ≠ [] ∧ ∀ p ∈ globalRows, ∀ l ∈ accessesOf (word 4 2 0) s,
      ∀ q ∈ curRun s p.need (addressOf (word 4 2 0) p.size (curGroup s) l) p.size, q.at_ = .absent) := by
  refine ⟨by decide +kernel, by decide +kernel, by decide +kernel, fun s hs p hp => ?_,
    fun p hp h => ⟨legal_at rfl (by clear h; revert p; decide +kernel), rfl, by clear h; unfold FirstIssue held; revert p; decide +kernel,
      by revert p; decide +kernel⟩, by decide +kernel⟩
  have hi : s.issuer = .gang 0 0 none := by
    clear hp p
    revert s
    decide +kernel
  have hg : (findGroup s 0 0).isSome = true := by
    clear hp p hi
    revert s
    decide +kernel
  refine ⟨legal_at hi (by clear hi hg; revert p s; decide +kernel), ?_, by unfold FirstIssue held; clear hi hg; revert p s; decide +kernel, fun _ => ?_⟩
  · unfold GangIssues curSid curNum issuerSlice
    rw [hi]
    exact ⟨rfl, hg⟩
  · clear hi hg
    revert p s
    decide +kernel
/-- A span with a tag partition of four slots, some of them taken. -/
def withTags (l : List TagEntry) : State := modSpan (memState 9) 0 fun sp => { sp with tags := l }

/-- Four invalid slots; a full set. -/
def freeTags : List TagEntry := List.replicate 4 ⟨false, 0, 0⟩
def fullTags : List TagEntry := [⟨true, 5, 1⟩, ⟨true, 6, 2⟩, ⟨true, 7, 3⟩, ⟨true, 8, 4⟩]

/-- R211 to R213: a free and a full set, a key that is present and one that is absent; an instruction with and without a partition; each
CCTL operation. -/
theorem witness_TagsAndCaches :
    (∃ sp, curSpan (withTags freeTags) = some sp ∧ sp.tags.length = 4 * 2 ^ 0 ∧ (tagInstall 9 sp).2.toNat < 0x80000000 ∧ tagFind sp 9 = none) ∧
    (∃ sp, curSpan (withTags fullTags) = some sp ∧ sp.tags.length = 4 * 2 ^ 0 ∧ 0x80000000 ≤ (tagInstall 9 sp).2.toNat ∧ tagFind sp 7 = some 2) ∧
    (∀ l ∈ [[], freeTags], let s := withTags l
      Legal { rd := .reg 1 1, ra := .reg 2 2, rb := .unused, mem := some ⟨[0], false, false⟩ } true (word 5 2 0) s ∧
      counter (curGroup s) .ld ≠ 63 ∧ ¬ held (word 5 2 0) s ∧ ∃ sp, curSpan s = some sp ∧ sp.tags = l) ∧
    (∀ rd ∈ [(0 : BitVec 6), 1, 2, 3, 4], let s := memState 9; let e := word rd 2 0
      Legal { rd := .index 5, ra := .reg 2 2, rb := .imm, mem := some ⟨[0], false, false⟩ } true e s ∧ FirstIssue .st e s ∧
      Reaches e .load 1 64 s (at1000 1)) := by
  refine ⟨some_with (by decide +kernel), some_with (by decide +kernel), ?_, ?_⟩
  · intro l hl
    exact ⟨legal_at rfl (by revert l; decide +kernel), by revert l; decide +kernel, by unfold held; revert l; decide +kernel,
      some_with (by revert l; decide +kernel)⟩
  · intro rd hr
    exact ⟨legal_at rfl (by revert rd; decide +kernel), by unfold FirstIssue held; revert rd; decide +kernel,
      by unfold Reaches; revert rd; decide +kernel⟩

/-- A group that runs, with an operation of each kind in flight. -/
def opsState (f : OpRec → OpRec) : State :=
  gangWith fun g => { g with opCount := 4, ops := [f ⟨0, .ld, .lsu, 3, [.lane 4 0 7], 1, none, none, true, false, [], false⟩,
    f ⟨1, .ld, .gather, 3, [.lane 5 1 7], 1, none, none, true, false, [], false⟩,
    f ⟨2, .ld, .conversion, 3, [.lane 6 0 7], 1, none, none, true, false, [], false⟩,
    f ⟨3, .dc, .decode, 3, [.group 7 7], 1, none, none, true, false, [], false⟩] }

/-- R12, R13, R207, R309: an operation of each kind that may complete, without a cause and with one; ones that may not; a conversion that fails;
a gather with an error; an operation behind another of its class. -/
theorem witness_OperationsComplete :
    (∀ c ∈ [none, some (causeOf 3 25)], let s := opsState fun o => { o with cause := c }
      (completionRows.map (·.2)).zipIdx.all fun k => decide (∃ sp ∈ findSpan s 0, sp.place = .running 0 ∧ ∃ g ∈ sp.groups[0]?, ∃ o ∈ findOp g k.2,
        o.kind = k.1 ∧ o.ready = true ∧ o.done = false ∧ o.ports = [] ∧ o.cause = c ∧ s.late = [] ∧ groupLoadOpen g = false)) ∧
    (let s := opsState fun o => { o with ready := false }
     (completionRows.map (·.2)).zipIdx.all fun k => decide (∃ sp ∈ findSpan s 0, ∃ g ∈ sp.groups[0]?, ∃ o ∈ findOp g k.2, o.ready = false)) ∧
    ((∀ c ∈ [none, some (causeOf 3 25)], ∀ o : OpRec, o.cause = c → ¬ Breaks o) ∧
      (∃ sp ∈ findSpan (opsState fun o => { o with cause := some (causeOf 5 17) }) 0, sp.place = .running 0 ∧ ∃ g ∈ sp.groups[0]?, ∃ o ∈ findOp g 2,
        o.kind = .conversion ∧ o.ready = true ∧ o.done = false ∧ o.ports = [] ∧ o.cause = some (causeOf 5 17) ∧ (causeOf 5 17).toNat / 32 = 5) ∧
      OtherRegister 7 0 (.lane 6 0 7)) ∧
    (∃ sp ∈ findSpan (opsState id) 0, sp.place = .running 0 ∧ ∃ g ∈ sp.groups[0]?, ∃ o ∈ findOp g 1, o.kind = .gather ∧ o.ready = true ∧
      o.done = false ∧ o.ports = [] ∧ o.cause = none ∧ (2 : LaneMask).getLsbD 1 = true ∧ o.lanes.getLsbD 1 = true ∧
      (∀ w ∈ o.writes, ∃ r' l' v, w = .lane r' l' v ∧ l' < 32) ∧ groupExited g = false) ∧
    (∃ sp ∈ findSpan (opsState id) 0, ∃ g ∈ sp.groups[0]?, (∀ x ∈ g.ops, x.done = false) ∧ (g.ops.map (·.id)).Nodup ∧
      ∃ x ∈ g.ops[0]?, ∃ o ∈ g.ops[1]?, x.cls = o.cls ∧ findOp g 1 = some o) := by
  refine ⟨by decide +kernel, by decide +kernel, ⟨?_, by decide +kernel, by decide, by decide⟩, ?_, by decide +kernel⟩
  · rintro c hc o ho ⟨-, d, h, h5⟩
    have hd : ∀ c ∈ [none, some (causeOf 3 25)], ∀ d ∈ c, d.toNat / 32 ≠ 5 := by decide
    exact hd c hc d (ho.symm.trans h) h5
  have h : ∃ sp ∈ findSpan (opsState id) 0, sp.place = .running 0 ∧ ∃ g ∈ sp.groups[0]?, ∃ o ∈ findOp g 1, o.kind = .gather ∧ o.ready = true ∧
      o.done = false ∧ o.ports = [] ∧ o.cause = none ∧ o.lanes.getLsbD 1 = true ∧ o.writes = [.lane 5 1 7] ∧ groupExited g = false := by
    decide +kernel
  obtain ⟨sp, hs, hp, g, hg, o, ho, h1, h2, h3, h4, h5, h6, h7, h8⟩ := h
  refine ⟨sp, hs, hp, g, hg, o, ho, h1, h2, h3, h4, h5, by decide, h6, ?_, h8⟩
  rw [h7]
  intro w hw
  exact ⟨5, 1, 7, by simpa using hw, by decide⟩


/-- Page tables of context 0 at 0x100000, 0x1000, 0x2000 and 0x3000 that map page 7 + 512 (3 + 512 (5 + 512 · 2)) to HBM byte 0x5000. -/
def tablesState : State :=
  { State.reset with
    mem := [(0x100010, 0x1001), (0x1028, 0x2001), (0x2018, 0x3001), (0x3038, 0x5003)].foldl
      (fun m p => cellSetRange 0 m (memKey 0 p.1) (natToBytes 8 p.2)) (cellSetRange 0 State.reset.mem (memKey 0 0) (natToBytes 64 0x100001)) }

/-- A window of context 0. -/
def testWindow : Window := ⟨0, true, 0x200000, 0x600000, 0x400000, 6⟩
def windowState : State := { State.reset with vm := { State.reset.vm with windows := [testWindow] } }

/-- R271 to R274: no window and no valid context at reset; a window's first and last address; a walk through four tables; a translation held
by the TLB; a leaf that denies a read, one that denies a write, one owned by the host, and one that allows all. -/
theorem witness_Translation :
    (heldWindow State.reset 0 = none ∧ ctxPresent State.reset 0 = true ∧ ctxEntry State.reset 0 % 2 = 0) ∧
    (let s := { State.reset with vm := { State.reset.vm with hbmcap := List.replicate 8 0 } }
     heldWindow s 0 = none ∧ ctxPresent s 0 = false ∧ frameExists s 0 (0x1000 / 2 ^ 21) = false) ∧
    (heldWindow windowState 0 = some testWindow ∧ testWindow.valid = true ∧ testWindow.base ≤ 0x200000 ∧ 0x5FFFFF < testWindow.limit ∧
      windowLegal testWindow = true) ∧
    (let s := tablesState
     let va := 4096 * (7 + 512 * (3 + 512 * (5 + 512 * 2)))
     ctxPresent s 0 = true ∧ (∀ p ∈ [0x100000, 0x1000, 0x2000, 0x3000], frameExists s 0 (p / 2 ^ 21) = true) ∧
      ctxEntry s 0 / 2 ^ 54 % 4 = 0 ∧ ctxEntry s 0 / 2 ^ 20 % 2 ^ 32 * 2 ^ 20 = 0x100000 ∧
      readPhys s 0 (0x100000 + 8 * (va / 2 ^ 39)) 8 = 1 + 0x1000 + 2 ^ 54 * 0 ∧ readPhys s 0 (0x1000 + 8 * (va / 2 ^ 30 % 512)) 8 = 1 + 0x2000 + 2 ^ 54 * 0 ∧
      readPhys s 0 (0x2000 + 8 * (va / 2 ^ 21 % 512)) 8 = 1 + 0x3000 + 2 ^ 54 * 0 ∧ readPhys s 0 (0x3000 + 8 * (va / 2 ^ 12 % 512)) 8 = 0x5003 ∧
      0x5003 % 4 = 3 ∧ Nat.testBit 0x5003 52 = false) ∧
    (heldWindow (memState 9) 0 = some ⟨0, false, 0, 0, 0, 0⟩ ∧ ∃ x, look (memState 9) (some 0) 0 0x1000 = .ok x ∧ x = (pageEntry 0).leaf) ∧
    look (pageState fun x => { x with r := false }) (some 0) 0 0x1000 = .ok { (pageEntry 0).leaf with r := false } ∧
    look (pageState fun x => { x with w := false }) (some 0) 0 0x1000 = .ok { (pageEntry 0).leaf with w := false } ∧
    (look (pageState fun x => { x with hostOwned := true }) (some 0) 0 0x1000 = .ok { (pageEntry 0).leaf with hostOwned := true } ∧
      frameExists (memState 9) 0 (leafPa (pageEntry 0).leaf 0x1000 / 2 ^ 21) = true) ∧
    frameLocked (memState 9) 0 (leafPa (pageEntry 0).leaf 0x1000 / 2 ^ 21) = false ∧ allows .load (pageEntry 0).leaf := by
  unfold allows
  refine ⟨?_, ?_, ?_, ?_, ⟨?_, _, ?_, rfl⟩, ?_⟩ <;> decide +kernel

/-- A buffer record: base 0x1000, format `f`, encoding 0, one channel, extents 8, 1, 1, scale 1.0, border `b`, further bits. -/
def bufRecord (f b more : Nat) : BitVec 320 :=
  BitVec.ofNat 320 (0x1000 + 2 ^ 57 * f + 2 ^ 76 * b + 2 ^ 80 * 0x3F800000 + 2 ^ 128 * 8 + 2 ^ 148 + 2 ^ 168 + more)

/-- The launch has one buffer record; lane 0 alone, coordinate (2, 0, 0) in v8 to v10, 9 in v4. -/
def bufState (r : BitVec 320) : State :=
  let s := modCur (memState 9) (fun g => writeV 8 0 2 (writeV 9 0 0 (writeV 10 0 0 g)))
  { s with launches := s.launches.map fun p => (p.1, { p.2 with buffers := [r] }) }

/-- R298 to R302, R312 to R315: BLD of element 2, which holds 3, BST to it, BST to a read-only record, SMP.near of texel 0, which holds 1. -/
theorem witness_BufferAccesses :
    (let r := bufRecord fmtZ8 0 0
     let s := bufState r
     let e := word 4 8 0
     Legal (recordForm [0, 1] s r) (!memRp e) e s ∧ curRecord s 0 = some r ∧ FirstIssue .ld e s ∧ bufEnc r ∈ [0, 1, 2, 5] ∧ accessesOf e s = [0] ∧
      LoadsLane s r e 0 (channelWords r [elemLoad r 127 3], (elemLoad r 127 3).2)) ∧
    (let r := bufRecord fmtZ8 0 0
     let s := bufState r
     let e := word 4 8 0
     Legal (recordForm [0, 2] s r) (!memRp e) e s ∧ FirstIssue .st e s ∧ bufReadOnly r = false ∧
      StoresLane s r e 0 [([memKey 0 0x1002], 0, (elemStore r 127 9).1)] (elemStore r 127 9).2 ∧ StoresWhole s r e ∧ s.late = []) ∧
    (let r := bufRecord fmtZ8 0 (2 ^ 289)
     let s := bufState r
     let e := word 4 8 0
     Legal (recordForm [0, 2] s r) (!memRp e) e s ∧ curRecord s 0 = some r ∧ FirstIssue .st e s ∧ bufReadOnly r = true) ∧
    (let r := bufRecord fmtZ8 3 0
     let s := bufState r
     let e := word 4 8 0
     Legal (recordForm [0, 1] s r) (!memRp e) e s ∧ curRecord s 0 = some r ∧ FirstIssue .ld e s ∧
      bufFormat r ∉ [fmtZ32, fmtS32, fmtF64, fmtE8] ∧
      ∃ w, SamplesLane .near s r e 0 w) := by
  refine ⟨⟨legal_at rfl (by decide +kernel), by decide +kernel, by unfold FirstIssue held; decide +kernel, by decide +kernel, by decide +kernel, ?_⟩,
    ⟨legal_at rfl (by decide +kernel), by unfold FirstIssue held; decide +kernel, by decide +kernel, ?_, .inr ?_, rfl⟩,
    ⟨legal_at rfl (by decide +kernel), by decide +kernel, by unfold FirstIssue held; decide +kernel, by decide +kernel⟩,
    ⟨legal_at rfl (by decide +kernel), by decide +kernel, by unfold FirstIssue held; decide +kernel, by decide +kernel, ?_⟩⟩
  · unfold LoadsLane
    rw [show laneTexel (bufRecord fmtZ8 0 0) false (curGroup (bufState (bufRecord fmtZ8 0 0))) (word 4 8 0) 0 = .at 2 0 0 by decide +kernel]
    refine ⟨[elemLoad (bufRecord fmtZ8 0 0) 127 3], ⟨127, fun _ => 3, fun _ => rfl, fun h => absurd h (by decide +kernel), ?_, by decide +kernel⟩,
      by decide +kernel⟩
    intro c hc
    have hc0 : c = 0 := Nat.lt_one_iff.mp (by rwa [show bufChannels (bufRecord fmtZ8 0 0) = 1 by decide +kernel] at hc)
    subst hc0
    exact ⟨[memKey 0 0x1002], by decide +kernel, by unfold Correctable; decide +kernel, by decide +kernel⟩
  · unfold StoresLane
    rw [show laneTexel (bufRecord fmtZ8 0 0) true (curGroup (bufState (bufRecord fmtZ8 0 0))) (word 4 8 0) 0 = .at 2 0 0 by decide +kernel]
    refine ⟨?_, by decide +kernel⟩
    rw [show storedChannels (bufRecord fmtZ8 0 0) (curPattern (bufState (bufRecord fmtZ8 0 0)) (bufRecord fmtZ8 0 0)) 2 0 0 = [0] by decide +kernel]
    exact .cons ⟨by decide +kernel, by decide +kernel, by decide +kernel⟩ .nil
  · intro l hl x y z h
    have ha : accessesOf (word 4 8 0) (bufState (bufRecord fmtZ8 0 0)) = [0] := by decide +kernel
    rw [ha, List.mem_singleton] at hl
    subst hl
    rw [show laneTexel (bufRecord fmtZ8 0 0) true (curGroup (bufState (bufRecord fmtZ8 0 0))) (word 4 8 0) 0 = .at 2 0 0 by decide +kernel] at h
    cases h
    decide +kernel
  · refine ⟨_, [[texelValue (bufRecord fmtZ8 3 0) (elemLoad (bufRecord fmtZ8 3 0) 127 1)]], ?_, rfl⟩
    have h : (sampleTexels .near (bufRecord fmtZ8 3 0) (word 4 8 0) (curGroup (bufState (bufRecord fmtZ8 3 0))) 0).map (·.1) = [.at 0 0 0] := by
      decide +kernel
    revert h
    generalize sampleTexels .near (bufRecord fmtZ8 3 0) (word 4 8 0) (curGroup (bufState (bufRecord fmtZ8 3 0))) 0 = l
    intro h
    obtain ⟨p, rfl, hp⟩ : ∃ p, l = [p] ∧ p.1 = .at 0 0 0 := by
      cases l with
      | nil => cases h
      | cons p rest => cases rest with
        | nil => exact ⟨p, rfl, (List.cons.inj h).1⟩
        | cons q r => cases (List.cons.inj h).2
    · refine .cons ?_ .nil
      rw [hp]
      refine ⟨[elemLoad (bufRecord fmtZ8 3 0) 127 1], ⟨127, fun _ => 1, fun _ => rfl, fun h => absurd h (by decide +kernel), ?_, by decide +kernel⟩, rfl⟩
      intro c hc
      have hc0 : c = 0 := Nat.lt_one_iff.mp (by rwa [show bufChannels (bufRecord fmtZ8 3 0) = 1 by decide +kernel] at hc)
      subst hc0
      exact ⟨[memKey 0 0x1000], by decide +kernel, by unfold Correctable; decide +kernel, by decide +kernel⟩


/-- An answer of a decode that is no error. -/
theorem ok_of {α β ε : Type} {r : Except ε (α × β)} (h : r.toOption.isSome = true) : ∃ a b, r = .ok (a, b) := by
  cases r with
  | error x => cases h
  | ok p => exact ⟨p.1, p.2, rfl⟩

/-- A deck that holds a line of 200 elements with one-bit codes, alternately 1 and 0, the last of its tile; the table of symbols 0 and 1;
the cursor at 0 in g2:g3. -/
def codedState : State :=
  let s := modSpan gangState 0 fun sp => { sp with deckUnits := [0], tables := sp.tables.set 0 (some 0x11) }
  { s with deck := cellSetRange 0 s.deck (deckKey 0 0) (natToBytes 64 (200 + 2 ^ 12 + 2 ^ 16 * (2 ^ 200 / 3))) }

theorem coded_span : (curSpan codedState).isSome = true := by decide +kernel

/-- A table image in g2's memory, all lanes active. -/
def tableState (va : Word) : State := modCur (mapped { gangState with mem := (memState 9).mem }) (writeG 2 va)

/-- R317, R318: a decode of 128 and of 32 elements, then the parts 5 and 7; one lane alone; LDT of an aligned table and of one off alignment. -/
theorem witness_Decoding :
    (∀ n ∈ [128, 32], let s := codedState; let e := wordX 8 4 2 0
      Legal vdecForm (xpBit e 13) e s ∧ actLanes e s = 0xFFFFFFFF ∧ counter (curGroup s) .dc ≠ 63 ∧
      (cursorOf (curGroup s) (locNum (raLoc e))).off % 64 = 0 ∧
      ∃ sp, curSpan s = some sp ∧ ∃ es c', vdecWalk sp.tables (deckSize sp) (deckLine s sp) (deckSize sp / 64 + 1)
        (cursorOf (curGroup s) (locNum (raLoc e))) n = .ok (es, c')) ∧
    (let s := memState 9; let e := wordX 8 4 2 0
     Legal vdecForm (xpBit e 13) e s ∧ actLanes e s ≠ 0xFFFFFFFF) ∧
    (∃ sp, curSpan codedState = some sp ∧ ∃ es c' es' c'',
      vdecWalk sp.tables (deckSize sp) (deckLine codedState sp) (deckSize sp / 64 + 1) ⟨0, 0, 0⟩ 5 = .ok (es, c') ∧
      vdecWalk sp.tables (deckSize sp) (deckLine codedState sp) (deckSize sp / 64 + 1) c' 7 = .ok (es', c'')) ∧
    (let s := tableState 0x1000; let e := wordU 0 2 7
     Legal { rd := .unused, ra := .reg 2 2, rb := .index 8, u := .one, mem := some ⟨[0, 1], false, true⟩ } (!memRp e) e s ∧
      FirstIssue .dc e s ∧ actLanes e s ≠ 0 ∧ (pair (curGroup s) 0 (raLoc e)).toNat % 128 = 0 ∧
      memKeys (curRun s .load (pair (curGroup s) 0 (raLoc e)).toNat 128) = some (at1000 128 0) ∧ Correctable s (at1000 128 0) ∧
      tableLegal (BitVec.ofNat 1024 (valueAt (readByte s.mem) (at1000 128 0))) = true) ∧
    (let s := tableState 0x1001; let e := wordU 0 2 7
     Legal { rd := .unused, ra := .reg 2 2, rb := .index 8, u := .one, mem := some ⟨[0, 1], false, true⟩ } (!memRp e) e s ∧
      FirstIssue .dc e s ∧ actLanes e s ≠ 0 ∧ (pair (curGroup s) 0 (raLoc e)).toNat % 128 ≠ 0) := by
  refine ⟨fun n hn => ⟨legal_at rfl (by decide +kernel), by decide +kernel, by decide +kernel, by decide +kernel, _, (Option.some_get coded_span).symm,
      ok_of (by revert n; decide +kernel)⟩,
    ⟨legal_at rfl (by decide +kernel), by decide +kernel⟩, ⟨_, (Option.some_get coded_span).symm, ?_⟩,
    ⟨legal_at rfl (by decide +kernel), by unfold FirstIssue held; decide +kernel, by decide +kernel, by decide +kernel, by decide +kernel,
      by unfold Correctable; decide +kernel, by decide +kernel⟩,
    ⟨legal_at rfl (by decide +kernel), by unfold FirstIssue held; decide +kernel, by decide +kernel, by decide +kernel⟩⟩
  obtain ⟨es, c', h⟩ := ok_of (r := vdecWalk ((curSpan codedState).get coded_span).tables (deckSize ((curSpan codedState).get coded_span))
    (deckLine codedState ((curSpan codedState).get coded_span)) (deckSize ((curSpan codedState).get coded_span) / 64 + 1) ⟨0, 0, 0⟩ 5) (by decide +kernel)
  have hc : c' = ⟨0, 5, 5⟩ := by
    have hd : (vdecWalk ((curSpan codedState).get coded_span).tables (deckSize ((curSpan codedState).get coded_span))
      (deckLine codedState ((curSpan codedState).get coded_span)) (deckSize ((curSpan codedState).get coded_span) / 64 + 1) ⟨0, 0, 0⟩ 5).toOption.map (·.2) =
        some ⟨0, 5, 5⟩ := by decide +kernel
    rw [h] at hd
    exact Option.some.inj hd
  obtain ⟨es', c'', h'⟩ := ok_of (r := vdecWalk ((curSpan codedState).get coded_span).tables (deckSize ((curSpan codedState).get coded_span))
    (deckLine codedState ((curSpan codedState).get coded_span)) (deckSize ((curSpan codedState).get coded_span) / 64 + 1) ⟨0, 5, 5⟩ 7) (by decide +kernel)
  exact ⟨es, c', es', c'', h, hc ▸ h'⟩

/-- A reservation of three granules: format, scale block, dense mode. -/
def reserved (f block : Nat) : Reservation := ⟨BitVec.ofNat 256 (1 + 2 + 2 ^ 28 * 3 + 2 ^ 37 * f + 2 ^ 44 * block + 2 ^ 47 * 2048), 0⟩

/-- It is reservation 2 of the span that issues, whose code pages are mapped, lane by lane an address in v2:v3 and an index in v4, and bytes
in memory at 0x1000. -/
def matrixState (r : Reservation) (m : List Byte) : State :=
  let s := modSpan withGranules 0 fun sp => { sp with reservations := sp.reservations.set 2 r }
  let s := modCur s fun g => { g with
    vregs := (List.range 32).map (fun l => (64 + l, BitVec.ofNat 32 (0x1000 + 64 * l))) ++ (List.range 31).map fun l => (129 + l, BitVec.ofNat 32 (1 + l)) }
  { mapped s with mem := cellSetRange 0 s.mem (memKey 0 0x1000) m }

/-- The same with the pier's matrix FIFO, and an operation of the group, as given. -/
def fifoState (x : MatrixEntry) (o : OpRec) : State :=
  let s := matrixState (reserved fmtS8 0) [1, 2, 3, 4]
  modCur { s with matrix := [(0, [x])] } fun g => { g with ops := [o] }

/-- An operation of the matrix engine. -/
def matrixOp : OpRec := ⟨0, .mx, .engine, 0xFFFFFFFF, [.lane 0 0 7], 0, none, none, true, false, [], false⟩

/-- A plain load of two lanes into reservation 2. -/
def loadEntry (started : Bool) (b : Option Nat) : MatrixEntry := ⟨0, 0, 0, 2, .load 0 [(0, 0x1000, 0), (1, 0x1040, 5)], b, started⟩

/-- An MMA whose C ends below its A, and that does not scale by one of C's registers. -/
theorem no_overlap {m : MmaShape} {e : Enc} (h : locNum (rdLoc e) + m.cRegs ≤ locNum (raLoc e) ∧
    ¬ (m.scaled = true ∧ locNum (rdLoc e) ≤ rcField e ∧ rcField e < locNum (rdLoc e) + m.cRegs)) : ¬ overlaps m e := by
  rintro (⟨r, -, h2, h3, -⟩ | h4)
  · omega
  · exact h.2 h4

/-- R338 to R340: descriptors refused and granted, reservations absent, named by an entry, and free; R341 to R344: OBLD, OBLDT and each MMA on
one lane, on an unfit reservation, and on one that serves. -/
theorem witness_MatrixIssue :
    (let s := modCur withGranules (writeG 4 0); let e := wordU 4 0 2
     Legal { rd := .reg 1 1, ra := .unused, rb := .index 16, xp := .zero, u := .one } true e s ∧ ¬ held e s ∧
      ∃ sp, curSpan s = some sp ∧ (readG (curGroup s) 4).toNat = 0 ∧ (grantRes sp 2 0).isNone = true) ∧
    (let s := modCur withGranules (writeG 4 0x1803); let e := wordU 4 0 2
     Legal { rd := .reg 1 1, ra := .unused, rb := .index 16, xp := .zero, u := .one } true e s ∧ ¬ held e s ∧
      ∃ sp, curSpan s = some sp ∧ (readG (curGroup s) 4).toNat = 0x1803 ∧ (grantRes sp 2 0x1803).isNone = false) ∧
    (∀ p ∈ [(withGranules, false, false), (fifoState (loadEntry false none) matrixOp, true, true), (matrixState (reserved fmtS8 0) [], true, false)],
      let e := wordU 0 0 2
      decide (checkEnc { rd := .unused, ra := .unused, rb := .index 16, xp := .zero, u := .one } true (curGroup p.1).alloc e = none) = true ∧
      ¬ held e p.1 ∧ ∃ sp, curSpan p.1 = some sp ∧ resValid (spanRes sp 2) = p.2.1 ∧ resPending p.1 (curSid p.1) 2 = p.2.2) ∧
    (let s := matrixState (reserved fmtS8 0) []; let e := word 4 2 2
     Legal { rd := .reg 1 1, ra := .reg 2 2, rb := .imm, u := .zero, mem := some ⟨[0, 1], false, true⟩ } (decide (e.rb.toNat / 16 < 3)) e s ∧
      myParked s = [] ∧ actLanes e s = 0xFFFFFFFF ∧ matrixRoom s ∧
      ∃ sp, curSpan s = some sp ∧ resValid (spanRes sp 2) = true ∧
        (∀ l, l < 32 → obldOut 0 (spanRes sp 2) (readLoc (curGroup s) l (rdLoc e)).toNat = false ∧ (pair (curGroup s) l (raLoc e)).toNat % 8 = 0) ∧
        ∀ l, l < 32 → (memKeys (curRun s .load (pair (curGroup s) l (raLoc e)).toNat (rowBytes (resFormat (spanRes sp 2))))).isSome = true) ∧
    (let s := modCur (matrixState (reserved fmtS8 0) (natToBytes 16 (2 ^ 40))) fun g => writeG 2 0x1000 (writeG 4 0x1040 g); let e := wordU 4 2 2
     Legal { rd := .reg 2 2, ra := .reg 2 2, rb := .index 16, u := .one, mem := some ⟨[0, 1], false, true⟩ } true e s ∧ myParked s = [] ∧
      ¬ held e s ∧ actLanes e s = 0xFFFFFFFF ∧ matrixRoom s ∧ memKeys (curRun s .load 0x1000 16) = some (at1000 16 0) ∧
      Correctable s (at1000 16 0) ∧ valueAt (readByte s.mem) (at1000 16 0) = 2 ^ 40 ∧
      (memKeys (curRun s .load (0x1040 + 64 * tileOffset (2 ^ 40)) (64 * tileLines (2 ^ 40)))).isSome = true ∧
      ∃ sp, curSpan s = some sp ∧ obldtRefused (spanRes sp 2) (some (2 ^ 40)) = false ∧ obldtRefused (spanRes sp 2) (some (2 ^ 59)) = true) ∧
    (∀ k ∈ [(2 : BitVec 6), 3], let s := modCur (matrixState (reserved fmtS8 1) []) fun g => writeG 2 0x1000 (writeG 4 0x1040 g); let e := wordU 4 2 k
     Legal { rd := .reg 2 2, ra := .reg 2 2, rb := .index 16, u := .one, mem := some ⟨[0, 1], false, true⟩ } true e s ∧ myParked s = [] ∧
      ¬ held e s ∧ actLanes e s = 0xFFFFFFFF ∧ matrixRoom s ∧ (pair (curGroup s) 0 (raLoc e)).toNat % 16 = 0 ∧
      (pair (curGroup s) 0 (rdLoc e)).toNat % 64 = 0 ∧ memKeys (curRun s .load (pair (curGroup s) 0 (raLoc e)).toNat 16) = some (at1000 16 0) ∧
      ∃ sp, curSpan s = some sp ∧ (if k = 2 then resBlock (spanRes sp 2) ≠ 0 else resValid (spanRes sp 3) = false)) ∧
    (∀ f ∈ mmaRows.map (·.2), let m := mmaShape f
      let s := matrixState (reserved m.format (if m.scaled then 5 else 0)) []; let e := wordX (if m.scaled then 1282 else 2) 0 0 2
      Legal (mmaForm m) (mmaLegal e) e s ∧ actLanes e s = 0xFFFFFFFF ∧ ¬ overlaps m e ∧ matrixRoom s ∧
      (let e' := wordX (if m.scaled then 1280 else 0) 0 0 2; Legal (mmaForm m) (mmaLegal e') e' s ∧ actLanes e' s = 0xFFFFFFFF ∧ overlaps m e') ∧
      ∃ sp, curSpan s = some sp ∧ mmaRefused m (spanRes sp 2) (projectedMode s (curSid s) 2 sp) = false ∧
        mmaRefused m (spanRes sp 3) (projectedMode s (curSid s) 3 sp) = true) := by
  refine ⟨⟨legal_at rfl (by decide +kernel), by unfold held; decide +kernel, some_with (by decide +kernel)⟩,
    ⟨legal_at rfl (by decide +kernel), by unfold held; decide +kernel, some_with (by decide +kernel)⟩, fun p hp => ⟨by revert p; decide +kernel, by unfold held; revert p; decide +kernel, some_with (by revert p; decide +kernel)⟩,
    ⟨legal_at rfl (by decide +kernel), by decide +kernel, by decide +kernel, by unfold matrixRoom; decide +kernel, some_with (by decide +kernel)⟩,
    ⟨legal_at rfl (by decide +kernel), by decide +kernel, by unfold held; decide +kernel, by decide +kernel, by unfold matrixRoom; decide +kernel,
      by decide +kernel, by unfold Correctable; decide +kernel, by decide +kernel, by decide +kernel, some_with (by decide +kernel)⟩,
    fun k hk => ⟨legal_at rfl (by revert k; decide +kernel), by decide +kernel, by unfold held; revert k; decide +kernel, by revert k; decide +kernel,
      by unfold matrixRoom; decide +kernel, by revert k; decide +kernel, by revert k; decide +kernel, by revert k; decide +kernel,
      some_with (by revert k; decide +kernel)⟩,
    fun f hf => ⟨legal_at rfl (by revert f; decide +kernel), by revert f; decide +kernel, no_overlap (by revert f; decide +kernel),
      by unfold matrixRoom; revert f; decide +kernel,
      ⟨legal_at rfl (by revert f; decide +kernel), by revert f; decide +kernel, .inl ⟨0, by revert f; decide +kernel⟩⟩,
      some_with (by revert f; decide +kernel)⟩⟩

/-- An MMAX.s8 on zeros. -/
def mmaxEntry : MatrixEntry := ⟨0, 0, 0, 2, .mma .xs8 (List.replicate 32 (List.replicate 16 0)) (List.replicate 32 0) 0 1, none, false⟩

/-- R328, R331, R344: an MMAX and a load at the head of the FIFO, not started; a started load without a barrier, and with one of which the
count leaves room. -/
theorem witness_MatrixArray :
    (let s := fifoState mmaxEntry matrixOp
     fifo s 0 = [mmaxEntry] ∧ mmaxEntry.started = false ∧
      ∃ sp, findSpan s 0 = some sp ∧ (sp.groups[0]?.bind fun g => findOp g 0) = some matrixOp ∧
        resMode (spanRes sp 2) = 1 ∧ 2 < sp.reservations.length ∧ 0 < resRows (spanRes sp 2) ∧ resFormat (spanRes sp 2) = fmtS8 ∧
        resPoisoned s sp (spanRes sp 2) 0 (1024 * resSize (spanRes sp 2)) = false) ∧
    (let s := fifoState (loadEntry false none) matrixOp
     fifo s 0 = [loadEntry false none] ∧
      ∃ sp, findSpan s 0 = some sp ∧ (sp.groups[0]?.bind fun g => findOp g 0) = some matrixOp ∧
        ∀ i ∈ [(0, 0x1000, 0), (1, 0x1040, 5)],
          memKeys (reachRun s (some (spanPier sp)) (spanCtx s sp) .engineRead i.2.1 (rowBytes (resFormat (spanRes sp 2)))) =
            some ((List.range 32).map (memKey 0 i.2.1 + ·)) ∧ ∀ k ∈ (List.range 32).map (memKey 0 i.2.1 + ·), cellGet 0 s.poison (k / 8) = 0) ∧
    (let s := fifoState (loadEntry true none) matrixOp
     fifo s 0 = [loadEntry true none] ∧ s.late = [] ∧ ∃ sp, findSpan s 0 = some sp ∧ (sp.groups[0]?.bind fun g => findOp g 0) = some matrixOp ∧
      (sp.groups[0]?).map groupLoadOpen = some false) ∧
    (let s := modSpan (fifoState (loadEntry true (some 2)) matrixOp) 0 fun sp => { sp with barriers := sp.barriers.set 2 ⟨true, false, 2, 2, 0, false, 1⟩ }
     fifo s 0 = [loadEntry true (some 2)] ∧ ∃ sp, findSpan s 0 = some sp ∧ (sp.groups[0]?.bind fun g => findOp g 0) = some matrixOp ∧
      sp.barriers[2]? = some ⟨true, false, 2, 2, 0, false, 1⟩) :=
  ⟨⟨by decide +kernel, rfl, some_with (by decide +kernel)⟩, ⟨by decide +kernel, some_with (by decide +kernel)⟩,
    ⟨by decide +kernel, rfl, some_with (by decide +kernel)⟩, ⟨by decide +kernel, some_with (by decide +kernel)⟩⟩


/-- An entry of a transfer queue that copies 8 bytes from HBM byte 0x1000 to deck offset 16. -/
def copyEntry (started : Bool) (data : List (List Byte)) (early : Option (Nat × Bool) := none) : TransferEntry :=
  ⟨0, 0, .copy [⟨.mem 0x1000, .deck 0 16, 8⟩], none, false, started, data, early, [], [], none⟩

/-- An operation of the transfer engine. -/
def copyOp : OpRec := ⟨0, .cp, .engine, 1, [], 0, none, none, true, false, [], false⟩

/-- `deckState` with queue 0 as given, its operation in the group, and barrier 2 initialised or not. -/
def queueState (l : List TransferEntry) (b : Bool) : State :=
  modCur (modSpan (deckState 0) 0 fun sp => { sp with queues := sp.queues.set 0 l, barriers := sp.barriers.set 2 ⟨b, false, 2, 2, 0, false, 0⟩ })
    fun g => { g with ops := [copyOp] }

/-- `queueState` without entries, with a descriptor in g8 to g15. -/
def descriptorState (ws : List Word) (b : Bool) : State := modCur (queueState [] b) (writeGs 8 ws)

/-- Descriptors: two rows of 8 bytes, between HBM and deck or between the peer window and deck; members and barrier of an MCAST. -/
def cpybWords : List Word := [0x1000, 0, 0, 0, 0x20008, 64, 8, 0]
def cpypWords : List Word := [0x1000, 0x1000000, 0, 0, 0x20008, 64, 8, 2]
def mcastWords (w7 : Word) : List Word := [0x1000, 0, 0, 64, 0x20008, 64, 8, w7]

/-- The descriptors stand in the group. -/
theorem desc_words : wordsAt (wordU 8 0 0) (descriptorState cpybWords false) = cpybWords.map BitVec.toNat ∧
    wordsAt (wordU 8 0 0) (descriptorState cpypWords false) = cpypWords.map BitVec.toNat ∧
    wordsAt (wordU 8 0 0) (descriptorState (mcastWords 0x100) false) = (mcastWords 0x100).map BitVec.toNat ∧
    wordsAt (wordU 8 0 0) (descriptorState (mcastWords 0x128) true) = (mcastWords 0x128).map BitVec.toNat := by decide +kernel

/-- A word's barrier and room, evaluated. -/
def roomFor (e : Enc) (b : Option Nat) (s : State) (sp : Span) : Bool :=
  decide (((sp.queues[e.rb.toNat % 4]?).getD []).length < 16) && counter (curGroup s) .cp != 63 &&
    match b with
    | none => true
    | some k => (spanBarrier sp k).init

theorem room_of {e : Enc} {b : Option Nat} {s : State} {sp : Span} (h : roomFor e b s sp = true) : mayPost e b sp s := by
  unfold roomFor at h
  simp only [Bool.and_eq_true, decide_eq_true_eq, bne_iff_ne] at h
  refine ⟨h.1.1, h.1.2, fun k hk => ?_⟩
  subst hk
  exact h.2

/-- R363 to R370: CPY of each size from HBM to the deck, with an uninitialised barrier, with a full queue, from past the deck; CPYB; CPYP to
the deck; BINS with an aligned table and with one off alignment; MCAST without and with a barrier. -/
theorem witness_TransferIssue :
    (∀ n ∈ cpyRows.map (·.2), let s := queueState [] false; let e := word 6 2 8
      Legal (cpyForm e) (decide (e.rb.toNat < 16) && rcBarrierLegal e) e s ∧ ∃ sp, curSpan s = some sp ∧ roomFor e (rcNames e) s sp ∧
        ∀ l ∈ laneList (actLanes e s), sideFits false sp n (cpySource e (curGroup s) l) ∧ sideFits true sp n (cpyDest e (curGroup s) l)) ∧
    (let s := queueState [] false; let e := wordX 576 6 2 8
     Legal (cpyForm e) (decide (e.rb.toNat < 16) && rcBarrierLegal e) e s ∧ rcNames e = some 2 ∧
      ∃ sp, curSpan s = some sp ∧ (spanBarrier sp 2).init = false) ∧
    (let s := queueState (List.replicate 16 (copyEntry false [])) true; let e := wordX 576 6 2 8
     Legal (cpyForm e) (decide (e.rb.toNat < 16) && rcBarrierLegal e) e s ∧ rcNames e = some 2 ∧
      ∃ sp, curSpan s = some sp ∧ (spanBarrier sp 2).init = true ∧ 16 ≤ ((sp.queues[e.rb.toNat % 4]?).getD []).length) ∧
    (let s := modCur (queueState [] false) (writeV 6 0 4096); let e := word 2 6 4
     Legal (cpyForm e) (decide (e.rb.toNat < 16) && rcBarrierLegal e) e s ∧ 0 ∈ laneList (actLanes e s) ∧ e.rb.getLsbD 2 = true ∧
      ∃ sp, curSpan s = some sp ∧ deckSize sp < cpySource e (curGroup s) 0 + 4) ∧
    (let s := descriptorState cpybWords false; let e := wordU 8 0 0
     Legal (descForm true) (decide (e.rb.toNat < 4)) e s ∧ ¬ held e s ∧
      ∃ sp, curSpan s = some sp ∧ cpybFits (cpybWords.map BitVec.toNat) sp ∧ roomFor e (descBarrier (cpybWords.map BitVec.toNat)) s sp) ∧
    (let s := descriptorState cpypWords false; let e := wordU 8 0 0; let ws := cpypWords.map BitVec.toNat
     Legal (descForm true) (decide (e.rb.toNat < 4)) e s ∧ ¬ held e s ∧ descLegal ws = true ∧ descFlag ws 2 = false ∧ descFlag ws 1 = true ∧
      descMembers ws = 0 ∧ descVa ws % 8 = 0 ∧ dw ws 5 % 8 = 0 ∧ dw ws 3 = 0 ∧ dw ws 6 < 2 ^ 20 ∧ dw ws 2 % 8 = 0 ∧ dw ws 6 % 8 = 0 ∧
      descVa ws / 2 ^ 56 = 1 ∧ ∃ sp, curSpan s = some sp ∧ dw ws 2 + descExtent ws (dw ws 6) ≤ deckSize sp ∧ roomFor e (descBarrier ws) s sp) ∧
    (∀ p ∈ [((0x1000 : Nat), true), (0x1008, false)], let s := modCur (queueState [] false) (writeG 2 (BitVec.ofNat 32 p.1)); let e := wordX 8 4 2 0
      Legal { rd := .reg 2 1, ra := .reg 2 2, rb := .imm, rc := .bits, u := .zero, mem := some ⟨[0, 1, 2, 3], false, false⟩ }
        (decide (e.rb.toNat < 16) && decide (e.rb.toNat / 4 < 3) && xpBit e 13 && rcBarrierLegal e) e s ∧
      decide ((pair (curGroup s) 0 (raLoc e)).toNat % 16 = 0) = p.2 ∧ (pair (curGroup s) 0 (raLoc e)).toNat < 2 ^ 56 ∧
      ∃ sp, curSpan s = some sp ∧ roomFor e (rcNames e) s sp) ∧
    (∀ p ∈ [((0x100 : Nat), false), (0x128, true)], let s := descriptorState (mcastWords (BitVec.ofNat 32 p.1)) p.2; let e := wordU 8 0 0
      let ws := (mcastWords (BitVec.ofNat 32 p.1)).map BitVec.toNat
      Legal (descForm false) (decide (e.rb.toNat < 4)) e s ∧ ¬ held e s ∧ descLegal ws = true ∧ descFlag ws 0 = false ∧ descMembers ws ≠ 0 ∧
      descFlag ws 2 = false ∧ dw ws 2 < 2 ^ 20 ∧ dw ws 2 % 8 = 0 ∧ dw ws 6 % 8 = 0 ∧ dw ws 6 < 2 ^ 20 ∧ dw ws 3 % 8 = 0 ∧
      descFlag ws 1 = false ∧ descVa ws % 8 = 0 ∧ dw ws 5 % 8 = 0 ∧ descVa ws < 2 ^ 56 ∧ descFlag ws 3 = p.2 ∧
      ∃ sp, curSpan s = some sp ∧ descMembers ws < 2 ^ (setMembers s sp).length ∧ dw ws 3 + 8 ≤ deckSize sp ∧ roomFor e none s sp ∧
        ∀ m ∈ classifyMembers ws s sp, m.failed = none) := by
  refine ⟨fun n hn => ⟨legal_at rfl (by decide +kernel), _, ((Option.some_get (x := curSpan _) (by decide +kernel)).symm), by decide +kernel,
      by unfold sideFits; revert n; decide +kernel⟩,
    ⟨legal_at rfl (by decide +kernel), by decide, some_with (by decide +kernel)⟩,
    ⟨legal_at rfl (by decide +kernel), by decide, some_with (by decide +kernel)⟩,
    ⟨legal_at rfl (by decide +kernel), by decide +kernel, by decide, some_with (by decide +kernel)⟩,
    ⟨legal_at rfl (by decide +kernel), by unfold held; decide +kernel, _, ((Option.some_get (x := curSpan _) (by decide +kernel)).symm),
      by unfold cpybFits; decide +kernel, by decide +kernel⟩,
    ⟨legal_at rfl (by decide +kernel), by unfold held; decide +kernel, by refine ⟨?_, ?_, ?_, ?_, ?_, ?_, ?_, ?_, ?_, ?_, ?_, some_with ?_⟩ <;> decide +kernel⟩,
    fun p hp => ⟨legal_at (by revert p; decide +kernel) (by revert p; decide +kernel), by revert p; decide +kernel, by revert p; decide +kernel,
      some_with (by revert p; decide +kernel)⟩,
    fun p hp => ⟨legal_at (by revert p; decide +kernel) (by revert p; decide +kernel), by unfold held; revert p; decide +kernel, by refine ⟨?_, ?_, ?_, ?_, ?_, ?_, ?_, ?_, ?_, ?_, ?_, ?_, ?_, ?_, some_with ?_⟩ <;> (revert p; decide +kernel)⟩⟩

/-- The bytes of `copyEntry` at HBM byte 0x1000. -/
def copyBytes : List Byte := [1, 2, 3, 4, 5, 6, 7, 0x88]

/-- The copy as it stands in its queue: not started; its reads begun; its writes begun. -/
def copyStart : State := queueState [copyEntry false []] false
def copyReads : State := queueState [copyEntry true [copyBytes] (some (3, false))] false
def copyWrites : State := queueState [copyEntry true [copyBytes] (some (3, true))] false

theorem copy_spans : (findSpan copyStart 0).isSome = true ∧ (findSpan copyReads 0).isSome = true ∧ (findSpan copyWrites 0).isSome = true := by
  decide +kernel

/-- R351 to R358: a copy that may start; one that reads the rest of its source and begins to write; one that may complete; a span that is
saved; an empty queue; a table whose capacities are small; an MCAST whose members are done. -/
theorem witness_TransferSteps :
    (∃ sp, findSpan copyStart 0 = some sp ∧ sp.place = .running 0 ∧ isBlocked sp 0 = false ∧ sp.queues[0]? = some [copyEntry false []] ∧
      SourceBytes copyStart sp (.mem 0x1000) 8 copyBytes ∧ ∃ mem deck, DestKeys copyStart sp (.deck 0 16) 8 mem deck) ∧
    (∃ sp, findSpan copyReads 0 = some sp ∧ sp.place = .running 0 ∧ sp.queues[0]? = some [copyEntry true [copyBytes] (some (3, false))] ∧
      SourceBytes copyReads sp (.mem 0x1000) 8 copyBytes ∧ DestKeys copyReads sp (.deck 0 16) 8 [] ((List.range 8).map fun i => deckByteKey sp (16 + i))) ∧
    (∃ sp, findSpan copyWrites 0 = some sp ∧ sp.place = .running 0 ∧ sp.queues[0]? = some [copyEntry true [copyBytes] (some (3, true))] ∧
      DestKeys copyWrites sp (.deck 0 16) 8 [] ((List.range 8).map fun i => deckByteKey sp (16 + i)) ∧
      (sp.groups[0]?.bind fun g => findOp g 0) = some copyOp ∧ copyWrites.late = [] ∧ (sp.groups[0]?).map groupLoadOpen = some false) ∧
    (∃ sp, findSpan (modSpan copyReads 0 fun sp => { sp with place := .saved ⟨[], 0⟩ }) 0 = some sp ∧ sp.place = .saved ⟨[], 0⟩) ∧
    (∃ sp, findSpan (queueState [] false) 0 = some sp ∧ sp.queues[0]? = some []) ∧
    smallBins (fun _ => 16) ∧
    (let t : TransferEntry := ⟨0, 0, .mcast (mcastWords 0x100) [⟨0, 0, none, false, true, true⟩], none, false, true, [], none, [], [], none⟩
     ∃ sp, findSpan (queueState [t] false) 0 = some sp ∧ sp.queues[0]? = some [t] ∧ (sp.groups[0]?.bind fun g => findOp g 0) = some copyOp ∧
      (sp.groups[0]?).map groupLoadOpen = some false ∧
      ∀ i, i < 8 → ∀ j, j < 8 → j ≠ i → deckByteKey sp (64 + i) ≠ deckByteKey sp (64 + j)) := by
  have source : ∀ s ∈ [copyStart, copyReads], ∀ sp ∈ findSpan s 0,
      memKeys (reachRun s (some (spanPier sp)) (spanCtx s sp) .engineRead 0x1000 8) = some ((List.range 8).map (memKey 0 0x1000 + ·)) ∧
      (∀ k ∈ (List.range 8).map (memKey 0 0x1000 + ·), cellGet 0 s.poison (k / 8) = 0) ∧
      copyBytes = ((List.range 8).map (memKey 0 0x1000 + ·)).map (readByte s.mem) := by decide +kernel
  have facts : ∀ s ∈ [copyStart, copyReads, copyWrites], ∀ sp ∈ findSpan s 0, sp.place = .running 0 ∧ isBlocked sp 0 = false := by decide +kernel
  have dest (s : State) (sp : Span) (h : findSpan s 0 = some sp) :
      DestKeys s sp (.deck 0 16) 8 [] ((List.range 8).map fun i => deckByteKey sp (16 + i)) := ⟨rfl, sp, h, .inl ⟨rfl, rfl⟩, rfl⟩
  have start := (Option.some_get copy_spans.1).symm
  have reads := (Option.some_get copy_spans.2.1).symm
  have writes := (Option.some_get copy_spans.2.2).symm
  have first := facts _ (by simp) _ start
  exact ⟨⟨_, start, first.1, first.2, by decide +kernel, ⟨_, source _ (by simp) _ start⟩, _, _, dest _ _ start⟩,
    ⟨_, reads, (facts _ (by simp) _ reads).1, by decide +kernel, ⟨_, source _ (by simp) _ reads⟩, dest _ _ reads⟩,
    ⟨_, writes, (facts _ (by simp) _ writes).1, by decide +kernel, dest _ _ writes, by decide +kernel⟩,
    some_with (by decide +kernel), some_with (by decide +kernel), fun b => show binCap (fun _ => 16) 0 ≤ 0x7FFFFFFF by decide,
    some_with (by decide +kernel)⟩


theorem no_interval : ∀ l, l < 32 → ivMask (sixWords (word 0 40 0) gangState l) = 0 := by decide +kernel

/-- R399 to R402: an interval, the largest register and interval numbers of each form, a mask outside its views, and a view set kept. -/
theorem witness_IntervalRegisters :
    Legal (ivForm (.reg 6 1) .unused) true (word 58 0 7) gangState ∧
    (Legal (ivForm .unused (.reg 6 1)) true (word 0 40 0) gangState ∧
      (∀ l, l < 32 → (actLanes (word 0 40 0) gangState).getLsbD l = true → ¬ badInterval (sixWords (word 0 40 0) gangState l))) ∧
    (let s := gangWith (writeV 41 0 1 ∘ writeV 40 0 0x101)
     Legal (ivForm .unused (.reg 6 1)) true (word 0 40 0) s ∧ (actLanes (word 0 40 0) s).getLsbD 0 = true ∧ badInterval (sixWords (word 0 40 0) s 0)) ∧
    Legal (ivForm (.reg 1 1) (.reg 1 1)) true (word 63 63 7) gangState ∧ Legal (ivForm (.reg 1 1) .unused) true (word 63 0 7) gangState ∧
    Legal (ivForm .unused (.reg 2 2)) true (word 0 62 7) gangState ∧
    Legal (ivForm (.index 8) (.reg 1 1)) ((word 3 5 0).rd != (word 3 5 0).rb) (word 3 5 0) gangState ∧
    ((0x18 : Nat) < 2 ^ 64 ∧ ∀ v, (0x18 : Nat).testBit v = true → ivFirst exampleInterval ≤ v) :=
  ⟨legal_here (by decide), ⟨legal_here (by decide), fun l hl _ h => h.1 (no_interval l hl)⟩,
    ⟨legal_gang (sid := 0) (n := 0) (sl := none) rfl (by decide +kernel) (by decide +kernel), by decide +kernel, by unfold badInterval; exact ⟨by decide +kernel, .inr ⟨0, by decide +kernel⟩⟩⟩,
    legal_here (by decide), legal_here (by decide), legal_here (by decide), legal_here (by decide), by decide,
    fun v _ => by rw [show ivFirst exampleInterval = 0 by decide]; exact Nat.zero_le v⟩

/-- A view set of one panel, 16 pixels by 4, two views, one row, depth record 0; at VA 0x1000 with its header at 0x2000. -/
def testView : BitVec 256 := BitVec.ofNat 256 (15 + 2 ^ 14 * 3 + 2 ^ 28)

/-- A triangle of 8 by 4 pixels with w 1.0, sequence id 7 and identifier 9. -/
def testPrim : Nat := [0, 0, 0, 0x3F800000, 2048, 0, 0, 0x3F800000, 0, 1024, 0, 0x3F800000, 7, 9, 0, 0].foldr (fun w n => w + 2 ^ 32 * n) 0

/-- Slices 0 to 3, row 0, panel 0. -/
def testRaster : BitVec 64 := BitVec.ofNat 64 (2 ^ 50 * 3)

/-- The launch has the view set and the colour record; memory holds the view set, and the primitive at 0x1000, its deck too; g2:g3 name it,
g4:g5 hold the raster state `w`. -/
def rasterState (r : BitVec 320) (w : Nat) (f : Span → Span) (q : List RasterEntry) : State :=
  let s := modCur (deckState 0) fun g => writeG 2 0x1000 (writeG 4 (BitVec.ofNat 32 w) (writeG 5 (BitVec.ofNat 32 (w / 2 ^ 32)) g))
  let s := modSpan s 0 f
  { s with
    raster := [(0, q)]
    launches := s.launches.map fun p => (p.1, { p.2 with record := BitVec.ofNat 1024 (2 ^ (8 * 120) * 0x1000), buffers := [r] })
    deck := cellSetRange 0 s.deck (deckKey 0 0) (natToBytes 64 testPrim)
    mem := cellSetRange 0 (cellSetRange 0 s.mem (memKey 0 0x1000) (natToBytes 64 testPrim)) (memKey 0 0x2000)
      (natToBytes 32 1 ++ natToBytes 32 testView.toNat) }

/-- A span with a raster state. -/
def rasterSet (n : Nat) (sp : Span) : Span :=
  { sp with raster := some (testRaster, testView, 0x1000), prims := List.replicate n ⟨BitVec.ofNat 512 testPrim, testRaster, testView, 0x1000, 0, [], none⟩ }

theorem some_keys {o : Option (List Nat)} (h : o.isSome = true) : ∃ k, o = some k := ⟨o.get h, (Option.some_get h).symm⟩

/-- Entries of the engine's queue. -/
def setEntry : RasterEntry := ⟨0, 0, 0, .set⟩

/-- A primitive whose w is 0, in memory and on the deck in place of the other. -/
def badPrim (s : State) : State :=
  { s with mem := cellSetRange 0 s.mem (memKey 0 0x1000) (natToBytes 64 7), deck := cellSetRange 0 s.deck (deckKey 0 0) (natToBytes 64 7) }

/-- R395 to R398, R403: a raster state that is illegal, one whose last slice the panel lacks, one that takes its place and one that finds the
queue full; a primitive without a state, one with a record outside its limits, one from memory and from the deck, and with 16 pending; ERFETCH
by part of the lanes and by all; ERFLUSH; IVST to a read-only record, to one it may write, and at a panel and at a row that its view set lacks. -/
theorem witness_RasterIssue :
    (let s := rasterState (bufRecord fmtZ8 0 0) 1 id []; let e := wordU 4 0 0
     Legal ersetForm true e s ∧ (curSpan s).isSome = true ∧ ¬ held e s ∧ myParked s = [] ∧ rsLegal (rasterWord e s) = false) ∧
    (∀ n ∈ [0, 16], let s := rasterState (bufRecord fmtZ8 0 0) (2 ^ 50 * 3) id (List.replicate n setEntry); let e := wordU 4 0 0
      Legal ersetForm true e s ∧ ¬ held e s ∧ rsLegal (rasterWord e s) = true ∧ curPanelVa s ≠ 0 ∧
      PanelFound (settlePanels [rsPanel (rasterWord e s)] s) (rsPanel (rasterWord e s)) testView ∧ rsFits (rasterWord e s) testView = true ∧
      (bufBase ((curRecord s (viewDepth testView)).getD 0) + bufAux ((curRecord s (viewDepth testView)).getD 0)) % 8 = 0 ∧
      rasterFull s = decide (n = 16)) ∧
    (let s := rasterState (bufRecord fmtZ8 0 0) (2 ^ 50 * 4) id []; let e := wordU 4 0 0
     Legal ersetForm true e s ∧ ¬ held e s ∧ myParked s = [] ∧ rsLegal (rasterWord e s) = true ∧ curPanelVa s ≠ 0 ∧
      PanelFound (settlePanels [rsPanel (rasterWord e s)] s) (rsPanel (rasterWord e s)) testView ∧ rsFits (rasterWord e s) testView = false) ∧
    (∀ rd ∈ [(0 : BitVec 6), 1], let s := badPrim (rasterState 0 0 (rasterSet 0) []); let e := wordU rd (if rd = 0 then 2 else 8) 0
      Legal (erprimForm e) true e s ∧ ¬ held e s ∧ myParked s = [] ∧ primLegal (BitVec.ofNat 512 7) = false ∧
      ∃ sp, curSpan s = some sp ∧ sp.raster.isSome = true ∧
        (rd = 0 → addressOf e 64 (curGroup s) 0 % 64 = 0 ∧ memKeys (curRun (primSettled e s sp) .load (addressOf e 64 (curGroup s) 0) 64) = some (at1000 64 0) ∧
          valueAt (readByte (primSettled e s sp).mem) (at1000 64 0) = 7 ∧ ∀ k ∈ at1000 64 0, cellGet 0 (primSettled e s sp).poison (k / 8) = 0) ∧
        (rd = 1 → deckOffset e 64 (curGroup s) 0 = 0 ∧ 64 ≤ 4096 * sp.deckUnits.length ∧ deckPoisoned (primSettled e s sp) sp 0 64 = false ∧
          valueAt (readByte (primSettled e s sp).deck) (deckKeys e 64 sp (curGroup s) 0) = 7)) ∧
    (∀ rd ∈ [(0 : BitVec 6), 1], let s := rasterState 0 0 id []; let e := wordU rd (if rd = 0 then 2 else 8) 0
      Legal (erprimForm e) true e s ∧ ¬ held e s ∧ ∃ sp, curSpan s = some sp ∧ sp.raster = none) ∧
    (∀ n ∈ [0, 16], ∀ rd ∈ [(0 : BitVec 6), 1], let s := rasterState 0 0 (rasterSet n) []; let e := wordU rd (if rd = 0 then 2 else 8) 0
      Legal (erprimForm e) true e s ∧ ¬ held e s ∧ rasterFull s = false ∧ primLegal (BitVec.ofNat 512 testPrim) = true ∧
      ∃ sp, curSpan s = some sp ∧ sp.raster = some (testRaster, testView, 0x1000) ∧ sp.prims.length = n ∧
        (rd = 0 → addressOf e 64 (curGroup s) 0 % 64 = 0 ∧ memKeys (curRun (primSettled e s sp) .load (addressOf e 64 (curGroup s) 0) 64) = some (at1000 64 0) ∧
          valueAt (readByte (primSettled e s sp).mem) (at1000 64 0) = testPrim ∧ ∀ k ∈ at1000 64 0, cellGet 0 (primSettled e s sp).poison (k / 8) = 0) ∧
        (rd = 1 → deckOffset e 64 (curGroup s) 0 = 0 ∧ 64 ≤ 4096 * sp.deckUnits.length ∧ deckPoisoned (primSettled e s sp) sp 0 64 = false ∧
          valueAt (readByte (primSettled e s sp).deck) (deckKeys e 64 sp (curGroup s) 0) = testPrim)) ∧
    (Legal erfetchForm true (word 4 7 0) (deckState 0) ∧ actLanes (word 4 7 0) (deckState 0) ≠ 0xFFFFFFFF) ∧
    (Legal erfetchForm true (word 58 7 0) gangState ∧ actLanes (word 58 7 0) gangState = 0xFFFFFFFF ∧ counter (curGroup gangState) .ld ≠ 63 ∧
      rasterFull gangState = false) ∧
    (∀ n ∈ [0, 16], let s := rasterState 0 0 id (List.replicate n setEntry); let e := wordU 0 0 0
      Legal erflushForm true e s ∧ ¬ held e s ∧ rasterFull s = decide (n = 16)) ∧
    (∀ b ∈ [true, false], let r := bufRecord fmtZ8 0 (if b then 2 ^ 289 else 0)
      let s := modCur (rasterState r 0 id []) (writeInterval 0 0 exampleInterval); let e := word 9 8 0
      Legal { recordForm [0, 2] s r with ra := .reg 1 1, rc := .bits } (!memRp e && decide (rcField e < 8)) e s ∧ curRecord s 0 = some r ∧
      myParked s = [] ∧ bufReadOnly r = b ∧ bufEnc r ≠ 3 ∧ curPanelVa s ≠ 0 ∧ counter (curGroup s) .st ≠ 63 ∧ rasterFull s = false ∧
      (∀ l ∈ laneList (actLanes e s), (memKeys (panelParts (ivstRead e s) (slicePanel (sliceWord e s l)))).isSome = true ∧
        partsPoisoned (ivstRead e s) (panelParts (ivstRead e s) (slicePanel (sliceWord e s l))) = false ∧
        slicePanel (sliceWord e s l) < viewPanels (ivstRead e s) ∧
        sliceRow (sliceWord e s l) < viewRows (viewRaw (ivstRead e s) (slicePanel (sliceWord e s l)))) ∧
      ∀ i ∈ (laneList (actLanes e s)).map (ivstItem e r (ivstRead e s)), (∀ v ∈ viewsOf (ivMask i.interval), ivstTexel r i.interval (sliceY i.slice) v ≠ .fault) ∧
        (memKeys (ivstParts (ivstRead e s) r i.interval (sliceY i.slice))).isSome = true) ∧
    (∀ b ∈ [true, false], let r := bufRecord fmtZ8 0 0
      let s := modCur (rasterState r 0 id []) fun g => writeV 8 0 (if b then 0x10000 else 0x10000000) (writeInterval 0 0 exampleInterval g); let e := word 9 8 0
      Legal { recordForm [0, 2] s r with ra := .reg 1 1, rc := .bits } (!memRp e && decide (rcField e < 8)) e s ∧ curRecord s 0 = some r ∧
      myParked s = [] ∧ bufReadOnly r = false ∧ bufEnc r ≠ 3 ∧ curPanelVa s ≠ 0 ∧ counter (curGroup s) .st ≠ 63 ∧ rasterFull s = false ∧
      (∀ l ∈ laneList (actLanes e s), (memKeys (panelParts (ivstRead e s) (slicePanel (sliceWord e s l)))).isSome = true ∧
        partsPoisoned (ivstRead e s) (panelParts (ivstRead e s) (slicePanel (sliceWord e s l))) = false) ∧
      ∃ l ∈ laneList (actLanes e s), viewPanels (ivstRead e s) ≤ slicePanel (sliceWord e s l) ∨
        viewRows (viewRaw (ivstRead e s) (slicePanel (sliceWord e s l))) ≤ sliceRow (sliceWord e s l)) := by
  refine ⟨⟨legal_at rfl (by decide +kernel), by decide +kernel, by unfold held; decide +kernel, by decide +kernel, by decide +kernel⟩,
    fun n hn => ⟨legal_at (by revert n; decide +kernel) (by revert n; decide +kernel), by unfold held; revert n; decide +kernel, by revert n; decide +kernel,
      by revert n; decide +kernel, ⟨some_keys (by revert n; decide +kernel), by revert n; decide +kernel, by revert n; decide +kernel⟩, by revert n; decide +kernel,
      by revert n; decide +kernel, by revert n; decide +kernel⟩,
    ⟨legal_at rfl (by decide +kernel), by unfold held; decide +kernel, by decide +kernel, by decide +kernel, by decide +kernel,
      ⟨some_keys (by decide +kernel), by decide +kernel, by decide +kernel⟩, by decide +kernel⟩,
    fun rd hr => ⟨legal_at (by revert rd; decide +kernel) (by revert rd; decide +kernel), by unfold held; revert rd; decide +kernel,
      by revert rd; decide +kernel, by decide +kernel, some_with (by revert rd; decide +kernel)⟩,
    fun rd hr => ⟨legal_at (by revert rd; decide +kernel) (by revert rd; decide +kernel), by unfold held; revert rd; decide +kernel,
      some_with (by revert rd; decide +kernel)⟩,
    fun n hn rd hr => ⟨legal_at (by revert rd n; decide +kernel) (by revert rd n; decide +kernel), by unfold held; revert rd n; decide +kernel,
      by revert rd n; decide +kernel, by decide +kernel, some_with (by revert rd n; decide +kernel)⟩,
    ⟨legal_at rfl (by decide +kernel), by decide +kernel⟩, ⟨legal_here (by decide), by decide +kernel, by decide +kernel, by decide +kernel⟩,
    fun n hn => ⟨legal_at (by revert n; decide +kernel) (by revert n; decide +kernel), by unfold held; revert n; decide +kernel, by revert n; decide +kernel⟩,
    fun b hb => ⟨legal_at (by revert b; decide +kernel) (by revert b; decide +kernel), by unfold ivstRead sliceWord; revert b; decide +kernel⟩,
    fun b hb => ⟨legal_at (by revert b; decide +kernel) (by revert b; decide +kernel), by unfold ivstRead sliceWord; revert b; decide +kernel⟩⟩


/-- A sample at a view, a pixel, a key and a rank, of depth 1.0. -/
def sampleOf (v x : Nat) (key : Int) (rank : Nat) : Sample := ⟨v, x, key, rank, 0x3F800000, 1, 1, 3⟩

/-- One interval of the example, with a fetch record. -/
def deliveredInterval : Interval := ⟨0, 4, 0, 0, exampleInterval, [0, 9, 0, 0, 0x3F800000, 0x40000]⟩

/-- An operation of the raster engine, and a span whose primitive has an interval to deliver. -/
def rasterOp : OpRec := ⟨0, .ld, .engine, 0xFFFFFFFF, [], 0, none, none, true, false, [], false⟩
def withIntervals (sp : Span) : Span := { sp with prims := [⟨BitVec.ofNat 512 testPrim, testRaster, testView, 0x1000, 4, [deliveredInterval], none⟩] }

/-- An IVST's lane on the example's interval in slice 0, and its entry. -/
def storeItem : StoreItem := ⟨exampleInterval, [5], 0, testView⟩
def storeEntry : RasterEntry := ⟨0, 0, 0, .store 0 false [storeItem] 0⟩

/-- A lane whose interval has one view. -/
def oneView : StoreItem := ⟨[0, 1, 0, 68, 0, 7], [5, 0], 0, testView⟩

/-- Each kind of entry, as the steps look for it. -/
def isFetch (k : RasterKind) : Bool :=
  match k with
  | .fetch _ _ => true
  | _ => false
def isStore (k : RasterKind) : Bool :=
  match k with
  | .store _ _ _ _ => true
  | _ => false

/-- A depth granule at 0x1000 as a sample finds it. -/
def oneGranule : List (Sample × List Part) := [(sampleOf 0 0 4 0, curRun (memState 9) .store 0x1000 8)]

/-- A span with a primitive that covers one pixel, of a view set of one view, in slice 0 of four. -/
def onePixel (sp : Span) : Span :=
  let prim : Nat := [0, 0, 0, 0x3F800000, 300, 0, 0, 0x3F800000, 0, 300, 0, 0x3F800000, 7, 9, 0, 0].foldr (fun w n => w + 2 ^ 32 * n) 0
  let view : BitVec 256 := BitVec.ofNat 256 (15 + 2 ^ 14 * 3)
  { sp with raster := some (testRaster, view, 0x1000), prims := [⟨BitVec.ofNat 512 prim, testRaster, view, 0x1000, 0, [], none⟩] }

/-- A span whose primitive has 256 intervals to deliver. -/
def manyIntervals (sp : Span) : Span := { sp with prims := sp.prims.map fun p => { p with intervals := List.replicate 256 deliveredInterval } }

/-- A place that the engine reaches, its parts with a property; how many intervals a slice forms. -/
def touchOk (t : Touch) (f : List Part → Bool) : Bool :=
  match t with
  | .ok ps => f ps
  | _ => false
def formed (p : Primitive) : SliceResult → Nat
  | .done is _ => (is.filter fun i => !beforeResume p.resume i).length
  | _ => 1000

/-- A run of one element store that reaches its place ends with it made: over, or paused where the free bits leave a granule of it for later. -/
theorem ivst_ends {sp : Span} {owner : Nat × Nat × Nat} {d n : Nat} {r : BitVec 320} {release : Bool} {i : StoreItem} {v : Nat} {fl : Flags}
    {s : State} (h : (ivstView s sp owner d r release i v).toOption.isSome = true) :
    (ivstRun sp owner d r release [(i, v)] n fl s).2.2.2 = .paused ∨ (ivstRun sp owner d r release [(i, v)] n fl s).2.2.2 = .over := by
  unfold ivstRun
  cases hv : ivstView s sp owner d r release i v with
  | error t => rw [hv] at h; cases h
  | ok x =>
    dsimp only
    split
    · exact .inl rfl
    · exact .inr rfl
theorem image_ends {sp : Span} {owner : Nat × Nat × Nat} {d n : Nat} {r : BitVec 320} {release : Bool} {w : ImageWrite} {fl : Flags} {s : State}
    (h : (engineStore s sp owner d 8 true r release (imageTexel r w) (listChannel r w.regs)).toOption.isSome = true) :
    (imageRun sp owner d r release [w] n fl s).2.2.2 = .paused ∨ (imageRun sp owner d r release [w] n fl s).2.2.2 = .over := by
  unfold imageRun
  cases hv : engineStore s sp owner d 8 true r release (imageTexel r w) (listChannel r w.regs) with
  | error t => rw [hv] at h; cases h
  | ok x =>
    dsimp only
    split
    · exact .inl rfl
    · exact .inr rfl

/-- R380, R389, R403: a granule in memory; a store whose element has two granules; two samples of a key; each kind of entry at the head of the queue with what its step needs; an
owner-checked view whose granule holds another sequence id, one whose granule holds it, and a view without an owner. -/
theorem witness_RasterSteps :
    Granules oneGranule (at1000 8) ∧ Samples [sampleOf 0 3 4 0, sampleOf 1 4 4 0] ∧
    (rasterNext (rasterState 0 0 id [setEntry]) 0 (fun k => k == .set || k == .prim) = some ([], setEntry, [])) ∧
    (let s := rasterState 0 0 onePixel [⟨0, 0, 0, .prim⟩]
     rasterNext s 0 (fun k => k == .set || k == .prim) = some ([], ⟨0, 0, 0, .prim⟩, []) ∧
      ∃ sp, findSpan s 0 = some sp ∧ isBlocked sp 4 = false ∧ discards (rasterQueue s 0) 0 sp = false ∧
        ∃ p ∈ openPrim sp, p.nextY < rsYLast p.state ∧ formed p (rasterSlice sp (0, 0, 0) p (settleTests 0 s)) ≤ 256 - undelivered sp) ∧
    (let s := rasterState 0 0 (manyIntervals ∘ onePixel) [⟨0, 0, 0, .prim⟩]
     ∃ sp, findSpan s 0 = some sp ∧ ∃ p ∈ openPrim sp, 256 - undelivered sp < formed p (rasterSlice sp (0, 0, 0) p (settleTests 0 s))) ∧
    (let s := modCur (rasterState 0 0 withIntervals [⟨0, 0, 0, .fetch 2 4⟩]) fun g => { g with ops := [rasterOp] }
     rasterNext s 0 isFetch = some ([], ⟨0, 0, 0, .fetch 2 4⟩, []) ∧ ∃ sp, findSpan s 0 = some sp ∧
      (sp.groups[0]?.bind fun g => findOp g 0) = some rasterOp ∧ ((sp.groups[0]?).map groupExited) = some false ∧ (settleTests 0 s).late = [] ∧
      (sp.groups[0]?).map groupLoadOpen = some false ∧
      ∀ p ∈ sp.prims, ∀ i ∈ p.intervals, i.words.length = 6 ∧ i.fetch.length = 6) ∧
    (rasterNext (rasterState 0 0 withIntervals [⟨0, 0, 0, .flush⟩]) 0 (fun k => k == .flush) = some ([], ⟨0, 0, 0, .flush⟩, [])) ∧
    (let r := bufRecord fmtZ8 0 (2 ^ 290); let s := rasterState r 0 id []
     bufOwned r = true ∧ (0 ≤ ivPixel exampleInterval 0 ∧ ivPixel exampleInterval 0 < viewWidth testView ∧ 0 < viewViews testView) ∧
      ∃ sp, findSpan s 0 = some sp ∧ touchOk (touchMem s sp 7 .engineRead (granuleVa (bufBase r + bufAux r) testView 0 0 0 0) 8)
        (fun ps => bytesToNat (readParts s ps) / 2 ^ 32 != ivSeq exampleInterval) = true) ∧
    (let r := bufRecord fmtZ8 0 (2 ^ 290)
     let s := { rasterState r 0 id [] with mem := cellSetRange 0 [] (memKey 0 0x1004) [7] }
     ∃ sp, findSpan s 0 = some sp ∧ touchOk (touchMem s sp 7 .engineRead (granuleVa (bufBase r + bufAux r) testView 0 0 0 0) 8)
        (fun ps => bytesToNat (readParts s ps) / 2 ^ 32 == ivSeq exampleInterval) = true ∧
      (engineStore s sp (0, 0, 0) 5 3 false r false (ivstTexel r exampleInterval 0 0) (listChannel r [5])).toOption.isSome = true) ∧
    (let s := modCur (rasterState (bufRecord fmtZ8 0 0) 0 id [storeEntry]) fun g => { g with ops := [rasterOp] }
     rasterNext s 0 isStore = some ([], storeEntry, []) ∧ ∃ sp, findSpan s 0 = some sp ∧
      ((findLaunch s sp.launch).bind fun la => la.buffers[0]?) = some (bufRecord fmtZ8 0 0) ∧
      (let u := draw (settleWrites (lateOfOp (0, 0, 0)) (settleTests 0 s))
       (ivstRun sp (0, 0, 0) u.1 (bufRecord fmtZ8 0 0) false ((ivstViews [storeItem]).drop 0) 0 noFlags u.2).2.2.2 = .over) ∧
      (sp.groups[0]?.bind fun g => findOp g 0) = some rasterOp) ∧
    (let s := rasterState (bufRecord fmtF64 0 4) 0 id [⟨0, 0, 0, .store 0 false [oneView] 0⟩]
     rasterNext s 0 isStore = some ([], ⟨0, 0, 0, .store 0 false [oneView] 0⟩, []) ∧ ivstViews [oneView] = [(oneView, 0)] ∧ ∃ sp, findSpan s 0 = some sp ∧
      (let u := draw (settleWrites (lateOfOp (0, 0, 0)) (settleTests 0 s))
       let run := ivstRun sp (0, 0, 0) u.1 (bufRecord fmtF64 0 4) false [(oneView, 0)] 0 noFlags u.2
       run.2.2.2 = .paused ∨ run.2.2.2 = .over)) := by
  refine ⟨⟨fun i t h => ?_, fun i j hi hj h => ?_⟩, by unfold Samples; decide, by decide +kernel, ⟨by decide +kernel, some_with (by decide +kernel)⟩,
    some_with (by decide +kernel), ⟨by decide +kernel, some_with (by decide +kernel)⟩, by decide +kernel,
    ⟨by decide +kernel, by decide +kernel, some_with (by decide +kernel)⟩, some_with (by decide +kernel),
    ⟨by decide +kernel, some_with (by decide +kernel)⟩,
    ⟨by decide +kernel, by decide +kernel, _, (Option.some_get (x := findSpan _ 0) (by decide +kernel)).symm, ivst_ends (by decide +kernel)⟩⟩
  · cases i with
    | zero => cases h; exact ⟨by decide +kernel, by decide +kernel, by decide +kernel, by decide +kernel, by decide +kernel⟩
    | succ n => cases h
  · exact absurd ((Nat.lt_one_iff.mp hi).trans (Nat.lt_one_iff.mp hj).symm) h


/-- A symmetry group of order 2 on extents `n`: the identity, and a reflection of x that negates. -/
def testSymmetry (n : List Nat) : Symmetry :=
  ⟨n, [⟨[0, 1, 2], [false, false, false], [0, 0, 0], [0, 0, 0], 0⟩, ⟨[0, 1, 2], [true, false, false], [0, 0, 0], [0, 0, 0], 1⟩], 0, [], 0⟩

/-- A symmetry launch of 8 span points, running, with one buffer record. -/
def symState (n : List Nat) (r : BitVec 320) (x : Word) : State :=
  let s := modCur (bufState r) (writeV 8 0 x)
  { s with launches := s.launches.map fun p => (p.1, { p.2 with
      record := BitVec.ofNat 1024 (2 ^ 64 * 8 + 2 ^ 96 + 2 ^ 128), symmetry := some (testSymmetry n), phase := .running }) }

/-- An image entry of one write, and its operation. -/
def imageEntry : ImageEntry := ⟨0, 0, 0, 0, false, [⟨2, 0, 0, [9]⟩], 0, 0⟩
def imageOp : OpRec := ⟨0, .im, .engine, 1, [], 0, none, none, true, false, [], false⟩

/-- R411 to R419: a span point that is the least of its orbit; SYMQ; IMST and IMSTX to a read-only record, to one too small, at a point
outside, and at one inside with room; an image entry that is served. -/
theorem witness_SymmetricImages :
    (let s := symState [8, 1, 1] (bufRecord fmtZ8 0 0) 2
     ∃ la, findLaunch s 0 = some la ∧ la.symmetry = some (testSymmetry [8, 1, 1]) ∧ la.phase = .running ∧
      0 < gridExtent la 0 * gridExtent la 1 * gridExtent la 2 ∧
      ∀ el ∈ (testSymmetry [8, 1, 1]).elements, 0 ≤ gridIndex (gridExtents la) (spanImage la el (gridPoint (gridExtents la) 0))) ∧
    (let s := symState [8, 1, 1] (bufRecord fmtZ8 0 0) 2; let e := word 4 8 17
     Legal { rd := .reg 4 4, ra := .reg 3 1, rb := .imm, xp := .layoutB } (decide (immRri e < 32)) e s ∧ (curLaunch s).isSome = true) ∧
    (∀ x ∈ [false, true], let r := bufRecord fmtZ8 0 (2 ^ 289); let s := symState [8, 1, 1] r 2; let e := if x then wordX 352 4 8 0 else word 4 8 0
      Legal (imstForm x s r) (!memRp e) e s ∧ curRecord s 0 = some r ∧ myParked s = [] ∧ bufReadOnly r = true) ∧
    (∀ x ∈ [false, true], let r := bufRecord fmtZ8 0 0; let s := symState [16, 1, 1] r 2; let e := if x then wordX 352 4 8 0 else word 4 8 0
      Legal (imstForm x s r) (!memRp e) e s ∧ bufReadOnly r = false ∧ bufEnc r ≠ 3 ∧ ∃ la, curLaunch s = some la ∧ imageRefused la r = true) ∧
    (∀ x ∈ [false, true], let r := bufRecord fmtZ8 0 0; let s := symState [8, 1, 1] r 8; let e := if x then wordX 352 4 8 0 else word 4 8 0
      Legal (imstForm x s r) (!memRp e) e s ∧ ∃ la, curLaunch s = some la ∧ imageRefused la r = false ∧
        la.symmetry = some (testSymmetry [8, 1, 1]) ∧ ∃ l ∈ laneList (actLanes e s), ∃ x ∈ [8, 1, 1].zip (imstPoint e s l), x.2 < 0 ∨ (x.1 : Int) ≤ x.2) ∧
    (∀ x ∈ [false, true], let r := bufRecord fmtZ8 0 0; let s := symState [8, 1, 1] r 2; let e := if x then wordX 352 4 8 0 else word 4 8 0
      Legal (imstForm x s r) (!memRp e) e s ∧ curRecord s 0 = some r ∧ myParked s = [] ∧ counter (curGroup s) .im ≠ 63 ∧
      (imageQueue s (curPier s)).length < 64 ∧ ∃ la, curLaunch s = some la ∧ imageRefused la r = false ∧
        (∀ l ∈ laneList (actLanes e s), (∀ x ∈ [8, 1, 1].zip (imstPoint e s l), ¬ (x.2 < 0 ∨ (x.1 : Int) ≤ x.2)) ∧
          ∀ w ∈ (imstList e s la r (fun _ _ _ => 2 ^ 16 - 1) l).1, imageTexel r w ≠ .fault ∧ (memKeys (imageParts s r w)).isSome = true)) ∧
    (let s := { modCur (symState [8, 1, 1] (bufRecord fmtZ8 0 0) 2) (fun g => { g with ops := [imageOp] }) with image := [(0, [imageEntry])] }
     (imageQueue s 0).find? (fun y => !imageHeld s y) = some imageEntry ∧ ∃ sp, findSpan s 0 = some sp ∧ isBlocked sp 5 = false ∧
      ((findLaunch s sp.launch).bind fun la => la.buffers[0]?) = some (bufRecord fmtZ8 0 0) ∧
      (let u := draw (settleWrites (lateOfOp (0, 0, 0)) s)
       (imageRun sp (0, 0, 0) u.1 (bufRecord fmtZ8 0 0) false imageEntry.writes 0 0 u.2).2.2.2 = .over) ∧
      (sp.groups[0]?.bind fun g => findOp g 0) = some imageOp) ∧
    (let s := { symState [8, 1, 1] (bufRecord fmtF64 0 4) 2 with image := [(0, [imageEntry])] }
     (imageQueue s 0).find? (fun y => !imageHeld s y) = some imageEntry ∧ imageEntry.writes = [⟨2, 0, 0, [9]⟩] ∧ ∃ sp, findSpan s 0 = some sp ∧
      (let u := draw (settleWrites (lateOfOp (0, 0, 0)) s)
       let run := imageRun sp (0, 0, 0) u.1 (bufRecord fmtF64 0 4) false [⟨2, 0, 0, [9]⟩] 0 0 u.2
       run.2.2.2 = .paused ∨ run.2.2.2 = .over)) := by
  refine ⟨some_with (by decide +kernel), ⟨legal_at rfl (by decide +kernel), by decide +kernel⟩,
    fun x hx => ⟨legal_at (by revert x; decide +kernel) (by revert x; decide +kernel), by revert x; decide +kernel⟩,
    fun x hx => ⟨legal_at (by revert x; decide +kernel) (by revert x; decide +kernel), by decide +kernel, by decide +kernel, some_with (by decide +kernel)⟩,
    fun x hx => ⟨legal_at (by revert x; decide +kernel) (by revert x; decide +kernel), some_with (by revert x; decide +kernel)⟩,
    fun x hx => ⟨legal_at (by revert x; decide +kernel) (by revert x; decide +kernel), by decide +kernel, by decide +kernel, by decide +kernel,
      by decide +kernel, some_with (by revert x; decide +kernel)⟩,
    ⟨by decide +kernel, some_with (by decide +kernel)⟩,
    ⟨by decide +kernel, rfl, _, (Option.some_get (x := findSpan _ 0) (by decide +kernel)).symm, image_ends (by decide +kernel)⟩⟩

/-- A trestle with a REQUIRE of page 5 at key 1 in its window, a frame of each list and a PMARK of serial number 3 posted. -/
def testTrestle (table : Option Nat) (t : Trestle) : Trestle :=
  { t with table := table, hbmList := [3], hbmCap := 4, farList := [], farCap := 4, window := [⟨0, 1, 2, 1, 5, 1, [], []⟩], posted := [(3, 0, 0, 1)] }

/-- Context 0 maps page 5 to a far-tier frame; the launch has the trestle, the group waits as given, g2:g3 name page 5, g4 is 1. -/
def farState (table : Option Nat) (ws : List GroupWait) : State :=
  let s := modCur gangState fun g => { writeG 2 0xA00000 (writeG 4 1 g) with waits := ws }
  { s with
    launches := s.launches.map fun p => (p.1, { p.2 with trestle := testTrestle table p.2.trestle })
    fe := { s.fe with fmode := s.fe.fmode ||| 4 }
    vm := { s.vm with windows := [⟨0, false, 0, 0, 0, 0⟩] }
    mem := [(0x100000, 0x1001), (0x1000, 0x2001), (0x2028, 3 + 0x600 + 2 ^ 21 * 7 + 2 ^ 54)].foldl
      (fun m p => cellSetRange 0 m (memKey 0 p.1) (natToBytes 8 p.2)) (cellSetRange 0 [] (memKey 0 0) (natToBytes 64 0x100001)) }

/-- The waits of a PMARK: not answered, answered, a miss under TRAP, a miss under STALL. -/
def markWait (missed woken : Bool) : List GroupWait := [⟨none, .pmark 3 missed, woken, false⟩]
def stallWait (p : Nat) : List GroupWait := [⟨none, .pages [(p, 1)] true, false, false⟩]

theorem far_launch : (curLaunch (farState none [])).isSome = true := by decide +kernel

/-- R287 to R290: PMARK at its first issue and in each wait; SMWAIT in a handler, past the addresses, on a resident and on a far page; RESQ of
a far page, translated. -/
theorem witness_ResidencyInstructions :
    (∀ ws ∈ [[], markWait false true, markWait false false, markWait true false, stallWait 9, stallWait 5], let s := farState none ws
      decide (checkEnc { rd := .unused, ra := .imm, rb := .imm, xp := .layoutB, u := .one } true (curGroup s).alloc (wordU 0 1 0) = none) = true ∧
      (curSpan s).isSome = true ∧ ¬ held (wordU 0 1 0) s ∧ curLaunchId s = some 0 ∧ (findLaunch s 0).isSome = true ∧ curWait s = ws.head? ∧
      inSkid s = false) ∧
    (rangeResident (farState none []) 0 (9, 1) = true ∧ rangeResident (farState none []) 0 (5, 1) = false) ∧
    (let e := wordU 4 2 0
     Legal { pagesForm .one with mem := some ⟨[0], false, false⟩ } true e (farState none []) ∧
      (∀ p ∈ [5, 9], curWait (farState none [⟨none, .pages [(p, 1)] false, false, false⟩]) = some ⟨none, .pages [(p, 1)] false, false, false⟩) ∧
      ¬ held e (farState none []) ∧ inHandler (farState none []) = false ∧
      smwaitStart e (farState none []) < 2 ^ 57 ∧ smwaitPages e (farState none []) = (5, 1) ∧ curCtx (farState none []) = 0 ∧ noWait (farState none []) ∧
      inHandler (modSpan (farState none []) 0 fun sp => { sp with handler := some 0 }) = true ∧
      2 ^ 57 ≤ smwaitStart e (modCur (farState none []) (writeG 3 0x2000000)) ∧
      smwaitPages e (modCur (farState none []) (writeG 2 (9 * 2 ^ 21))) = (9, 1)) ∧
    (Legal (pagesForm .both) true (wordU 4 2 0) (farState none []) ∧ Legal (pagesForm .both) true (word 4 2 0) (farState none []) ∧
      ∃ la, curLaunch (farState none []) = some la ∧ (∃ x, look (farState none []) none la.ctx 0xA00000 = .ok x ∧ x.tier = 1) ∧
        look (farState none []) none la.ctx 0x1200000 = .absent) := by
  refine ⟨by unfold held; decide +kernel, by decide +kernel, ⟨legal_at rfl (by decide +kernel), by decide +kernel, by unfold held; decide +kernel,
      by unfold noWait; decide +kernel⟩,
    ⟨legal_at rfl (by decide +kernel), legal_at rfl (by decide +kernel), _, (Option.some_get far_launch).symm,
      ⟨⟨1, 2 ^ 21 * 7, 21, true, true, false, false, 0, 0, false⟩, by decide +kernel, rfl⟩, by decide +kernel⟩⟩

/-- R285 to R287, R293: a PMARK that misses nothing and one that misses page 5; a move that may start; sixteen moves; the host-assisted mode. -/
theorem witness_TrestleSteps :
    (∀ t ∈ [none, some 0x4000], let s := farState t (markWait false false)
      ∃ sp, findSpan s 0 = some sp ∧ sp.groups[0]?.isSome = true ∧ ∃ la ∈ findLaunch s sp.launch, la.trestle.posted = [(3, 0, 0, 1)] ∧
        (missedEntries s la la.trestle.marker (min (la.trestle.marker + 1) (2 ^ 64 - 1))).map List.isEmpty = some (decide (t = none))) ∧
    (let s1 := settleTrestle 0 (farState none [])
     hwMode s1 2 = true ∧ (trestleMoves s1 0).length < 16 ∧ ∃ la, findLaunch s1 0 = some la ∧ la.trestle.ended = false ∧ lastRunOver s1 0 la = false ∧
      ((firstWish ((windowWishes s1 0 la.ctx la.trestle [] la.trestle.window).filter (wishReady s1 0 la.trestle))).map (·.page)) = some 5 ∧
      (managedPage s1 la.ctx 5).isSome = true) ∧
    (let m : Move := ⟨0, .trestle 0 (some 0), 0, 9, 1, 9, 0, 9, false, []⟩
     let s := { farState none [] with vm := { (farState none []).vm with moves := List.replicate 16 m } }
     16 ≤ (trestleMoves (settleTrestle 0 s) 0).length ∧ hwMode s 2 = true ∧ (findLaunch (settleTrestle 0 s) 0).isSome = true) ∧
    (let s := { farState none [] with fe := { (farState none []).fe with fmode := 0 } }
     let s1 := settleTrestle 0 s
     hwMode s 2 = false ∧ ∃ la, findLaunch s1 0 = some la ∧ la.trestle.ended = false ∧ lastRunOver s1 0 la = false ∧
      (firstWish ((windowWishes s1 0 la.ctx la.trestle [] la.trestle.window).filter (wishReady s1 0 la.trestle))).isSome = true) := by
  refine ⟨fun t ht => ?_, ⟨by decide +kernel, by decide +kernel, some_with (by decide +kernel)⟩, by decide +kernel,
    ⟨by decide +kernel, some_with (by decide +kernel)⟩⟩
  exact some_with (by revert t; decide +kernel)


/-- A bay with input items and an output capacity; the launch is a pipeline of bays 0 to 2 and its span is one of bay `b`. -/
def testBay (input : List (BitVec 64)) (capacity : Nat) : Bay := { fetchWordBay with input := input, capacity := capacity, batch := 1 }
def pipelined (b : Nat) (input next : List (BitVec 64)) (s : State) : State :=
  let s := modSpan s 0 fun sp => { sp with bay := b }
  { s with launches := s.launches.map fun p => (p.1, { p.2 with
      record := BitVec.ofNat 1024 (2 ^ (8 * 88) * 0x4000), bays := [testBay [] 40, testBay input 40, testBay next 0], next := 0, total := 5 }) }

/-- R252: QPOP in a bay without an input, by one slice, with a false guard, on an empty input, and on one with an item; QPUSH in the last bay,
without room, and with room. -/
theorem witness_Items :
    (let s := gangState
     Legal itemForm true (word 4 0 0) s ∧ inHandler s = false ∧ ∃ sp, curSpan s = some sp ∧ ∃ la ∈ findLaunch s sp.launch,
      (la.bays[sp.bay]?).isSome = true ∧ sp.bay = 0 ∧ la.bays.length = 1) ∧
    (let s := { pipelined 1 [7] [] gangState with issuer := .gang 0 0 (some 3) }
     Legal itemForm true (word 4 0 0) s ∧ ¬ held (word 4 0 0) s ∧ wholeGang s = false ∧ ∃ sp, curSpan s = some sp ∧
      ∃ la ∈ findLaunch s sp.launch, recPipeline la.record ≠ 0 ∧ sp.bay ≠ 0 ∧ sp.bay + 1 < la.bays.length) ∧
    (Legal itemForm true ⟨none, 0, 0, 4, 2, false⟩ (pipelined 1 [7] [] gangState) ∧ actLanes ⟨none, 0, 0, 4, 2, false⟩ (pipelined 1 [7] [] gangState) = 0) ∧
    (let s := pipelined 1 [] [] gangState
     Legal itemForm true (word 4 0 0) s ∧ actLanes (word 4 0 0) s ≠ 0 ∧ wholeGang s = true ∧ ∃ sp, curSpan s = some sp ∧
      ∃ la ∈ findLaunch s sp.launch, recPipeline la.record ≠ 0 ∧ sp.bay = 1 ∧ la.bays[1]? = some (testBay [] 40) ∧
        inputEnded s sp.launch la sp.bay = false) ∧
    (let s := pipelined 1 [7] [] gangState
     Legal itemForm true (word 4 0 0) s ∧ actLanes (word 4 0 0) s ≠ 0 ∧ wholeGang s = true ∧ ∃ sp, curSpan s = some sp ∧
      ∃ la ∈ findLaunch s sp.launch, la.bays[1]? = some (testBay [7] 40)) ∧
    (Legal itemForm true (word 4 0 0) (pipelined 2 [] [] gangState) ∧ ∃ sp, curSpan (pipelined 2 [] [] gangState) = some sp ∧ sp.bay = 2) ∧
    (∀ n ∈ [0, 9], let s := pipelined 1 [] (List.replicate n 5) gangState
      Legal itemForm true (word 4 0 0) s ∧ wholeGang s = true ∧ (accessesOf (word 4 0 0) s).length = 32 ∧ ∃ sp, curSpan s = some sp ∧
        ∃ la ∈ findLaunch s sp.launch, la.bays[1]? = some (testBay [] 40) ∧ la.bays[2]? = some (testBay (List.replicate n 5) 0) ∧
          (32 ≤ 40 - n ↔ n = 0)) :=
  ⟨⟨legal_here (by decide), by decide +kernel, some_with (by decide +kernel)⟩,
    ⟨legal_gang (sid := 0) (n := 0) (sl := some 3) rfl (by decide +kernel) (by decide +kernel), by unfold held; decide +kernel, by decide +kernel,
      some_with (by decide +kernel)⟩,
    ⟨legal_at rfl (by decide +kernel), by decide +kernel⟩,
    ⟨legal_at rfl (by decide +kernel), by decide +kernel, by decide +kernel, some_with (by decide +kernel)⟩,
    ⟨legal_at rfl (by decide +kernel), by decide +kernel, by decide +kernel, some_with (by decide +kernel)⟩,
    ⟨legal_at rfl (by decide +kernel), some_with (by decide +kernel)⟩,
    fun n hn => ⟨legal_at (by revert n; decide +kernel) (by revert n; decide +kernel), by revert n; decide +kernel, by revert n; decide +kernel,
      some_with (by revert n; decide +kernel)⟩⟩

/-- The span's launch at a depth, with children waiting in its slot; g2:g3 name a record. -/
def spawnState (va : Nat) (depth kids : Nat) : State :=
  let s := modCur (mapped gangState) (writeG 2 (BitVec.ofNat 32 va))
  { s with
    launches := s.launches.map (fun p => (p.1, { p.2 with depth := depth })) ++
      (List.range kids).map fun i => (1 + i, { fetchWordLaunch .prologue with next := 0, active := 0, depth := 2 })
    fe := { s.fe with slots := [(0, ⟨0x1000, 0, 0 :: (List.range kids).map (1 + ·)⟩)] } }

/-- R253, R254: SPAWN in a handler, by one slice, off alignment, at the eighth level, with 256 children waiting, and with its record read; JOIN
with no child, with one, and waiting. -/
theorem witness_Children :
    (let e := wordU 4 2 0
     Legal { rd := .reg 1 1, ra := .reg 2 2, rb := .imm, u := .one, mem := some ⟨[0], false, false⟩ } true e (spawnState 0x1000 1 0) ∧
      ¬ held e (spawnState 0x1000 1 0) ∧ wholeGang (spawnState 0x1000 1 0) = true ∧ inHandler (spawnState 0x1000 1 0) = false ∧
      inHandler (modSpan (spawnState 0x1000 1 0) 0 fun sp => { sp with handler := some 0 }) = true ∧
      wholeGang { spawnState 0x1000 1 0 with issuer := .gang 0 0 (some 3) } = false ∧
      addressOf e 128 (curGroup (spawnState 0x1040 1 0)) 0 % 128 ≠ 0 ∧ addressOf e 128 (curGroup (spawnState 0x1000 1 0)) 0 % 128 = 0 ∧
      ((curLaunch (spawnState 0x1000 8 0)).map (·.depth)) = some 8 ∧ ((curLaunch (spawnState 0x1000 7 0)).map (·.depth)) = some 7 ∧
      256 ≤ waitingChildren (spawnState 0x1000 1 256) 0 ∧ waitingChildren (spawnState 0x1000 1 255) 0 = 255 ∧
      ∃ la, curLaunch (spawnState 0x1000 7 0) = some la ∧
        (consumeLaunch (fun rec => newLaunch la.slot none la.ctx (some 0) (la.depth + 1) rec none la.destroyed) la.ctx 0x1000 (spawnState 0x1000 7 0)).1.isSome = true) ∧
    (∀ cs ∈ [[], [0]], let s := modSpan gangState 0 fun sp => { sp with children := cs }
      Legal { rd := .unused, ra := .unused, rb := .unused, u := .one } true (wordU 0 0 0) s ∧ ¬ held (wordU 0 0 0) s ∧ inHandler s = false ∧
      wholeGang s = true ∧ noWait s ∧ ∃ sp, curSpan s = some sp ∧ sp.children = cs ∧ ((∀ c ∈ cs, findLaunch s c = none) ↔ cs = [])) ∧
    (∀ cs ∈ [[5], [0]], let s := gangWith fun g => { g with waits := [⟨none, .join cs, false, false⟩] }
      curWait s = some ⟨none, .join cs, false, false⟩ ∧ ((∀ c ∈ cs, findLaunch s c = none) ↔ cs = [5])) := by
  refine ⟨⟨legal_at rfl (by decide +kernel), by unfold held; decide +kernel, by refine ⟨?_, ?_, ?_, ?_, ?_, ?_, ?_, ?_, ?_, ?_, some_with ?_⟩ <;> decide +kernel⟩,
    fun cs hc => ⟨legal_at (by revert cs; decide +kernel) (by revert cs; decide +kernel), by unfold held; revert cs; decide +kernel,
      by revert cs; decide +kernel, by revert cs; decide +kernel, by unfold noWait; revert cs; decide +kernel, some_with (by revert cs; decide +kernel)⟩,
    by decide +kernel⟩

/-- A prologue engine runs a launch; its registers hold a record's first words. -/
def prologueState (ws : List Word) : State := modCur { State.reset.withFetchWord 32 0x7F9 with issuer := .prologue 0 } (writeGs 0 ws)

/-- The words of a legal record: a grid of one span of one group with 8 registers. -/
def legalWords : List Word := [0, 0, 1, 1, 1, 0, 0x801, 0, 0, 0, 0, 0, 0, 0, 0, 0]

/-- The launch with the record of those words, after a run. -/
def ranLaunch (s : State) (la : Launch) : Launch :=
  { la with record := writtenRecord (curGroup s) la.record, runsDone := la.runsDone + 1 }

theorem ends_launch : (findLaunch (prologueState legalWords) 0).isSome = true := by decide +kernel
theorem fails_launch : (findLaunch (prologueState []) 0).isSome = true := by decide +kernel

/-- R237, R238: PEND, PREPEAT and PCANCEL on an engine, with a true and a false guard, and a record that passes and one that fails; on a pier;
a launch whose prologue may start; no free engine; an engine at its limit and one below it; a launch that asks for a further run. -/
theorem witness_Prologues :
    (Legal (endForm false) true (wordU 0 0 0) (prologueState []) ∧
      Legal (endForm true) (decide (1 ≤ immRj (wordU 0 63 63)) && decide (immRj (wordU 0 63 63) < 4096)) (wordU 0 63 63) (prologueState []) ∧
      held ⟨none, 0, 0, 0, 2, true⟩ (prologueState []) ∧ ¬ held (wordU 0 0 0) (prologueState [])) ∧
    (∃ la, RunsPrologue (prologueState legalWords) 0 0 la ∧
      ((checkLaunch (ranLaunch (prologueState legalWords) la)).run (prologueState legalWords)).1.toOption.isSome = true) ∧
    (∃ la, RunsPrologue (prologueState []) 0 0 la ∧
      ((checkLaunch (ranLaunch (prologueState []) la)).run (prologueState [])).1.toOption.isSome = false) ∧
    (Legal (endForm false) true (wordU 0 0 0) gangState ∧ Legal (endForm true) (decide (immRj (wordU 0 0 0) < 4096)) (wordU 0 0 0) gangState ∧
      Legal (endForm true) (decide (1 ≤ immRj (wordU 0 1 0)) && decide (immRj (wordU 0 1 0) < 4096)) (wordU 0 1 0) gangState) ∧
    (let s := { gangState with launches := gangState.launches.map fun p => (p.1, { p.2 with phase := .prologue }) }
     freeEngine s = some 0 ∧ ∃ la, findLaunch s 0 = some la ∧ la.phase = .prologue ∧ prologueBehind s 0 la = false) ∧
    (freeEngine { State.reset with fe := { State.reset.fe with engines := [] } } = none) ∧
    (∀ n ∈ [4095, 4096], let s := modFe (fun fe => { fe with engines := fe.engines.map fun en => { en with count := n } }) (prologueState [])
      ∃ en, s.fe.engines[0]? = some en ∧ en.launch = some 0 ∧ en.count = n) ∧
    (∀ n ∈ [0, 1], let s := { gangState with spans := [], launches := gangState.launches.map fun p => (p.1, { p.2 with active := 0, repeatTo := n }) }
      ∃ la, findLaunch s 0 = some la ∧ runOver s 0 la = true ∧ (la.run < la.repeatTo ↔ n = 1)) := by
  have hs (ws : List Word) : (prologueState ws).issuer = .prologue 0 := rfl
  have hl {f : Form} {extra : Bool} {e : Enc} (h1 : f.prologue = true) (h2 : e.u = true) (h3 : checkEnc f extra 128 e = none) :
      Legal f extra e (prologueState []) := ⟨by unfold Issues; rw [hs]; decide +kernel, by rw [hs]; exact ⟨h1, h2, h3⟩⟩
  refine ⟨⟨hl rfl rfl (by decide), hl rfl rfl (by decide), by unfold held; decide +kernel, by unfold held; decide +kernel⟩,
    ⟨_, ⟨hs _, some_with (by clear hl hs; decide +kernel), (Option.some_get ends_launch).symm⟩, by clear hl hs; decide +kernel⟩,
    ⟨_, ⟨hs _, some_with (by clear hl hs; decide +kernel), (Option.some_get fails_launch).symm⟩, by clear hl hs; decide +kernel⟩,
    ⟨legal_here (by decide), legal_here (by decide), legal_here (by decide)⟩, ⟨by decide +kernel, some_with (by clear hl hs; decide +kernel)⟩, by decide +kernel,
    fun n hn => some_with (by clear hl hs; revert n; decide +kernel), fun n hn => some_with (by clear hl hs; revert n; decide +kernel)⟩


/-- A queue descriptor: ring of 16 packets at host byte 0x10000, read index at 0x9000, state as given. -/
def testDesc (st : Nat) : BitVec 256 := BitVec.ofNat 256 (0x10000 + 2 ^ 64 * 0x9000 + 2 ^ 128 * 4 + 2 ^ 196 * st)

/-- A queue of it with `n` packets left. -/
def testQueue (st n : Nat) : Queue := ⟨testDesc st, BitVec.ofNat 64 n, 0, false, none, none, false⟩

/-- Context 0 has a window on the first GiB of HBM; queue 0 is bound to slot 0, its first packet is `p`; bytes 1 to 8 stand at HBM 0x1000 and a
record with a prologue at 0x2000. -/
def hostState (q : Queue) (p : Nat) : State :=
  { State.reset with
    fe := { State.reset.fe with queues := [(0, q)], slots := [(0, ⟨0x1000, 0, []⟩)] }
    vm := { State.reset.vm with windows := [⟨0, true, 0, 2 ^ 30, 0, 6⟩] }
    mem := cellSetRange 0 (cellSetRange 0 (cellSetRange 0 [] (memKey 0 0x1000) [1, 2, 3, 4, 5, 6, 7, 8]) (memKey 0 0x2000)
      (natToBytes 128 (2 ^ (8 * 104) * 0x40))) (hostKey 0x10000) (natToBytes 64 p) }

/-- The parts of `Takes`, evaluated. -/
def takes (s : State) (p k : Nat) : Bool :=
  (decide (consuming s 0 = some 0) && !hostRefuses s (packetAddr (findQueue s 0)) && !memPoisoned s (packetKey (findQueue s 0)) 64) &&
    (nextPacket s (findQueue s 0) == p && pktType p == k && packetLegal p)

theorem takes_of {s : State} {p k : Nat} (h : takes s p k = true) : Takes s 0 0 p k := by
  unfold takes at h
  simp only [Bool.and_eq_true, decide_eq_true_eq, beq_iff_eq, Bool.not_eq_true'] at h
  exact ⟨h.1.1.1, h.1.1.2, h.1.2, h.2.1.1, h.2.1.2, h.2.2⟩

/-- A packet of each type: NOP, a launch, WAIT for the value at 0x1000 and for a greater one, SIGNAL writing and adding, FENCE, TABLE. -/
def packetRows : List (Nat × Nat) :=
  [(0, 0), (1 + 2 ^ 64 * 0x2000, 1), (2 + 2 ^ 64 * 0x1000 + 2 ^ 128 * 0x0807060504030201, 2),
   (2 + 2 ^ 64 * 0x1000 + 2 ^ 128 * 0x0807060504030202, 2), (3 + 2 ^ 64 * 0x1000 + 2 ^ 128 * 5, 3), (3 + 2 ^ 8 + 2 ^ 64 * 0x1000 + 2 ^ 128 * 5, 3),
   (4, 4), (5 + 2 ^ 64 * 0x4000, 5)]

/-- A host that answers every access to the page of an address with an error. -/
def refusing (a : Nat) (s : State) : State := { s with outside := { s.outside with hostErrors := [a / 4096] } }

/-- The ring's first packet is uncorrectable. -/
def spoilt (s : State) : State := { s with poison := cellSetRange 0 s.poison (hostKey 0x10000 / 8) [1] }

/-- R231, R232, R438: each packet read whole, one of no type, a ring and a read index that the host refuses, a ring with an error, the words a WAIT and a SIGNAL name, a held WAIT, a FENCE with a launch before it and one without, and a record that is read. -/
theorem witness_Packets :
    (∀ r ∈ packetRows, Takes (hostState (testQueue 1 1) r.1) 0 0 r.1 r.2) ∧
    (let s := hostState (testQueue 1 1) 9
     consuming s 0 = some 0 ∧ hostRefuses s (packetAddr (findQueue s 0)) = false ∧ memPoisoned s (packetKey (findQueue s 0)) 64 = false ∧
      nextPacket s (findQueue s 0) = 9 ∧ 5 < pktType 9) ∧
    (let s := hostState (testQueue 1 1) 0
     consuming (refusing 0x10000 s) 0 = some 0 ∧ hostRefuses (refusing 0x10000 s) (packetAddr (findQueue s 0)) = true ∧
      takes (refusing 0x9000 s) 0 0 = true ∧ hostRefuses (refusing 0x9000 s) (descReadVa (findQueue s 0).desc) = true ∧
      hostRefuses s (descReadVa (findQueue s 0).desc) = false ∧ queueSlot s 0 = some 0 ∧
      consuming (spoilt s) 0 = some 0 ∧ hostRefuses (spoilt s) (packetAddr (findQueue s 0)) = false ∧
      memPoisoned (spoilt s) (packetKey (findQueue s 0)) 64 = true) ∧
    (∀ need ∈ [Need.load, .store, .atomic], let s := hostState (testQueue 1 1) 0
      queueCtx s 0 = 0 ∧ FeReaches s 0 need 0x1000 8 (at1000 8 0) ∧ valueAt (readByte s.mem) (at1000 8 0) = 0x0807060504030201) ∧
    (let s := hostState { testQueue 1 1 with waiting := some (0, 0x1000, 5) } 0
     slotBound (findSlot s 0) = true ∧ slotQueue (findSlot s 0) = 0 ∧ (findQueue s 0).stopped = false ∧ (findQueue s 0).waiting = some (0, 0x1000, 5)) ∧
    (let s := hostState { testQueue 1 1 with fenced := true } 0
     let t := { s with launches := [(0, { fetchWordLaunch .running with queue := some 0 })] }
     slotQueue (findSlot t 0) = 0 ∧ (findQueue t 0).fenced = true ∧ (∃ p ∈ t.launches, p.2.queue = some 0) ∧
      (∀ u ∈ [s, hostState (testQueue 1 1) 0], slotBound (findSlot u 0) = true ∧ slotQueue (findSlot u 0) = 0 ∧ slotHold (findSlot u 0) = false ∧
        descState (findQueue u 0).desc = 1 ∧ (findQueue u 0).stopped = false ∧ (findQueue u 0).waiting = none ∧ u.launches = [] ∧
        (findQueue u 0).readIndex.toNat < (findQueue u 0).writeIndex.toNat)) ∧
    (let s := hostState (testQueue 1 1) 0
     let keys := (List.range 128).map (memKey 0 0x2000 + ·)
     FeReaches s 0 .load 0x2000 128 keys ∧
      let la := newLaunch 0 (some 0) 0 none 1 (valueAt (readByte s.mem) keys) none none
      la.destroyed = none ∧ recPrologue la.record ≠ 0 ∧ la.trestle.table = none ∧
        (consumeLaunch (fun rec => newLaunch 0 (some 0) 0 none 1 rec none none) 0 0x2000 s).1.isSome = true) := by
  unfold FeReaches Correctable
  exact ⟨fun r hr => takes_of (by revert r; decide +kernel), by and_intros <;> decide +kernel⟩

/-- The queues of the witnesses below: absent, active, with 17 packets where 16 fit, draining. -/
def destroying (st : Nat) (l : List Nat) : State :=
  let s := hostState (testQueue st 1) 0
  { s with fe := { s.fe with slots := [(0, ⟨0x1000, 0, l⟩)] }, launches := l.map fun i => (i, fetchWordLaunch .running) }

/-- R229, R230, R256: a create that is refused and one that is not, of an absent queue; of one that is there; doorbells that lower, raise and
overfill; each destroy command on an absent, an idle and a busy queue. -/
theorem witness_HostQueues :
    (descState (findQueue State.reset 4095).desc = 0 ∧
      (∀ w ∈ [2 ^ 192 + 0x10000 + 2 ^ 64 * 0x9000 + 2 ^ 128 * 16, 2 ^ 192 + 0x400 + 2 ^ 128 * 4],
        descCommand (BitVec.ofNat 256 w) = 1 ∧ createRefused (BitVec.ofNat 256 w) = decide (w = 2 ^ 192 + 0x10000 + 2 ^ 64 * 0x9000 + 2 ^ 128 * 16)) ∧
      createRefused (BitVec.ofNat 256 (2 ^ 192 + 0x400 + 2 ^ 128 * 4)) = false ∧ descCommand (BitVec.ofNat 256 (2 ^ 192 + 0x400 + 2 ^ 128 * 4)) = 1) ∧
    (let s := hostState (testQueue 1 1) 0
     descState (findQueue s 0).desc ≠ 0 ∧ (1 : BitVec 64).toNat ≤ (findQueue s 0).writeIndex.toNat ∧
      (findQueue s 0).writeIndex.toNat < (17 : BitVec 64).toNat ∧ (findQueue s 0).readIndex.toNat + 2 ^ descSize (findQueue s 0).desc < (17 : BitVec 64).toNat ∧
      ¬ (findQueue s 0).readIndex.toNat + 2 ^ descSize (findQueue s 0).desc < (16 : BitVec 64).toNat) ∧
    (hostRefuses (destroying 1 []) (descReadVa (findQueue (destroying 1 []) 0).desc) = false ∧
      hostRefuses (refusing 0x9000 (destroying 1 [])) (descReadVa (findQueue (destroying 1 []) 0).desc) = true) ∧
    (queueSlot (hostState (testQueue 1 1) 0) 0 = some 0 ∧ (findSlot (hostState (testQueue 1 1) 0) 0).sloti.getLsbD 1 = false) ∧
    (∀ p ∈ [2, 3, 4], (descState (findQueue (destroying 1 []) 0).desc = 1 ∧ 1 < p ∧ queueSlot (destroying 1 []) 0 = some 0 ∧
        (findSlot (destroying 1 []) 0).launches = []) ∧
      (p ≤ descState (findQueue (destroying p []) 0).desc) ∧
      (let s := destroying 1 [0]
       queueSlot s 0 = some 0 ∧ 0 ∈ (findSlot s 0).launches ∧ (findSlot s 0).launches.Nodup ∧ (findLaunch s 0).isSome = true ∧
        ∀ c ∈ s.spans, c.2.launch ≠ 0)) := by decide +kernel

/-- The front end in the host-assisted mode of slots. -/
def assisted (s : State) : State := { s with fe := { s.fe with fmode := 0 } }

/-- R240, R241, R255: SLOTB in host-assisted mode to a slot that is not bound; a bound slot with a quantum; in hardware mode a queue that wants a
slot; a held WAIT in every bound slot. -/
theorem witness_Slots :
    (let s := assisted State.reset
     hwMode s 0 = false ∧ (0x1000 : BitVec 64).toNat / 2 ^ 14 % 2 ^ 18 = 0 ∧ slotBound (findSlot s 127) = false ∧ (findSlot s 127).launches = [] ∧
      ∀ m, m < 128 → m ≠ 127 → slotBound (findSlot s m) = true → slotQueue (findSlot s m) ≠ (0x1000 : BitVec 64).toNat % 2 ^ 12) ∧
    (let s := assisted (destroying 1 [0])
     (4096 + 1) % 2 ^ 13 ≠ (findSlot s 0).slotb.toNat % 2 ^ 13 ∧ (findSlot s 0).launches ≠ []) ∧
    (let s := assisted { hostState (testQueue 1 1) 0 with fe := { (hostState (testQueue 1 1) 0).fe with slots := [(0, ⟨0x100001000, 0, []⟩)] } }
     slotBound (findSlot s 0) = true ∧ (findSlot s 0).slotb.toNat / 2 ^ 32 ≠ 0 ∧ (findSlot s 0).sloti.getLsbD 2 = false) ∧
    (let s := { hostState (testQueue 1 1) 0 with fe := { (hostState (testQueue 1 1) 0).fe with slots := [] } }
     hwMode s 0 = true ∧ queueToBind s [] = some 0 ∧ freeSlot s = some 0) ∧
    (let s := assisted (hostState { testQueue 1 1 with waiting := some (0, 0x1000, 5) } 0)
     inDeadlock s = true ∧ hwMode s 0 = false ∧ (findSlot s 0).sloti.getLsbD 3 = false) ∧
    (∀ n ∈ [0, 1], let s := hostState (testQueue 1 1) 0
      let t := { s with fe := { s.fe with queues := [(0, { testQueue 1 1 with waiting := some (0, 0x1000, 5) }), (1, testQueue 1 n)] } }
      inDeadlock t = true ∧ hwMode t 0 = true ∧ queueToBind t [] = (if n = 1 then some 1 else none)) ∧
    inDeadlock (assisted State.reset) = false := by decide +kernel

/-- A launch of slot 0 that has no more to run, with a completion block at 0x1000 or none, and a trestle. -/
def endingState (done : Nat) (table : Option Nat) (ended : Bool) : State :=
  let s := hostState (testQueue 1 1) 0
  let la := fetchWordLaunch .finishing
  { s with
    launches := [(0, { la with
      record := BitVec.ofNat 1024 (2 ^ (8 * 44) * done)
      trestle := { la.trestle with table := table, ended := ended, hbmList := [3], hbmVa := 0x1100, farList := [] } })]
    fe := { s.fe with slots := [(0, ⟨0x1000, 0, [0]⟩)] } }

/-- The bytes of a completion block at 0x1000 above its signal. -/
def blockBytes : List Nat := (List.range 24).map (memKey 0 0x1008 + ·)

/-- A window holds a completion block, a trestle's header or a frame list, up to 0x2000. -/
theorem ending_window (done : Nat) (table : Option Nat) (ended : Bool) (va n : Nat) (hn : va + n ≤ 0x2000) :
    WindowHolds (endingState done table ended) 0 va n := by
  refine ⟨by omega, ⟨0, true, 0, 2 ^ 30, 0, 6⟩, rfl, fun a _ h => ?_⟩
  simp only [windowServes, Bool.true_and, Bool.and_eq_true, decide_eq_true_eq]
  omega

/-- The frame list and the words of a trestle's header that its end writes, and their byte numbers. -/
def headerRuns : List (Nat × Nat) := [(0x1100, 4), (0x1008, 4), (0x1018, 4), (0x102C, 4), (0x1030, 16)]
def runKeys (r : Nat × Nat) : List Nat := (List.range r.2).map (memKey 0 r.1 + ·)

theorem block_launch : (findLaunch (endingState 0x1000 none false) 0).isSome = true := by decide +kernel
theorem table_launch : (findLaunch (endingState 0 (some 0x1000) false) 0).isSome = true := by decide +kernel

/-- The writing of a completion block ends in an error. -/
def unwritable (s : State) (la : Launch) : Bool :=
  match ((writeCompletion la).run s).1 with
  | .error (.fail _) => true
  | _ => false

/-- R235, R236, R292: a launch that may not complete yet, one without a completion block, one with, one whose block lies outside the addresses;
a trestle that has ended or whose launch
runs, and one that ends. -/
theorem witness_LaunchesComplete :
    (∃ la, findLaunch gangState 0 = some la ∧ mayComplete gangState 0 la = false) ∧
    (∃ la, findLaunch (endingState 0 none false) 0 = some la ∧ mayComplete (endingState 0 none false) 0 la = true ∧ recDone la.record = 0) ∧
    (let s := endingState 0x1000 none false
     ∃ la, findLaunch s 0 = some la ∧ mayComplete s 0 la = true ∧ recDone la.record = 0x1000 ∧ la.ctx = 0 ∧
      memKeys (reachRun s none 0 .store 0x1008 24) = some blockBytes ∧ FeReaches s 0 .atomic 0x1000 8 (at1000 8 0) ∧
      (at1000 8 0 ++ blockBytes).Nodup ∧ WindowHolds s 0 0x1000 32) ∧
    (let s := endingState (2 ^ 57) none false
     ∃ la, findLaunch s 0 = some la ∧ mayComplete s 0 la = true ∧ recDone la.record = 2 ^ 57 ∧ unwritable s la = true) ∧
    (∃ la, findLaunch (endingState 0 (some 0x1000) true) 0 = some la ∧ la.trestle.table = some 0x1000 ∧ la.trestle.ended = true) ∧
    (let s := endingState 0 (some 0x1000) false
     ∃ la, findLaunch s 0 = some la ∧ la.trestle.table = some 0x1000 ∧ la.trestle.ended = false ∧ lastRunOver s 0 la = true ∧ la.ctx = 0 ∧
      trestleMoves s 0 = [] ∧ la.trestle.hbmList = [3] ∧ la.trestle.hbmVa = 0x1100 ∧ la.trestle.farList = [] ∧
      (∀ r ∈ headerRuns, memKeys (reachRun s none 0 .store r.1 r.2) = some (runKeys r)) ∧ (headerRuns.flatMap runKeys).Nodup ∧
      WindowHolds s 0 0x1100 4 ∧ WindowHolds s 0 0x1000 64) ∧
    (let s := hostState (testQueue 1 1) 0
     hwMode s 0 = true ∧ descState (findQueue s (slotQueue (findSlot s 0))).desc < 2) := by
  have block : let s := endingState 0x1000 none false
      ∀ la ∈ findLaunch s 0, mayComplete s 0 la = true ∧ recDone la.record = 0x1000 ∧ la.ctx = 0 ∧
        memKeys (reachRun s none 0 .store 0x1008 24) = some blockBytes := by decide +kernel
  have header : let s := endingState 0 (some 0x1000) false
      ∀ la ∈ findLaunch s 0, la.trestle.table = some 0x1000 ∧ la.trestle.ended = false ∧ lastRunOver s 0 la = true ∧ la.ctx = 0 ∧
        trestleMoves s 0 = [] ∧ la.trestle.hbmList = [3] ∧ la.trestle.hbmVa = 0x1100 ∧ la.trestle.farList = [] ∧
        ∀ r ∈ headerRuns, memKeys (reachRun s none 0 .store r.1 r.2) = some (runKeys r) := by decide +kernel
  have hb := block _ (Option.some_get block_launch).symm
  have hh := header _ (Option.some_get table_launch).symm
  exact ⟨some_with (by decide +kernel), some_with (by decide +kernel),
    ⟨_, (Option.some_get block_launch).symm, hb.1, hb.2.1, hb.2.2.1, hb.2.2.2, by unfold FeReaches Correctable; decide +kernel, by decide +kernel,
      ending_window _ _ _ _ _ (by decide)⟩, some_with (by decide +kernel), some_with (by decide +kernel),
    ⟨_, (Option.some_get table_launch).symm, hh.1, hh.2.1, hh.2.2.1, hh.2.2.2.1, hh.2.2.2.2.1, hh.2.2.2.2.2.1, hh.2.2.2.2.2.2.1,
      hh.2.2.2.2.2.2.2.1, hh.2.2.2.2.2.2.2.2, by decide +kernel, ending_window _ _ _ _ _ (by decide), ending_window _ _ _ _ _ (by decide)⟩,
    by decide +kernel⟩


/-- The group with no lane left. -/
def exitedGroup (g : Group) : Group := { g with slices := g.slices.map fun sl => { sl with live := 0, act := 0 } }

/-- `gangState` with its group and its span changed, and the flags of its launch. -/
def livesState (f : Group → Group) (h : Span → Span) (flags : Nat) : State :=
  let s := modSpan (gangWith f) 0 h
  { s with launches := s.launches.map fun p => (p.1, { p.2 with record := BitVec.ofNat 1024 (2 ^ (8 * 32) * flags) }) }

/-- The launches with other bays; a bay that no pier has room for. -/
def withBays (l : List Bay) (s : State) : State := { s with launches := s.launches.map fun p => (p.1, { p.2 with bays := l }) }
def hugeBay : Bay := { fetchWordBay with groups := 1000 }

/-- A killed span that may be relaunched, beside one that holds all the deck units of its pier. -/
def fullPier : State :=
  let s := livesState exitedGroup (fun sp => { sp with killed := some (causeOf 11 25) }) 1
  { s with spans := s.spans ++ s.spans.map fun p => (1, { p.2 with deckUnits := List.range 256, groups := [] }) }

/-- R133, R182, R218, R220, R224, R267: a group that has exited; a span whose groups are freed and one that runs; a killed span that is counted,
one that is relaunched on its pier, one on another, one that must leave room for a bay, and one that finds none; a skid in a trap; a trap whose groups have halted and one of which a group runs; no trap. -/
theorem witness_SpanLives :
    (∃ sp, findSpan (livesState exitedGroup id 0) 0 = some sp ∧ onPier sp = true ∧ sp.killed = none ∧
      ∃ g ∈ sp.groups[0]?, (∀ sl ∈ g.slices, sl.live = 0) ∧ g.ops = [] ∧ g.freed = false) ∧
    (let s := livesState (fun g => { exitedGroup g with freed := true }) id 0
     ∃ sp, findSpan s 0 = some sp ∧ (findLaunch s sp.launch).isSome = true ∧ spanDrained s 0 sp = true ∧ sp.killed = none ∧ ∀ g ∈ sp.groups, g.freed = true) ∧
    (∃ sp, findSpan gangState 0 = some sp ∧ spanDrained gangState 0 sp = false) ∧
    (let s := livesState exitedGroup (fun sp => { sp with killed := some (causeOf 3 6) }) 1
     ∃ sp, findSpan s 0 = some sp ∧ sp.killed = some (causeOf 3 6) ∧ spanDrained s 0 sp = true ∧ ∃ la ∈ findLaunch s sp.launch, relaunches s la sp = false) ∧
    (let s := livesState exitedGroup (fun sp => { sp with killed := some (causeOf 11 25) }) 1
     ∃ sp, findSpan s 0 = some sp ∧ onPier sp = true ∧ spanDrained s 0 sp = true ∧ ∃ la ∈ findLaunch s sp.launch, relaunches s la sp = true ∧
      ∃ b ∈ la.bays[sp.bay]?, (fitQuadrant (pierUsage (withoutSpan 0 s) (spanPier sp)) (bayShape b)).isSome = true ∧
        ∃ x ∈ relaunchPier 0 sp b s, (takeSlots x.2 b.groups (freeSlots (withoutSpan 0 s) x.1)).length = b.groups ∧ x.1 = spanPier sp ∧
          pierUsage (relaunchOn 0 x.1 x.2 sp b la.ctx (settleLeaving 0 s)) x.1 = pierUsage s x.1) ∧
    (∀ bs ∈ [[fetchWordBay], [fetchWordBay, { hugeBay with input := [7] }]], let s := withBays bs fullPier
     ∃ sp, findSpan s 0 = some sp ∧ onPier sp = true ∧ spanDrained s 0 sp = true ∧ ∃ la ∈ findLaunch s sp.launch, relaunches s la sp = true ∧
      ∃ b ∈ la.bays[sp.bay]?, ∃ x ∈ relaunchPier 0 sp b s, (takeSlots x.2 b.groups (freeSlots (withoutSpan 0 s) x.1)).length = b.groups ∧
        x.1 ≠ spanPier sp ∧ pierUsage (relaunchOn 0 x.1 x.2 sp b la.ctx (settleLeaving 0 s)) x.1 ≠ pierUsage s x.1 ∧
          holdsRoom (relaunchOn 0 x.1 x.2 sp b la.ctx (settleLeaving 0 s)) (sp.launch, sp.bay) = decide (bs.length = 1)) ∧
    (let s := withBays [hugeBay] (livesState exitedGroup (fun sp => { sp with killed := some (causeOf 11 25) }) 1)
     ∃ sp, findSpan s 0 = some sp ∧ onPier sp = true ∧ spanDrained s 0 sp = true ∧ ∃ la ∈ findLaunch s sp.launch, relaunches s la sp = true ∧
      ∃ b ∈ la.bays[sp.bay]?, relaunchPier 0 sp b s = none) ∧
    (∃ sp, findSpan (livesState (fun g => { g with skid := some 7 }) (fun sp => { sp with trap := some (0, causeOf 0 28, 1) }) 0) 0 = some sp ∧ sp.trap ≠ none ∧
      ∃ g ∈ sp.groups[0]?, g.skid ≠ none ∧ g.halted = false ∧ ∃ sl ∈ g.slices, sl.live ≠ 0) ∧
    (∃ sp, findSpan (livesState (fun g => { g with halted := true }) (fun sp => { sp with trap := some (0, causeOf 0 28, 1) }) 0) 0 = some sp ∧
      sp.trap = some (0, causeOf 0 28, 1) ∧ ∀ g ∈ sp.groups, g.halted = true) ∧
    (∃ sp, findSpan (livesState id (fun sp => { sp with trap := some (0, causeOf 0 28, 1) }) 0) 0 = some sp ∧ sp.trap = some (0, causeOf 0 28, 1) ∧
      ¬ ∀ g ∈ sp.groups, g.halted = true ∨ ∀ sl ∈ g.slices, sl.live = 0) ∧
    ∃ sp, findSpan gangState 0 = some sp ∧ sp.trap = none := by
  refine ⟨some_with ?_, some_with ?_, some_with ?_, some_with ?_, some_with ?_, fun bs hb => some_with ?_, some_with ?_, some_with ?_, some_with ?_, some_with ?_, some_with ?_⟩ <;>
    first | decide +kernel | (revert bs; decide +kernel)

/-- A launch of three spans of which none is dispatched, in slot 0; die 0 has reported 64 free slots; batches as given. -/
def dispatchState (b : List (List BatchSpan)) : State :=
  let la := { fetchWordLaunch .running with next := 0, total := 3, active := 0 }
  { State.reset with
    launches := [(0, { la with record := BitVec.ofNat 1024 (2 ^ 64 * 3 + 2 ^ 96 + 2 ^ 128 + 2 ^ (8 * 24) * 0x801) })]
    fe := { State.reset.fe with
      slots := [(0, ⟨0x1000, 0, [0]⟩)]
      reports := [64, 0, 0, 0]
      batches := b
      ctxpool := BitVec.ofNat 128 (0x100000 + 2 ^ 94) } }

/-- No batch. -/
def noBatches : List (List BatchSpan) := [[], [], [], []]

/-- A span to place. -/
def firstSpan : BatchSpan := ⟨0, none, 0, 0, 0⟩

/-- The areas and piers a span of the test bay is given. -/
def placed (s : State) : Option (Launch × Bay × (Nat × Nat) × Nat) :=
  (findLaunch s 0).bind fun la => (la.bays[0]?).bind fun b => (choosePier s 0 (bayShape b)).bind fun p =>
    (findArea s (areaBytes (bayShape b))).map fun a => (la, b, p, a)

/-- Two launches of the same priority, the first of a higher energy class than the headroom. -/
def powerState : State :=
  let s := dispatchState noBatches
  { s with
    launches := s.launches.map (fun p => (p.1, { p.2 with record := p.2.record ||| BitVec.ofNat 1024 (2 ^ (8 * 31) * 8 * 5) })) ++
      s.launches.map fun p => (1, { p.2 with slot := 1 })
    fe := { s.fe with headroom := [0, 0, 0, 0], slots := [(0, ⟨0x1000, 0, [0]⟩), (1, ⟨0x1001, 0, [1]⟩)] } }

/-- The slot is held. -/
def heldState : State := { dispatchState noBatches with fe := { (dispatchState noBatches).fe with slots := [(0, ⟨0x3000, 0, [0]⟩)] } }

/-- A co-resident launch beside the other, whose batch waits for die 1, or whose span waits on pier 70 of it. -/
def besideState (waits : Bool) : State :=
  let s := dispatchState [[], if waits then [] else [⟨1, none, 0, 0, 0⟩], [], []]
  { s with
    launches := s.launches ++ [(1, { fetchWordLaunch .running with record := BitVec.ofNat 1024 (2 ^ (8 * 32) * 2) })]
    spans := if waits then (gangState.spans.map fun p => (p.1, { p.2 with launch := 1, place := .waiting 70 })) else [] }

/-- R240, R242 to R247: a co-resident launch that is not whole; a die that reports; a candidate chosen and its batch; one that is deferred; a slot that is held; a machine with nothing
to dispatch; a span to place, with a pier and an
area. -/
theorem witness_Dispatch :
    0 < (dispatchState noBatches).fe.reports.length ∧ arbitrate (dispatchState noBatches) = some (0, []) ∧ forced (dispatchState noBatches) = none ∧
    (∃ la, findLaunch (dispatchState noBatches) 0 = some la ∧ restorable (dispatchState noBatches) la = none ∧
      ((newBatch (dispatchState noBatches) 0 la).map fun b => decide (b.1 < (dispatchState noBatches).fe.batches.length)) = some true) ∧
    ((arbitrate powerState).map (·.1) = some 1 ∧ (arbitrate powerState).map (·.2) = some [0]) ∧
    (∀ p ∈ heldState.launches, slotHold (findSlot heldState p.2.slot) = true) ∧
    (forced State.reset = none ∧ arbitrate State.reset = none) ∧
    (let s := dispatchState [[firstSpan], [], [], []]
     s.fe.batches[0]? = some (firstSpan :: []) ∧ firstSpan.saved = none ∧
      ∃ x, placed s = some x ∧ holdsRoom (placeNew 0 firstSpan x.1 x.2.1 x.2.2.1.1 x.2.2.1.2 x.2.2.2 s) (0, 0) = true ∧
        (takeSlots x.2.2.1.2 x.2.1.groups (freeSlots s x.2.2.1.1)).length = x.2.1.groups) ∧
    ∀ w ∈ [true, false], let s := besideState w
      (s.launches.map (·.1)).Nodup ∧ (∃ lc ∈ findLaunch s 1, coResident lc = true) ∧ ∃ la, findLaunch s 0 = some la ∧
        (newBatch s 0 la).isSome = true ∧ openBay la = none :=
  ⟨by decide +kernel, by decide +kernel, by decide +kernel, some_with (by decide +kernel), by decide +kernel, by decide +kernel, by decide +kernel,
    ⟨by decide +kernel, rfl, some_with (by decide +kernel)⟩,
    fun w hw => ⟨by revert w; decide +kernel, by revert w; decide +kernel, some_with (by revert w; decide +kernel)⟩⟩

/-- `gangState` in slot 0, its group waiting as given, its span marked or not. -/
def markedState (ws : List GroupWait) (m : Bool) : State :=
  let s := modSpan (gangWith fun g => { g with waits := ws }) 0 fun sp => { sp with marked := m, deckUnits := [] }
  { s with fe := { s.fe with slots := [(0, ⟨0x1000, 0, [0]⟩)] } }

/-- A saved span without a deck, at the head of die 0's batches. -/
def savedState : State :=
  let s := dispatchState [[⟨0, some 0, 0, 0, 0⟩], [], [], []]
  { s with spans := (markedState [] false).spans.map fun p => (p.1, { p.2 with place := .saved ⟨[], 0⟩ }) }

/-- A candidate that no die has room for, and a launch of a priority number whose span runs. -/
def starvedState (priority : Nat) : State :=
  let s := withBays [hugeBay] (dispatchState noBatches)
  { s with
    launches := s.launches ++ [(1, { fetchWordLaunch .running with record := BitVec.ofNat 1024 (2 ^ (8 * 31) * priority) })]
    spans := (markedState [] false).spans.map fun p => (p.1, { p.2 with launch := 1 }) }

/-- R257 to R262, R265, R266: a request to a slot with a running span; a marked span that runs; a span that is parked, drained and quiet, in
a unit of one; a saved span that may be restored. -/
theorem witness_Preemption_saves :
    ((0x8000 : BitVec 64).toNat / 2 ^ 16 = 0 ∧ (0x8000 : BitVec 64).toNat / 2 ^ 7 % 2 ^ 8 = 0 ∧ (0x8000 : BitVec 64).getLsbD 15 = true ∧
      ∃ sp, findSpan (markedState [] false) 0 = some sp ∧ isRunning sp = true ∧
        (findSlot (markedState [] false) 0).launches.contains sp.launch = true ∧ (findLaunch (markedState [] false) sp.launch).isSome = true ∧
        ∀ p ∈ (markedState [] false).spans, p.1 = 0 → p.2 = sp) ∧
    (∃ sp, findSpan (markedState [] true) 0 = some sp ∧ sp.marked = true ∧ sp.timedOut = false ∧ spanParked sp = false ∧
      ∃ la ∈ findLaunch (markedState [] true) sp.launch, coResident la = false ∧
        ∃ p ∈ unitSpans (markedState [] true) la sp, isRunning p.2 = true ∧ spanParked p.2 = false) ∧
    (∀ q ∈ [[], [imageEntry]], let s := { markedState [⟨none, .yield, false, false⟩] true with image := [(0, q)] }
     ∃ sp, findSpan s 0 = some sp ∧ sp.marked = true ∧ sp.timedOut = false ∧ spanParked sp = true ∧ (queueOps s 0 sp 1 = [] ↔ q = []) ∧
      ∃ la ∈ findLaunch s sp.launch, coResident la = false) ∧
    (let s := markedState [⟨none, .yield, false, false⟩] true
     ∃ sp, findSpan s 0 = some sp ∧ sp.marked = true ∧ spanParked sp = true ∧ savePoisoned (settleLeaving 0 s) sp = false ∧ Quiet s 0 sp ∧ Shaped sp ∧
      ∃ la ∈ findLaunch s sp.launch, (unitSpans s la sp).filter (fun p => isRunning p.2) = [(0, sp)] ∧ unitDrained s (unitSpans s la sp) = true) ∧
    (let s := savedState
     s.fe.batches[0]? = some [⟨0, some 0, 0, 0, 0⟩] ∧ ∃ sp, findSpan s 0 = some sp ∧ sp.place = .saved ⟨[], 0⟩ ∧ imagePoisoned s sp ⟨[], 0⟩ = false ∧
      sp.reservations.length = 16 ∧ (∀ k, k < 16 → let r := readReservation s (sp.areaBase + 512 + 64 * k)
        r.record.toNat / 2 ^ 3 % 2 ^ 17 = 0 ∧ (resValid r = true → resMode r ≠ 2)) ∧
      (∀ g ∈ sp.groups, ∀ o ∈ g.ops, caughtLoad o = false) ∧ sp.deckUnits = [] ∧
      ∃ la ∈ findLaunch s sp.launch, ∃ b ∈ la.bays[sp.bay]?, ∃ x ∈ choosePier s 0 (bayShape b),
        holdsRoom (placeSavedSpan 0 sp la.ctx x.1 x.2 (popBatch 0 b.groups s)) (sp.launch, sp.bay) = true ∧
        (takeSlots x.2 sp.groups.length (freeSlots s x.1)).length = sp.groups.length) := by
  unfold Quiet Shaped AllPerformed
  exact ⟨⟨by decide, by decide, by decide, some_with (by decide +kernel)⟩, some_with (by decide +kernel), fun q hq => some_with (by revert q; decide +kernel),
    some_with (by decide +kernel), by decide +kernel, some_with (by decide +kernel)⟩

/-- R249: a candidate that fits, and a launch that is none; one that does not fit beside a launch of a greater priority number; one of a number
as great as any that runs. -/
theorem witness_Preemption_starves :
    (∃ la, findLaunch (dispatchState noBatches) 0 = some la ∧ isCandidate (dispatchState noBatches) 0 la = true ∧
      batchFits (withoutMarked (dispatchState noBatches)) 0 la = true) ∧
    (∃ la, findLaunch gangState 0 = some la ∧ isCandidate gangState 0 la = false) ∧
    (Numbered (starvedState 5) ∧ runningTop (starvedState 5) 5 ∧ hwMode (starvedState 5) 0 = true ∧
      ∃ la, findLaunch (starvedState 5) 0 = some la ∧ isCandidate (starvedState 5) 0 la = true ∧
        batchFits (withoutMarked (starvedState 5)) 0 la = false ∧ launchPriority la = 0) ∧
    Numbered (starvedState 0) ∧ runningTop (starvedState 0) 0 := by
  unfold Numbered runningTop
  exact ⟨some_with (by decide +kernel), some_with (by decide +kernel),
    ⟨by decide +kernel, by decide +kernel, by decide +kernel, some_with (by decide +kernel)⟩, by decide +kernel⟩


/-- A fault ring of 32 records at host byte 0x20000. -/
def testRing : BitVec 128 := 0x20000

/-- `farState` with page 5's leaf owned by the host, and a fault of it open that the device services. -/
def ownedState : State :=
  let s := farState none []
  { s with
    mem := cellSetRange 0 s.mem (memKey 0 0x2028) (natToBytes 8 (3 + 0x600 + 2 ^ 21 * 7 + 2 ^ 53 + 2 ^ 54))
    vm := { s.vm with faultOpen := [⟨0, 2560, causeOf 3 10, 0, 0, 0xA00000, true⟩], engineWaits := [⟨.raster 0, 0, 2560, false⟩] } }

/-- R274 to R278: TLBINV, REPLAY and FAULTQ values in their limits; a ring with room; a page that is open and one that is not; a host-owned page
that is taken back; an engine that waits. -/
theorem witness_FaultService :
    ((2 ^ 127 : BitVec 128).toNat / 2 ^ 105 % 2 ^ 22 = 0 ∧ (2 ^ 127 : BitVec 128).toNat / 2 ^ 57 % 2 ^ 7 = 0 ∧ (2 ^ 127 : BitVec 128).toNat % 2 ^ 12 = 0 ∧
      (2 ^ 127 : BitVec 128).getLsbD 127 = true) ∧
    (∀ p ∈ [((2 ^ 72 : Nat), false), (2 ^ 73 + 2 ^ 12 * 2560, true)], let v := BitVec.ofNat 128 p.1
      v.toNat / 2 ^ 74 = 0 ∧ v.toNat / 2 ^ 57 % 2 ^ 7 = 0 ∧ v.toNat % 2 ^ 12 = 0 ∧ v.getLsbD 73 = p.2) ∧
    (testRing.toNat / 2 ^ 68 % 2 ^ 28 = 0 ∧ testRing.toNat % 2 ^ 12 = 0 ∧ testRing.toNat / 2 ^ 64 % 2 ^ 4 < 12 ∧ State.reset.vm.faultWaiting = []) ∧
    (ringBase testRing ≠ 0 ∧ ringUsed testRing 31 < ringSize testRing ∧ ringUsed testRing 0 = 0) ∧
    (∃ f ∈ ownedState.vm.faultOpen, f.ctx = 0 ∧ f.page = 0xA00123 / 4096 ∧ f.hw = true) ∧ State.reset.vm.faultOpen = [] ∧
    (walk ownedState 0 (4096 * 2560) = .ok ⟨1, 2 ^ 21 * 7, 21, true, true, false, true, 0, 0, false⟩ ∧
      leafSlotFrom ownedState (4096 * 2560) (ctxEntry ownedState 0 / 2 ^ 54 % 4) (2 ^ 20 * (ctxEntry ownedState 0 / 2 ^ 20 % 2 ^ 32)) 3 = some (memKey 0 0x2028, 1)) ∧
    (walk (settleHost ownedState) 0 (4096 * 2560) = .ok ⟨1, 2 ^ 21 * 7, 21, true, true, false, true, 0, 0, false⟩ ∧
      leafSlotFrom (settleHost ownedState) (4096 * 2560) (ctxEntry (settleHost ownedState) 0 / 2 ^ 54 % 4)
        (2 ^ 20 * (ctxEntry (settleHost ownedState) 0 / 2 ^ 20 % 2 ^ 32)) 3 = some (memKey 0 0x2028, 1)) ∧
    (State.reset.vm.tlbinv.getLsbD 127 = false ∧ { State.reset.vm with tlbinv := 2 ^ 127 }.tlbinv.getLsbD 127 = true) ∧
    ownedState.vm.moves = [] ∧ ∃ w ∈ ownedState.vm.engineWaits, w.ctx = 0 ∧ w.page = 2560 ∧ w.cancelled = false := by decide +kernel

/-- A move of HBM frame 0 to frame 3, of the trestle. -/
def testMove (started : Bool) (leaves : List (Nat × Nat)) : Move := ⟨4, .trestle 0 none, 0, 9, 0, 0, 0, 3, started, leaves⟩

/-- It is under way. -/
def moveState (m : Move) (mode : BitVec 64) (mo : Option MapOut) : State :=
  { State.reset with
    launches := [(0, fetchWordLaunch .running)]
    fe := { State.reset.fe with fmode := mode }
    vm := { State.reset.vm with moves := [m], mapOut := mo } }

/-- A map-out of layer 5 of stack 0, in which CTXTAB lies: its phase, and the frames of SPARE. -/
def mapState (phase spare : Nat) : State :=
  { State.reset with vm := { State.reset.vm with ctxtab := BitVec.ofNat 64 (2 ^ 21 * 122880), spare := BitVec.ofNat 128 (2 ^ 64 * spare), mapOut := some ⟨0, 5, phase⟩ } }

/-- R96, R279 to R281: a move that may start and one that has; one that holds and one whose entry has changed; layers in both modes; a map-out
that ends, one that a move delays, one with a frame to move and one that has none to move it to; SPARE. -/
theorem witness_Moves :
    (let s := moveState (testMove false []) 0 none
     findMove s 4 = some (testMove false []) ∧ (s.vm.moves.filter (·.started)).length < 64 ∧ frameLocked s 0 0 = false ∧ Memory.wf s.mem = true ∧
      pageFaulted s 0 9 = false ∧ NothingLate s ∧ isFrame 0 0 ∧ isFrame 0 3) ∧
    (let s := { moveState (testMove false []) 0 none with vm := { (moveState (testMove false []) 0 none).vm with
        faultOpen := [⟨0, 512 * 9, causeOf 3 10, 0, 0, 0, true⟩] } }
     findMove s 4 = some (testMove false []) ∧ (testMove false []).owner ≠ .mapout ∧ pageFaulted s 0 9 = true) ∧
    (let s := moveState (testMove true []) 0 none
     findMove s 4 = some (testMove true []) ∧ (findLaunch s 0).isSome = true ∧ s.outside.ingressHeld = [] ∧ s.outside.hostHeld = [] ∧
      frameExists s 0 0 = true ∧ frameExists s 0 3 = true ∧ frameEntries s false 0 0 = [] ∧
      moveHolds s (testMove true []) = true ∧ moveHolds s (testMove true [(64, 5)]) = false) ∧
    (let v := (0x80 + 7 + 8 * 15 : BitVec 64)
     v.toNat / 2 ^ 11 = 0 ∧ v.getLsbD 7 = true ∧ hwMode (moveState (testMove true []) 0 none) 3 = false ∧ hwMode State.reset 3 = true ∧
      layerPresent State.reset (v.toNat % 8) (v.toNat / 8 % 16) = true ∧ State.reset.vm.mapOut = none) ∧
    (let s := { State.reset with vm := { State.reset.vm with mapOut := some ⟨0, 5, 1⟩ } }
     s.vm.mapOut = some ⟨0, 5, 1⟩ ∧ (∀ m ∈ s.vm.moves, ¬ holdsRemoval ⟨0, 5, 1⟩ m) ∧ reachedFrames s 0 5 = [] ∧ poolOver s 0 5 = false ∧ s.vm.mapWaiting = []) ∧
    (let s := moveState { testMove true [] with owner := .mapout } 0x3F (some ⟨0, 5, 1⟩)
     layerPresent s 1 0 = true ∧ s.vm.mapOut.isSome = true ∧ ∃ m ∈ s.vm.moves, holdsRemoval ⟨0, 5, 1⟩ m) ∧
    (let s := moveState (testMove true []) 0x3F (some ⟨3, 0, 1⟩)
     s.vm.mapOut = some ⟨3, 0, 1⟩ ∧ ∃ m ∈ s.vm.moves, holdsRemoval ⟨3, 0, 1⟩ m) ∧
    (∀ phase ∈ [1, 3], ∀ spare ∈ [0, 1], let s := mapState phase spare
      s.vm.mapOut = some ⟨0, 5, phase⟩ ∧ toMove s ⟨0, 5, phase⟩ ≠ [] ∧ (toMove s ⟨0, 5, phase⟩).length = 1 ∧ spareCount s = spare ∧
        s.vm.moves = []) ∧
    ((2 ^ 64 + 0x1000 : BitVec 128).toNat / 2 ^ 96 = 0 ∧ (2 ^ 64 + 0x1000 : BitVec 128).toNat % 4 = 0) := by
  unfold isFrame NothingLate holdsRemoval
  decide +kernel

/-- A write to a peer window in flight through port 2, with a lane's answer outstanding. -/
def peerOp : OpRec := ⟨0, .st, .lsu, 3, [.lane 4 0 7, .lane 4 1 8, .peer 1 2 16 [5]], 0, none, none, true, false, [(1, 2)], false⟩

/-- A copy whose writes await their answers through ports 2 and 3. -/
def peerCopy : TransferEntry := { copyEntry true [] with op := 5, pending := [(2, 16, [1]), (3, 24, [2])] }

/-- The export context is context 0, enabled, with a window on HBM; port 2's link as given, and a copy of the span whose writes await it. -/
def linkState (l : Link) : State :=
  let s := modSpan (gangWith fun g => { g with ops := [peerOp] }) 0 fun sp => { sp with queues := [[peerCopy], [], [], []] }
  { s with
    vm := { s.vm with windows := [⟨0, true, 0, 2 ^ 30, 0, 6⟩] }
    outside := { s.outside with expctx := 0x100, links := s.outside.links.set 2 l } }

theorem link_span : (findSpan (linkState Link.reset) 0).isSome = true := by decide +kernel

/-- An incoming access of 8 bytes meets the condition of place `i` first. -/
def ingressMeets (kind off i : Nat) (sr : Nat × Nat) (s : State) : Bool :=
  let met (x : Nat × Nat) : Bool := (reachRun s none (s.outside.expctx.toNat % 256) (ingressNeed kind) off 8).any (partFault false x.1 x.2)
  let order : List (Nat × Nat) := [(2, 6), (3, 9), (3, 7), (3, 8), (4, 6), (5, 10)]
  s.outside.expctx.getLsbD 8 && decide (order[i]? = some sr) && met sr && (order.take i).all fun x => !met x

/-- The export context is context 0, whose page 5 of 2 MiB has the leaf given. -/
def exportState (leaf : Nat) : State :=
  let s := farState none []
  { s with mem := cellSetRange 0 s.mem (memKey 0 0x2028) (natToBytes 8 leaf), outside := { s.outside with expctx := 0x100 } }

/-- Flits that are not acknowledged: one in full that installs an entry, one encoded against an entry that it removes. -/
def sentFlits : List Flit := [⟨7, 3, none, some 0, none⟩, ⟨8, 4, some 1, none, some 1⟩]

/-- R359, R431, R433: an access that meets each reason; answers outstanding; an export that is disabled, and one that reaches memory; a link up with flits to acknowledge, one that
has failed eight times, and one that retrains; a copy that awaits the port. -/
theorem witness_Causeway :
    (let s := linkState Link.reset
     ∃ sp, findSpan s 0 = some sp ∧ (sp.groups[0]?.bind fun g => findOp g 0) = some peerOp ∧ peerOp.remoteLoad = false ∧ peerOp.done = false ∧
      (∃ p, (1, p) ∈ peerOp.ports) ∧ peerOp.cause = none ∧ OpWrite.lane 4 0 7 ∈ peerOp.writes ∧ findTransfer s 0 0 0 = none ∧
      throughPort 2 (.peer 1 2 16 [5]) = true ∧ (∀ x ∈ [OpWrite.lane 4 0 7, .lane 4 1 8], throughPort 2 x = false) ∧
      (∀ x ∈ peerOp.writes, throughPort 3 x = false) ∧ findTransfer s 0 0 5 = some peerCopy ∧
      (sp.groups[0]?.bind fun g => findOp g 5) = none ∧ peerCopy.pending ≠ [] ∧ peerCopy.cause = none) ∧
    State.reset.outside.expctx.getLsbD 8 = false ∧
    (∀ need ∈ [Need.load, .store, .atomic], let s := linkState Link.reset
      s.outside.expctx.getLsbD 8 = true ∧ memKeys (reachRun s none (s.outside.expctx.toNat % 256) need 0x1000 8) = some (at1000 8 0) ∧
        ∀ k ∈ at1000 8 0, cellGet 0 s.poison (k / 8) = 0) ∧
    ((linkState Link.reset).outside.links[2]? = some Link.reset ∧ Link.reset.state = .up) ∧
    (let l : Link := ⟨.up, 9, sentFlits, sentFlits, 0, false, 8, [(1, 4)]⟩
     (linkState l).outside.links[2]? = some l ∧ 8 ≤ l.failures ∧ ∃ f ∈ l.unacked, f.seq = 7) ∧
    (∀ kind ∈ [0, 1, 2], ingressMeets kind 0x1200000 4 (4, 6) (exportState 0) ∧
      ingressMeets kind 0xA00000 5 (5, 10) (exportState (3 + 0x600 + 2 ^ 21 * 7 + 2 ^ 53 + 2 ^ 54))) ∧
    (∀ kind ∈ [0, 2], ingressMeets kind 0xA00000 1 (3, 9) (exportState (3 + 0x400 + 2 ^ 21 * 7 + 2 ^ 54))) ∧
    (∀ kind ∈ [1, 2], ingressMeets kind 0xA00000 2 (3, 7) (exportState (3 + 0x200 + 2 ^ 21 * 7 + 2 ^ 54))) ∧
    (∀ n ∈ [0, 31], let l : Link := ⟨.retraining, 9, sentFlits, [], 0, false, 8, []⟩
     let s := { linkState l with outside := { (linkState l).outside with evq := testRing, eventSeq := n } }
     s.outside.links[2]? = some l ∧ ringBase s.outside.evq ≠ 0 ∧ s.outside.eventsHeld = [] ∧
      ringUsed s.outside.evq s.outside.eventSeq < ringSize s.outside.evq ∧ ∃ sp, findSpan s 0 = some sp ∧
      ∃ g ∈ sp.groups[0]?, g.num = 0 ∧ ∃ o ∈ findOp g 0, o.done = false ∧ (1, 2) ∈ o.ports ∧ o.cause = none) ∧
    (let l : Link := ⟨.retraining, 9, sentFlits, [], 0, false, 8, []⟩
     (linkState l).outside.links[2]? = some l ∧ ringBase (linkState l).outside.evq = 0 ∧ ∃ sp, findSpan (linkState l) 0 = some sp ∧
      ∃ q ∈ sp.queues[0]?, ∃ x ∈ q, (∃ w ∈ x.pending, w.1 = 2) ∧ x.cause = none) := by
  refine ⟨?_, by decide +kernel, by decide +kernel, by decide +kernel, by decide +kernel, by decide +kernel, by decide +kernel, by decide +kernel,
    fun n hn => ⟨by revert n; decide +kernel, by revert n; decide +kernel, by revert n; decide +kernel, by revert n; decide +kernel,
      some_with (by revert n; decide +kernel)⟩,
    ⟨by decide +kernel, by decide +kernel, some_with (by decide +kernel)⟩⟩
  exact ⟨_, (Option.some_get link_span).symm, by decide +kernel, rfl, rfl, ⟨2, by decide⟩, rfl, by decide, by decide +kernel⟩

/-- R279, R425, R429: a line that is there, one beyond the far tier, a frame that is gone, one that is locked; an event ring with room; an error met. -/
theorem witness_HostAccess :
    (hostLine 0 0x1038 8 ∧ ¬ hostLine 1 (786432 * 2 ^ 21) 8 ∧ ¬ hostLine 0 0x1039 8) ∧
    (frameExists State.reset 0 (0x1038 / 2 ^ 21) = true ∧ frameLocked State.reset 0 (0x1038 / 2 ^ 21) = false) ∧
    frameExists { State.reset with vm := { State.reset.vm with hbmcap := List.replicate 8 0x100000 } } 0 (0x1038 / 2 ^ 21) = false ∧
    frameLocked (moveState (testMove true []) 0 none) 0 (0x1038 / 2 ^ 21) = true ∧
    (testRing.toNat / 2 ^ 68 % 2 ^ 28 = 0 ∧ testRing.toNat % 2 ^ 12 = 0 ∧ State.reset.outside.eventsHeld = []) ∧
    ringBase State.reset.outside.evq = 0 ∧ (ringBase testRing ≠ 0 ∧ ringUsed testRing 31 < ringSize testRing) ∧
    NoHostLate State.reset ∧ NoHostLate (moveState (testMove true []) 0 none) ∧
    [1, 2, 3, 4].length ≤ 8 - 0x1038 % 8 ∧
    (let s := { State.reset with outside := { State.reset.outside with ras := [causeOf 3 25] } }
     s.outside.boot = .running ∧ s.outside.ras = [causeOf 3 25]) := by
  unfold hostLine NoHostLate
  decide +kernel

/-- R434 to R436: an image that verifies and one that does not; the part in recovery, held in reset, and running; attestation spent and not. -/
theorem witness_Keystone :
    (goodImage State.reset 1 ∧ ¬ goodImage State.reset 2) ∧
    (let s := { State.reset with outside := { State.reset.outside with boot := .recovery, lmsLeft := 0 } }
     s.outside.boot = .recovery ∧ goodImage s 1 ∧ s.outside.lmsLeft = 0) ∧
    (State.reset.outside.boot ≠ .heldInReset ∧ State.reset.late = [] ∧ State.reset.outside.ingressHeld = [] ∧ State.reset.outside.hostHeld = [] ∧ State.reset.outside.lmsLeft ≠ 0 ∧
      goodImage State.reset State.reset.outside.flashA) ∧
    (let s := { State.reset with outside := { State.reset.outside with flashA := 0 } }
     s.outside.boot ≠ .heldInReset ∧ ¬ goodImage s s.outside.flashA ∧ goodImage s s.outside.flashB) ∧
    (let s := { State.reset with outside := { State.reset.outside with flashA := 0, flashB := 2 } }
     s.outside.boot ≠ .heldInReset ∧ ¬ goodImage s s.outside.flashA ∧ ¬ goodImage s s.outside.flashB) ∧
    (State.reset.outside.stored.length = 8 ∧ State.reset.outside.serials.length = 8 ∧ State.reset.outside.retrained.length = 8 ∧
      NoHostLate State.reset ∧ ∃ x ∈ State.reset.outside.stored[7]?, 7 < State.reset.outside.trained.length ∧
        ((0 : BitVec 8).getLsbD 7 || decide (some x.serial ≠ State.reset.outside.serials[7]?)) = false) ∧
    (hwMode State.reset 5 = true ∧ hwMode (assisted State.reset) 5 = false ∧ ringBase State.reset.outside.evq = 0) := by
  unfold goodImage NoHostLate
  decide +kernel

/-- R74, R80 to R82: the first reserved opcode; an odd pair; a register past an allocation of 3; an engine that runs a prologue. -/
theorem witness_IllegalWords :
    gangState.issuer = .gang 0 0 none ∧ reservedOpcode 0x040 = true ∧ bareWord (word 1 2 3) ∧ (word 1 2 3).u = false ∧ (word 1 2 3).rd.toNat % 2 = 1 ∧
    outside 3 (gangWith fun g => { g with alloc := 3 }) ∧ ¬ outside 127 gangState ∧
    ∃ en ∈ (prologueState []).fe.engines[0]?, en.launch = some 0 := by
  unfold bareWord outside
  decide +kernel

/-- The machine about to issue NOP, its time passed, and its one gang executing. -/
def nopTurn : State := passTime { State.reset.withFetchWord 32 0x7F with agenda := [] }

/-- The same with a prologue about to execute PEND. -/
def pendTurn : State := passTime { State.reset.withFetchWord 32 0x3F9 with agenda := [] }

/-- The bytes that a fetch gives. -/
def fetchedBytes (s : State) : List Byte × List CodeBlock :=
  match fetchCode s with
  | .bytes bs blocks => (bs, blocks)
  | .stop _ => ([], [])

/-- The gang of `nopTurn`, or of that state with its group as given, about to issue in quadrant 0. -/
noncomputable def nopIssuer (u : State) : State := issuing 0 0 none (countClock (readyGroups running u 0 0) (some (0, 0, none)) u 0 0)

/-- Its group has met an uncorrectable error in its storages. -/
def struckTurn : State := modSpan nopTurn 0 fun sp => { sp with groups := sp.groups.map fun g => { g with struck := [.lane 4 0] } }

/-- R61, R128, R216: a quadrant that issues NOP; a gang whose group is struck; a quadrant without a gang. -/
theorem witness_StepRunsDecoded_issue :
    let s := State.reset.withFetchWord 32 0x7F
    let v := nopIssuer nopTurn
    let b := fetchedBytes v
    (s.agenda = [.issue 0 0] ∧ nopTurn.outside.boot = .running ∧ nopTurn.outside.throttled[(0 / 64 : Nat)]? ≠ some true ∧
      chosen (readyGroups running nopTurn 0 0) = some (0, 0, none) ∧ groupStruck v 0 0 = false ∧ fetchCancelled v = none ∧
      (match fetchCode v with | .bytes _ _ => true | _ => false) = true ∧
      decode (codeOffset v) b.1 = .ok (.nop ⟨none, 0, 0, 0, 0, false⟩, 4) ∧
      (match exec (.nop ⟨none, 0, 0, 0, 0, false⟩) (holdBlocks b.2 v) with | .next _ => true | _ => false) = true) ∧
    (chosen (readyGroups running struckTurn 0 0) = some (0, 0, none) ∧ groupStruck (nopIssuer struckTurn) 0 0 = true) ∧
    chosen (readyGroups running nopTurn 0 1) = none := by
  decide +kernel

/-- R237: an engine that executes PEND. -/
theorem witness_StepRunsDecoded_prologue :
    let s := State.reset.withFetchWord 32 0x3F9
    let v := { pendTurn with issuer := .prologue 0 }
    let b := fetchedBytes v
    s.agenda = [.prologue 0] ∧ pendTurn.outside.boot = .running ∧ engineReady pendTurn 0 = true ∧ fetchCancelled v = none ∧
      (match fetchCode v with | .bytes _ _ => true | _ => false) = true ∧ decode (codeOffset v) b.1 = .ok (.pend ⟨none, 0, 0, 0, 0, false⟩, 4) ∧
      (match exec (.pend ⟨none, 0, 0, 0, 0, false⟩) (holdBlocks b.2 v) with | .next _ => true | _ => false) = true := by
  decide +kernel

/-- A step that the agenda names, of a part that runs. -/
theorem witness_StepRunsDecoded_event :
    let s := { State.reset.withFetchWord 32 0x7F with agenda := [.event .queueBind] }
    s.agenda = [.event .queueBind] ∧ s.outside.boot = .running := ⟨rfl, rfl⟩

/-- R61, R64, R71, R74, R77: a word, an extended word in the last place of a block, a compact form, an XP that stands too late for its word. -/
theorem witness_EncodeDecode :
    let word : Instr := .divS32 ⟨none, 6, 5, 4, 0, false⟩
    let long : Instr := .divS32 ⟨some 0x3FFFFF, 6, 5, 4, 0, false⟩
    (wellFormed word = true ∧ shapeOf word = some (.word 8 ⟨none, 6, 5, 4, 0, false⟩)) ∧
    (wellFormed long = true ∧ shapeOf long = some (.word 8 ⟨some 0x3FFFFF, 6, 5, 4, 0, false⟩) ∧ 56 % 2 = 0 ∧ 56 + 8 ≤ 64) ∧
    (wellFormed (.compactMov ⟨2, 0, false⟩) = true ∧ shapeOf (.compactMov ⟨2, 0, false⟩) = some (.compact 0 ⟨2, 0, false⟩)) ∧
    wellFormed (.xp 5) = true ∧ shapeOf (.xp 5) = some (.xp 5) ∧ 58 % 2 = 0 ∧ 64 < 58 + 8 := by decide +kernel

/-- A state that has the canonical form, and goes on: the premise of StepKeepsStores. -/
theorem witness_StepKeepsStores :
    let s := State.reset.withFetchWord 32 0x18510011
    storesWf s = true ∧ ∃ t, step s = .next t := by
  refine ⟨by decide +kernel, ?_⟩
  have h : (match step (State.reset.withFetchWord 32 0x18510011) with | .next _ => true | _ => false) = true := by decide +kernel
  revert h
  generalize step (State.reset.withFetchWord 32 0x18510011) = o
  intro h
  cases o with
  | next t => exact ⟨t, rfl⟩
  | fault f => cases h
  | refused r => cases h

end Sys2Proof.Tests
end

section
/-!
SUPPORT. Numbers and words: what the model computes on numbers (wr, s, fields of bits), as operations on bit vectors.
-/

namespace Sys2Proof.Machine

open Sys2Proof Sys2Proof.Claims

/-! ### wr and s (R135) -/

theorem wr32_eq_toNat_ofInt (x : Int) : wr32 x = (BitVec.ofInt 32 x).toNat := (BitVec.toNat_ofInt x).symm

theorem wr64_eq_toNat_ofInt (x : Int) : wr64 x = (BitVec.ofInt 64 x).toNat := (BitVec.toNat_ofInt x).symm

theorem signedOf_eq_toInt_ofNat (n x : Nat) : signedOf n x = (BitVec.ofNat n x).toInt := by
  cases n with
  | zero => rw [BitVec.of_length_zero (x := BitVec.ofNat 0 x)]; simp [signedOf, Nat.mod_one]
  | succ n =>
    rw [BitVec.toInt_eq_toNat_cond, BitVec.toNat_ofNat, signedOf, Nat.add_sub_cancel]
    have := Nat.pow_succ 2 n
    split <;> split <;> omega

@[simp] theorem s32_toNat (a : Word) : s32 a.toNat = a.toInt := by
  rw [s32, signedOf_eq_toInt_ofNat, BitVec.ofNat_toNat, BitVec.setWidth_eq]

theorem ofInt_toNat {w : Nat} (a : BitVec w) : BitVec.ofInt w a.toNat = a := by
  rw [BitVec.ofInt_natCast, BitVec.ofNat_toNat, BitVec.setWidth_eq]

theorem ofInt_sub {w : Nat} (x y : Int) : BitVec.ofInt w (x - y) = BitVec.ofInt w x - BitVec.ofInt w y := by
  rw [Int.sub_eq_add_neg, BitVec.ofInt_add, BitVec.ofInt_neg, BitVec.sub_eq_add_neg]

/-- An arithmetic shift divides by a power of two, rounding down (R137). -/
theorem ofInt_fdiv_two_pow (a : Word) (n : Nat) : BitVec.ofInt 32 (a.toInt.fdiv (2 ^ n : Nat)) = a.sshiftRight n := by
  rw [Int.fdiv_eq_ediv_of_nonneg _ (Int.natCast_nonneg _), ← Int.shiftRight_eq_div_pow, BitVec.sshiftRight_eq]

/-! ### Numbers given by their bits -/

theorem fromBits_succ (n : Nat) (f : Nat → Bool) : fromBits (n + 1) f = 2 ^ n * (f n).toNat + fromBits n f := by
  simp only [fromBits, upTo, List.range_succ, List.foldl_append, List.foldl_cons, List.foldl_nil]
  cases f n <;> simp [Nat.add_comm]

theorem fromBits_lt (n : Nat) (f : Nat → Bool) : fromBits n f < 2 ^ n := by
  induction n with
  | zero => exact Nat.one_pos
  | succ n ih =>
    rw [fromBits_succ, Nat.pow_succ]
    cases f n
    · simp only [Bool.toNat_false, Nat.mul_zero]
      omega
    · simp only [Bool.toNat_true, Nat.mul_one]
      omega

theorem testBit_fromBits (n : Nat) (f : Nat → Bool) (i : Nat) : (fromBits n f).testBit i = (decide (i < n) && f i) := by
  induction n with
  | zero => simp [fromBits, upTo]
  | succ n ih =>
    rw [fromBits_succ, Nat.testBit_two_pow_mul_add _ (fromBits_lt n f), ih]
    by_cases h : i < n
    · simp [h, Nat.lt_succ_of_lt h]
    · rw [if_neg h]
      by_cases hi : i = n
      · subst hi; cases f i <;> simp
      · have : ¬ i < n + 1 := by omega
        obtain ⟨k, hk⟩ : ∃ k, i - n = k + 1 := ⟨i - n - 1, by omega⟩
        rw [hk]
        cases f n <;> simp [this, Nat.testBit_add_one]

/-- A word given by at most 32 bits, read bit by bit. -/
theorem getLsbD_ofNat_fromBits {n i : Nat} (f : Nat → Bool) (hi : i < 32) :
    (BitVec.ofNat 32 (fromBits n f)).getLsbD i = if i < n then f i else false := by
  rw [BitVec.getLsbD_ofNat, testBit_fromBits]
  by_cases h : i < n <;> simp [hi, h]

/-- A number below 2^32 is the value of its word. -/
theorem toNat_ofNat_of_lt {x : Nat} (h : x < 2 ^ 32) : (BitVec.ofNat 32 x).toNat = x := by
  rw [BitVec.toNat_ofNat, Nat.mod_eq_of_lt h]

/-! ### Leading zeros -/

theorem fClz_toNat {w : Nat} (a : BitVec w) :
    fClz w a.toNat = (if a = 0 then BitVec.ofNat w w else BitVec.ofNat w (w - 1 - Nat.log2 a.toNat)).toNat := by
  have hw : w < 2 ^ w := Nat.lt_two_pow_self
  unfold fClz
  by_cases h : a = 0
  · rw [if_pos h, if_pos (by simp [h]), BitVec.toNat_ofNat, Nat.mod_eq_of_lt hw]
  · rw [if_neg h, if_neg (fun h0 => h (BitVec.eq_of_toNat_eq (by simpa using h0))), BitVec.toNat_ofNat, Nat.mod_eq_of_lt (by omega)]

/-! ### Operands -/

theorem readLocs_one (g : Group) (lane : Nat) (l : Loc) : readLocs g lane 1 l = (readLoc g lane l).toNat := by
  cases l <;> simp [readLocs, readLoc, readWords]

theorem readLocs_two (g : Group) (lane : Nat) (l : Loc) : readLocs g lane 2 l = (pair g lane l).toNat := by
  have h (hi lo : Word) : lo.toNat + 2 ^ 32 * hi.toNat = (hi ++ lo).toNat := by
    rw [BitVec.toNat_append, ← Nat.shiftLeft_add_eq_or_of_lt lo.isLt, Nat.shiftLeft_eq]
    omega
  cases l <;> simpa [readLocs, readWords, pair, readLoc, locAdd] using h _ _

end Sys2Proof.Machine
end

section
/-!
SUPPORT. What the integer formats leave: an effect on numbers that is an operation on words gives the instruction's result on words; and a
word written in lanes or once for the group.
-/

namespace Sys2Proof.Machine

open Sys2Proof Sys2Proof.Claims

/-! ### Legal encodings -/

/-- A legal encoding passes the checks, at some allocation. -/
theorem Legal.checked {f : Form} {extra : Bool} {e : Enc} {s : State} (h : Legal f extra e s) :
    ∃ alloc, checkEnc f extra alloc e = none := by
  unfold Legal at h
  cases hi : s.issuer with
  | nobody => simp only [hi] at h; exact absurd h.2 id
  | gang sid g sl => simp only [hi] at h; exact ⟨_, h.2⟩
  | prologue p => simp only [hi] at h; exact ⟨_, h.2.2.2⟩

/-- A legal encoding meets the entry's own limits. -/
theorem Legal.extra {f : Form} {extra : Bool} {e : Enc} {s : State} (h : Legal f extra e s) : extra = true := by
  obtain ⟨alloc, hc⟩ := h.checked
  cases extra with
  | true => rfl
  | false => simp [checkEnc] at hc

/-! ### Results on words -/

section
variable {i : Instr} {f : Form} {extra : Bool} {e : Enc} {rd : Loc} {k : Nat} {a : Alu} {r : Group → Nat → Nat × Flags}

/-- An instruction of a form over `aluBody` computes what its effect gives on the operands it reads, in every legal case. -/
theorem computes_of_legal {srcs : List (Loc × Nat)} (hi : ∀ s, exec i s = runForm f extra e (aluBody e srcs rd k a) s)
    (ha : extra = true → ∀ g lane, a (srcs.map fun p => readLocs g lane p.2 p.1) = r g lane) : Computes i f extra e rd k r := by
  intro s hs
  have hr : (fun g lane => a (srcs.map fun p => readLocs g lane p.2 p.1)) = r := by
    funext g lane
    exact ha hs.extra g lane
  exact hr ▸ computes_aluBody hi s hs

/-- The three-register format: an effect on the values of ra, rb and the old rd. -/
theorem computes_rrr {w : Word → Word → Word → Word × Flags}
    (ha : ∀ x y d : Word, a [x.toNat, y.toNat, d.toNat] = oneWord (w x y d)) (hi : ∀ s, exec i s = runRrr e a s) : Computes i formRrr true e (rdLoc e) 1 (onThree e w) :=
  computes_of_legal hi fun _ g lane => by
    simp only [List.map_cons, List.map_nil, readLocs_one, ha]
    rfl

/-- An effect of two sources without a flag. -/
theorem computes_alu2 {n : Nat → Nat → Nat} {w : Word → Word → Word} (hn : ∀ x y : Word, n x.toNat y.toNat = (w x y).toNat)
    (hi : ∀ s, exec i s = runRrr e (alu2 n) s) : Computes i formRrr true e (rdLoc e) 1 (onThree e (plain fun x y _ => w x y)) :=
  computes_rrr (fun x y _ => congrArg (·, noFlags) (hn x y)) hi

/-- An effect of two sources with flags. -/
theorem computes_alu2f {n : Nat → Nat → Nat × Flags} {w : Word → Word → Word × Flags}
    (hn : ∀ x y : Word, n x.toNat y.toNat = oneWord (w x y)) (hi : ∀ s, exec i s = runRrr e (alu2f n) s) :
    Computes i formRrr true e (rdLoc e) 1 (onThree e fun x y _ => w x y) :=
  computes_rrr (fun x y _ => hn x y) hi

/-- An effect of two sources and the old destination. -/
theorem computes_alu3 {n : Nat → Nat → Nat → Nat} {w : Word → Word → Word → Word}
    (hn : ∀ x y d : Word, n x.toNat y.toNat d.toNat = (w x y d).toNat) (hi : ∀ s, exec i s = runRrr e (alu3 n) s) :
    Computes i formRrr true e (rdLoc e) 1 (onThree e (plain w)) :=
  computes_rrr (fun x y d => congrArg (·, noFlags) (hn x y d)) hi

/-- The two-register format. -/
theorem computes_rr {n : Nat → Nat} {w : Word → Word} (hn : ∀ x : Word, n x.toNat = (w x).toNat)
    (hi : ∀ s, exec i s = runRr e (alu1 n) s) :
    Computes i formRr true e (rdLoc e) 1 (onOne e fun x => (w x, noFlags)) :=
  computes_of_legal hi fun _ g lane => by
    simp only [List.map_cons, List.map_nil, readLocs_one, alu1, hn]
    rfl

/-- The format of a register and a short immediate. -/
theorem computes_rri {n : Nat → Nat} {w : Word → Word} (hn : ∀ x : Word, n x.toNat = (w x).toNat)
    (hi : ∀ s, exec i s = runRri e extra (alu1 n) s) :
    Computes i formRri extra e (rdLocB e) 1 fun g lane => ((w (readLoc g lane (raLocB e))).toNat, noFlags) :=
  computes_of_legal hi fun _ g lane => by
    simp only [List.map_cons, List.map_nil, readLocs_one, alu1, hn]

/-- The format of a long immediate: the effect is on the old rd, where the immediate is within its limits. -/
theorem computes_rj {n : Nat → Nat} {w : Word → Word} (hn : extra = true → ∀ x : Word, n x.toNat = (w x).toNat)
    (hi : ∀ s, exec i s = runRj e extra (alu1 n) s) :
    Computes i formRj extra e (rdLocB e) 1 fun g lane => ((w (readLoc g lane (rdLocB e))).toNat, noFlags) :=
  computes_of_legal hi fun he g lane => by
    simp only [List.map_cons, List.map_nil, readLocs_one, alu1, hn he]

/-! ### Results with a property -/

/-- A three-register effect whose number fits a word: what holds of the word of that number holds of the result. -/
theorem yields_alu3 {n : Nat → Nat → Nat → Nat} {p : Word → Word → Word → Word → Prop}
    (hlt : ∀ x y d : Word, n x.toNat y.toNat d.toNat < 2 ^ 32)
    (hp : ∀ x y d : Word, p x y d (BitVec.ofNat 32 (n x.toNat y.toNat d.toNat)))
    (hi : ∀ s, exec i s = runRrr e (alu3 n) s) :
    Yields i formRrr true e (rdLoc e) fun g lane w =>
      p (readLoc g lane (raLoc e)) (readLoc g lane (rbLoc e)) (readLoc g lane (rdLoc e)) w :=
  ⟨_, fun _ _ => hp _ _ _, computes_alu3 (fun x y d => (toNat_ofNat_of_lt (hlt x y d)).symm) hi⟩

theorem yields_alu2 {n : Nat → Nat → Nat} {p : Word → Word → Word → Word → Prop}
    (hlt : ∀ x y : Word, n x.toNat y.toNat < 2 ^ 32) (hp : ∀ x y d : Word, p x y d (BitVec.ofNat 32 (n x.toNat y.toNat)))
    (hi : ∀ s, exec i s = runRrr e (alu2 n) s) :
    Yields i formRrr true e (rdLoc e) fun g lane w =>
      p (readLoc g lane (raLoc e)) (readLoc g lane (rbLoc e)) (readLoc g lane (rdLoc e)) w :=
  ⟨_, fun _ _ => hp _ _ _, computes_alu2 (fun x y => (toNat_ofNat_of_lt (hlt x y)).symm) hi⟩

theorem yields_rr {n : Nat → Nat} {p : Word → Word → Prop} (hlt : ∀ x : Word, n x.toNat < 2 ^ 32)
    (hp : ∀ x : Word, p x (BitVec.ofNat 32 (n x.toNat))) (hi : ∀ s, exec i s = runRr e (alu1 n) s) :
    Yields i formRr true e (rdLoc e) fun g lane w => p (readLoc g lane (raLoc e)) w :=
  ⟨_, fun _ _ => hp _, computes_rr (fun x => (toNat_ofNat_of_lt (hlt x)).symm) hi⟩

theorem yields_rri {n : Nat → Nat} {p : Word → Word → Prop} (hlt : ∀ x : Word, n x.toNat < 2 ^ 32)
    (hp : ∀ x : Word, p x (BitVec.ofNat 32 (n x.toNat))) (hi : ∀ s, exec i s = runRri e extra (alu1 n) s) :
    Yields i formRri extra e (rdLocB e) fun g lane w => p (readLoc g lane (raLocB e)) w :=
  ⟨_, fun _ _ => hp _, computes_rri (fun x => (toNat_ofNat_of_lt (hlt x)).symm) hi⟩

end

end Sys2Proof.Machine
end

section
/-!
SUPPORT. The integer instructions (R137 to R141, R150): each effect as an operation on words, and O1.
-/

namespace Sys2Proof.Machine

open Sys2Proof Sys2Proof.Claims

/-! ### Sums, products and comparisons (R137) -/

theorem fAdd_toNat (a b : Word) : fAdd a.toNat b.toNat = (a + b).toNat := (BitVec.toNat_add a b).symm

theorem fSub_toNat (a b : Word) : fSub a.toNat b.toNat = (a - b).toNat := by
  rw [fSub, wr32_eq_toNat_ofInt, ofInt_sub, ofInt_toNat, ofInt_toNat]

theorem clamp32_eq (x : Int) : clamp32 x = oneWord (clamped x) := by
  unfold clamp32 clamped
  by_cases hlo : x < -2147483648
  · rw [if_pos (by simpa using hlo), if_pos hlo]
    rfl
  · rw [if_neg (by simpa using hlo), if_neg hlo]
    by_cases hhi : 2147483647 < x
    · rw [if_pos (by omega), if_pos hhi]
      rfl
    · rw [if_neg (by omega), if_neg hhi, wr32_eq_toNat_ofInt]
      rfl

theorem fAdds_toNat (a b : Word) : fAdds a.toNat b.toNat = oneWord (clamped (a.toInt + b.toInt)) := by
  rw [fAdds, s32_toNat, s32_toNat, clamp32_eq]

theorem fSubs_toNat (a b : Word) : fSubs a.toNat b.toNat = oneWord (clamped (a.toInt - b.toInt)) := by
  rw [fSubs, s32_toNat, s32_toNat, clamp32_eq]

theorem fMullo_toNat (a b : Word) : fMullo a.toNat b.toNat = (a * b).toNat := (BitVec.toNat_mul a b).symm

/-- The signed 64-bit product of two words. -/
theorem wr64_mul (a b : Word) : wr64 (s32 a.toNat * s32 b.toNat) = (a.signExtend 64 * b.signExtend 64).toNat := by
  rw [wr64_eq_toNat_ofInt, s32_toNat, s32_toNat, BitVec.ofInt_mul]
  rfl

/-- The high word of a 64-bit number. -/
theorem toNat_highWord (x : BitVec 64) : ((x >>> 32).setWidth 32).toNat = x.toNat / 2 ^ 32 := by
  rw [BitVec.toNat_setWidth, BitVec.toNat_ushiftRight, Nat.shiftRight_eq_div_pow, Nat.mod_eq_of_lt]
  have := x.isLt
  omega

theorem fMulhiS_toNat (a b : Word) :
    fMulhiS a.toNat b.toNat = (((a.signExtend 64 * b.signExtend 64) >>> 32).setWidth 32 : Word).toNat := by
  rw [fMulhiS, wr64_mul, toNat_highWord]

theorem fMulhiZ_toNat (a b : Word) :
    fMulhiZ a.toNat b.toNat = (((a.setWidth 64 * b.setWidth 64) >>> 32).setWidth 32 : Word).toNat := by
  have hlt : a.toNat * b.toNat < 2 ^ 64 := BitVec.toNat_mul_toNat_lt
  rw [toNat_highWord, BitVec.toNat_mul, BitVec.toNat_setWidth_of_le (by decide), BitVec.toNat_setWidth_of_le (by decide),
    Nat.mod_eq_of_lt hlt, fMulhiZ, Nat.mod_eq_of_lt]
  omega

theorem fMad_toNat (a b d : Word) : fMad a.toNat b.toNat d.toNat = (d + a * b).toNat := by
  rw [fMad, BitVec.toNat_add, BitVec.toNat_mul, Nat.add_mod_mod]

theorem fMinS_toNat (a b : Word) : fMinS a.toNat b.toNat = (if a.toInt ≤ b.toInt then a else b).toNat := by
  rw [fMinS, s32_toNat, s32_toNat, apply_ite BitVec.toNat]

theorem fMaxS_toNat (a b : Word) : fMaxS a.toNat b.toNat = (if a.toInt ≤ b.toInt then b else a).toNat := by
  rw [fMaxS, s32_toNat, s32_toNat, apply_ite BitVec.toNat]

theorem fMinZ_toNat (a b : Word) : fMinZ a.toNat b.toNat = (if a ≤ b then a else b).toNat := (apply_ite BitVec.toNat _ _ _).symm

theorem fMaxZ_toNat (a b : Word) : fMaxZ a.toNat b.toNat = (if a ≤ b then b else a).toNat := (apply_ite BitVec.toNat _ _ _).symm

/-! ### Logic and shifts (R137) -/

theorem fNot_toNat (a : Word) : fNot a.toNat = (~~~a).toNat := by
  rw [fNot, Nat.mod_eq_of_lt a.isLt, BitVec.toNat_not]

theorem fAndn_toNat (a b : Word) : fAndn a.toNat b.toNat = (a &&& ~~~b).toNat := by
  rw [fAndn, fNot_toNat, BitVec.toNat_and]

theorem fShl_toNat (a : Word) (n : Nat) : fShl a.toNat n = (a <<< n).toNat := by
  unfold fShl
  split
  · next h => rw [BitVec.shiftLeft_eq_zero h]; rfl
  · rw [BitVec.toNat_shiftLeft, Nat.shiftLeft_eq]

theorem fShrZ_toNat (a : Word) (n : Nat) : fShrZ a.toNat n = (a >>> n).toNat := by
  unfold fShrZ
  split
  · next h => rw [BitVec.ushiftRight_eq_zero h]; rfl
  · rw [BitVec.toNat_ushiftRight, Nat.shiftRight_eq_div_pow]

theorem fShrS_toNat (a : Word) (n : Nat) : fShrS a.toNat n = (a.sshiftRight (min n 31)).toNat := by
  rw [fShrS, wr32_eq_toNat_ofInt, s32_toNat, ofInt_fdiv_two_pow]

/-- A shift by the whole of rb, as the table writes it, is a shift. -/
theorem ite_shiftLeft (a b : Word) : (if 32 ≤ b.toNat then 0 else a <<< b.toNat) = a <<< b.toNat := by
  split
  · next h => exact (BitVec.shiftLeft_eq_zero h).symm
  · rfl

theorem ite_ushiftRight (a b : Word) : (if 32 ≤ b.toNat then 0 else a >>> b.toNat) = a >>> b.toNat := by
  split
  · next h => exact (BitVec.ushiftRight_eq_zero h).symm
  · rfl

theorem fRotl_toNat (a b : Word) : fRotl a.toNat b.toNat = (a.rotateLeft (b.toNat % 32)).toNat := by
  set r := b.toNat % 32 with hr
  have hr32 : r < 32 := Nat.mod_lt _ (by decide)
  have hpow : 2 ^ 32 = 2 ^ r * 2 ^ (32 - r) := by rw [← Nat.pow_add]; congr 1; omega
  have hlow : a.toNat / 2 ^ (32 - r) < 2 ^ r := Nat.div_lt_of_lt_mul (by rw [Nat.mul_comm, ← hpow]; exact a.isLt)
  have hhigh : a.toNat * 2 ^ r % 2 ^ 32 = a.toNat % 2 ^ (32 - r) * 2 ^ r := by rw [hpow, Nat.mul_comm, Nat.mul_mod_mul_left, Nat.mul_comm]
  rw [fRotl, BitVec.toNat_rotateLeft, Nat.mod_eq_of_lt hr32, Nat.shiftLeft_eq, Nat.shiftRight_eq_div_pow, ← hr, hhigh,
    ← Nat.shiftLeft_eq, Nat.shiftLeft_add_eq_or_of_lt hlow]

/-! ### Division (R138) -/

theorem toNat_eq_zero_iff (b : Word) : b.toNat = 0 ↔ b = 0 := by
  rw [← BitVec.toNat_inj]; rfl

/-- The one quotient that does not fit, as the model and as the table name it. -/
theorem overflows_iff (a b : Word) : (a.toNat = 2 ^ 31 && b.toInt = -1) = true ↔ a = 0x80000000 ∧ b = 0xFFFFFFFF := by
  rw [Bool.and_eq_true, decide_eq_true_eq, decide_eq_true_eq, ← BitVec.toNat_inj, ← BitVec.toInt_inj]
  rfl

theorem fDivS_toNat (a b : Word) : fDivS a.toNat b.toNat = oneWord (divS a b) := by
  simp only [fDivS, divS, toNat_eq_zero_iff, overflows_iff, s32_toNat, wr32_eq_toNat_ofInt]
  split
  · split <;> rfl
  · split <;> rfl

theorem fRemS_toNat (a b : Word) : fRemS a.toNat b.toNat = oneWord (remS a b) := by
  simp only [fRemS, remS, toNat_eq_zero_iff, overflows_iff, s32_toNat, wr32_eq_toNat_ofInt]
  split
  · rfl
  · split <;> rfl

theorem fDivZ_toNat (a b : Word) : fDivZ a.toNat b.toNat = oneWord (divZ a b) := by
  simp only [fDivZ, divZ, toNat_eq_zero_iff]
  split <;> rfl

theorem fRemZ_toNat (a b : Word) : fRemZ a.toNat b.toNat = oneWord (remZ a b) := by
  simp only [fRemZ, remZ, toNat_eq_zero_iff]
  split <;> rfl

/-! ### Immediates (R139, R140) -/

theorem wr32_add_toNat (a : Word) (x : Int) : wr32 (a.toNat + x) = (a + BitVec.ofInt 32 x).toNat := by
  rw [wr32_eq_toNat_ofInt, BitVec.ofInt_add, ofInt_toNat]

theorem and_wr32_toNat (a : Word) (x : Int) : a.toNat &&& wr32 x = (a &&& BitVec.ofInt 32 x).toNat := by
  rw [wr32_eq_toNat_ofInt, BitVec.toNat_and]

/-- Capping an arithmetic shift at 31 leaves it: all that is left is the sign. -/
theorem sshiftRight_min (a : Word) (n : Nat) : a.sshiftRight (min n 31) = a.sshiftRight n := by
  rcases Nat.le_total n 31 with h | h
  · rw [Nat.min_eq_left h]
  · rw [Nat.min_eq_right h]
    ext i hi
    rw [BitVec.getElem_sshiftRight, BitVec.getElem_sshiftRight]
    by_cases hn : n + i < 32
    · obtain ⟨rfl, rfl⟩ : n = 31 ∧ i = 0 := by omega
      rfl
    · rw [dif_neg hn]
      split
      · next hi0 =>
        obtain rfl : i = 0 := by omega
        exact (BitVec.msb_eq_getLsbD_last a).symm
      · rfl

/-- LIH's new word: the immediate above the low half of the old rd. -/
theorem lih_toNat (n : Nat) (hn : n < 0x10000) (d : Word) :
    n * 2 ^ 16 + d.toNat % 2 ^ 16 = (BitVec.ofNat 16 n ++ d.setWidth 16 : Word).toNat := by
  rw [BitVec.toNat_append, BitVec.toNat_ofNat, Nat.mod_eq_of_lt hn, BitVec.toNat_setWidth,
    ← Nat.shiftLeft_add_eq_or_of_lt (Nat.mod_lt _ (by decide)), Nat.shiftLeft_eq]

/-! ### One operand (R141) -/

theorem fNegI_toNat (a : Word) : fNegI a.toNat = (-a).toNat := by
  rw [fNegI, wr32_eq_toNat_ofInt, s32_toNat, BitVec.ofInt_neg, BitVec.ofInt_toInt]

theorem fAbsI_toNat (a : Word) : fAbsI a.toNat = (if a.toInt < 0 then -a else a).toNat := by
  rw [fAbsI, wr32_eq_toNat_ofInt, s32_toNat]
  split
  · next h => rw [Int.ofNat_natAbs_of_nonpos (Int.le_of_lt h), BitVec.ofInt_neg, BitVec.ofInt_toInt]
  · next h => rw [Int.natAbs_of_nonneg (Int.not_lt.mp h), BitVec.ofInt_toInt]

theorem fPopc_toNat (a : Word) : fPopc a.toNat = (BitVec.ofNat 32 ((List.range 32).countP fun i => a.getLsbD i)).toNat := by
  have hle : (List.range 32).countP (fun i => a.getLsbD i) ≤ 32 := by
    simpa using List.countP_le_length (p := fun i => a.getLsbD i) (l := List.range 32)
  rw [toNat_ofNat_of_lt (by omega), List.countP_eq_length_filter]
  rfl

/-- The first set bit below 32, or 32. -/
theorem fCtz_cases (a : Nat) :
    (fCtz a = 32 ∧ ∀ i, i < 32 → a.testBit i = false) ∨
      (fCtz a < 32 ∧ a.testBit (fCtz a) = true ∧ ∀ i, i < fCtz a → a.testBit i = false) := by
  unfold fCtz
  cases h : (upTo 32).find? fun i => a.testBit i with
  | none => exact .inl ⟨rfl, fun i hi => by simpa using List.find?_eq_none.mp h i (List.mem_range.mpr hi)⟩
  | some n =>
    obtain ⟨hbit, hn, hlow⟩ := List.find?_range_eq_some.mp h
    exact .inr ⟨List.mem_range.mp hn, hbit, fun i hi => by simpa using hlow i hi⟩

theorem fCtz_lt (a : Nat) : fCtz a < 2 ^ 32 := by
  rcases fCtz_cases a with h | h <;> omega

theorem countsTrailing_fCtz (a : Word) : countsTrailing a (BitVec.ofNat 32 (fCtz a.toNat)) := by
  simp only [countsTrailing, ← BitVec.testBit_toNat]
  rcases fCtz_cases a.toNat with ⟨h32, hnone⟩ | ⟨hlt, hbit, hlow⟩
  · refine ⟨fun _ => by rw [h32]; rfl, fun ha => absurd (BitVec.eq_of_getLsbD_eq fun i hi => ?_) ha⟩
    rw [← BitVec.testBit_toNat, hnone i hi]
    simp
  · refine ⟨fun ha => ?_, fun _ => ⟨_, hlt, rfl, hbit, hlow⟩⟩
    rw [ha] at hbit
    simp at hbit

theorem fBrev_lt (a : Nat) : fBrev a < 2 ^ 32 := fromBits_lt _ _

theorem reverses_fBrev (a : Word) : reverses a (BitVec.ofNat 32 (fBrev a.toNat)) := by
  intro i hi
  rw [fBrev, getLsbD_ofNat_fromBits _ hi, if_pos hi]
  rfl

end Sys2Proof.Machine

namespace Sys2Proof.Claims

open Sys2Proof.Machine

theorem threeRegisterIntegers : ThreeRegisterIntegersRule := by
  simp only [ThreeRegisterIntegersRule, threeRegisterRows, List.forall_mem_cons, List.not_mem_nil, false_implies, implies_true, and_true]
  exact ⟨fun _ => computes_alu2 fAdd_toNat fun _ => rfl,
    fun _ => computes_alu2f fAdds_toNat fun _ => rfl,
    fun _ => computes_alu2 fSub_toNat fun _ => rfl,
    fun _ => computes_alu2f fSubs_toNat fun _ => rfl,
    fun _ => computes_alu2 fMullo_toNat fun _ => rfl,
    fun _ => computes_alu2 fMulhiS_toNat fun _ => rfl,
    fun _ => computes_alu2 fMulhiZ_toNat fun _ => rfl,
    fun _ => computes_alu3 fMad_toNat fun _ => rfl,
    fun _ => computes_alu2f fDivS_toNat fun _ => rfl,
    fun _ => computes_alu2f fDivZ_toNat fun _ => rfl,
    fun _ => computes_alu2f fRemS_toNat fun _ => rfl,
    fun _ => computes_alu2f fRemZ_toNat fun _ => rfl,
    fun _ => computes_alu2 fMinS_toNat fun _ => rfl,
    fun _ => computes_alu2 fMaxS_toNat fun _ => rfl,
    fun _ => computes_alu2 fMinZ_toNat fun _ => rfl,
    fun _ => computes_alu2 fMaxZ_toNat fun _ => rfl,
    fun _ => computes_alu2 (fun a b => (BitVec.toNat_and a b).symm) fun _ => rfl,
    fun _ => computes_alu2 (fun a b => (BitVec.toNat_or a b).symm) fun _ => rfl,
    fun _ => computes_alu2 (fun a b => (BitVec.toNat_xor a b).symm) fun _ => rfl,
    fun _ => computes_alu2 fAndn_toNat fun _ => rfl,
    fun _ => computes_alu2 (fun a b => (fShl_toNat a b.toNat).trans (congrArg _ (ite_shiftLeft a b).symm)) fun _ => rfl,
    fun _ => computes_alu2 (fun a b => (fShrZ_toNat a b.toNat).trans (congrArg _ (ite_ushiftRight a b).symm)) fun _ => rfl,
    fun _ => computes_alu2 (fun a b => fShrS_toNat a b.toNat) fun _ => rfl,
    fun _ => computes_alu2 fRotl_toNat fun _ => rfl⟩

theorem immediateIntegers : ImmediateIntegersRule := by
  intro e
  dsimp only
  exact ⟨computes_rri (w := fun a => a + BitVec.ofInt 32 (simmRri e)) (fun a => wr32_add_toNat a _) fun _ => rfl,
    computes_rri (w := fun a => a <<< immRri e) (fun a => fShl_toNat a _) fun _ => rfl,
    computes_rri (w := fun a => a >>> immRri e) (fun a => fShrZ_toNat a _) fun _ => rfl,
    computes_rri (w := fun a => a.sshiftRight (immRri e))
      (fun a => (fShrS_toNat a _).trans (congrArg _ (sshiftRight_min a _))) fun _ => rfl,
    computes_rri (w := fun a => a &&& BitVec.ofInt 32 (simmRri e)) (fun a => and_wr32_toNat a _) fun _ => rfl,
    computes_rj (w := fun _ => BitVec.ofInt 32 (simmRj e)) (fun _ _ => wr32_eq_toNat_ofInt _) fun _ => rfl,
    computes_rj (w := fun d => BitVec.ofNat 16 (immRj e) ++ d.setWidth 16)
      (fun h d => lih_toNat _ (of_decide_eq_true h) d) fun _ => rfl⟩

theorem unaryIntegers : UnaryIntegersRule := by
  refine ⟨?_, fun e => yields_rr (fun a => fCtz_lt a.toNat) countsTrailing_fCtz fun _ => rfl,
    fun e => yields_rr (fun a => fBrev_lt a.toNat) reverses_fBrev fun _ => rfl⟩
  simp only [unaryRows, List.forall_mem_cons, List.not_mem_nil, false_implies, implies_true, and_true]
  exact ⟨fun _ => computes_rr fNot_toNat fun _ => rfl,
    fun _ => computes_rr fNegI_toNat fun _ => rfl,
    fun _ => computes_rr fAbsI_toNat fun _ => rfl,
    fun _ => computes_rr fClz_toNat fun _ => rfl,
    fun _ => computes_rr fPopc_toNat fun _ => rfl,
    fun _ => computes_rr (fun _ => rfl) fun _ => rfl⟩

/-- Settles O1: each instruction is its format's run (`computes_rrr` and its kin) of an effect on numbers that is the table's operation on
words. -/
theorem integerResults : Obligations.IntegerResults :=
  ⟨threeRegisterIntegers, immediateIntegers, unaryIntegers⟩

end Sys2Proof.Claims
end

section
/-!
SUPPORT. Bit fields, permutations, interleavings and the instructions on pairs (R142 to R145): each effect on words, and O2.
-/

namespace Sys2Proof.Machine

open Sys2Proof Sys2Proof.Claims

/-! ### Bit fields (R142) -/

theorem toNat_lowByte (b : Word) : (b.setWidth 8).toNat = b.toNat % 256 := BitVec.toNat_setWidth 8 b

theorem bfxLen_toNat (b : Word) : bfxLen b.toNat = fieldLen b := by
  have h : ((b >>> 8).setWidth 8).toNat = b.toNat / 256 % 256 := by
    rw [toNat_lowByte, BitVec.toNat_ushiftRight, Nat.shiftRight_eq_div_pow]
  simp only [bfxLen, fieldLen, toNat_lowByte, h, Bool.or_eq_true, decide_eq_true_eq]

/-- A field ends at bit 31 at the latest. -/
theorem pos_add_bfxLen_le (b : Nat) (h : bfxLen b ≠ 0) : b % 256 + bfxLen b ≤ 32 := by
  simp only [bfxLen, Bool.or_eq_true, decide_eq_true_eq] at h ⊢
  split at h
  · exact absurd rfl h
  · next hc =>
    rw [if_neg hc]
    omega

theorem fBfxZ_toNat (a b : Word) : fBfxZ a.toNat b.toNat = (bfxZ a b).toNat := by
  have hv : (bfxZ a b).toNat = a.toNat / 2 ^ (b.toNat % 256) % 2 ^ fieldLen b := by
    rw [bfxZ, BitVec.toNat_setWidth, BitVec.toNat_setWidth, BitVec.toNat_ushiftRight, Nat.shiftRight_eq_div_pow,
      toNat_lowByte, Nat.mod_eq_of_lt]
    exact lt_of_le_of_lt (Nat.mod_le _ _) (lt_of_le_of_lt (Nat.div_le_self _ _) a.isLt)
  rw [hv, fBfxZ, bfxLen_toNat]
  split
  · next h => rw [h, Nat.pow_zero, Nat.mod_one]
  · rfl

theorem fBfxS_toNat (a b : Word) : fBfxS a.toNat b.toNat = (bfxS a b).toNat := by
  have hv : (bfxS a b).toNat = wr32 (signedOf (bfxLen b.toNat) (a.toNat / 2 ^ (b.toNat % 256))) := by
    rw [wr32_eq_toNat_ofInt, signedOf_eq_toInt_ofNat, bfxLen_toNat, ← toNat_lowByte, ← Nat.shiftRight_eq_div_pow,
      ← BitVec.toNat_ushiftRight, BitVec.ofNat_toNat]
    rfl
  rw [hv, fBfxS]
  split
  · next h => rw [h, signedOf_eq_toInt_ofNat, BitVec.of_length_zero (x := BitVec.ofNat 0 _)]; rfl
  · rfl

theorem testBit_fBfi (a d b i : Nat) :
    (fBfi a b d).testBit i = if b % 256 ≤ i ∧ i < b % 256 + bfxLen b then a.testBit (i - b % 256) else d.testBit i := by
  unfold fBfi
  set n := bfxLen b
  set pos := b % 256
  simp only
  by_cases hn : n = 0
  · rw [if_pos hn, if_neg (by omega)]
  · have hd : d % 2 ^ pos + a % 2 ^ n * 2 ^ pos + d / 2 ^ (pos + n) * 2 ^ (pos + n) =
        2 ^ pos * (2 ^ n * (d / 2 ^ (pos + n)) + a % 2 ^ n) + d % 2 ^ pos := by ring
    rw [if_neg hn, hd, Nat.testBit_two_pow_mul_add _ (Nat.mod_lt _ (Nat.two_pow_pos _)),
      Nat.testBit_two_pow_mul_add _ (Nat.mod_lt _ (Nat.two_pow_pos _)), Nat.testBit_mod_two_pow, Nat.testBit_mod_two_pow]
    by_cases hlow : i < pos
    · simp [hlow, Nat.not_le.mpr hlow]
    · by_cases hin : i - pos < n
      · rw [if_neg hlow, if_pos hin, if_pos (by omega)]
        simp [hin]
      · rw [if_neg hlow, if_neg hin, if_neg (by omega), ← Nat.testBit_add]
        congr 1
        omega

theorem fBfi_lt (a b d : Word) : fBfi a.toNat b.toNat d.toNat < 2 ^ 32 := by
  refine Nat.lt_pow_two_of_testBit _ fun i hi => ?_
  have hd : d.toNat.testBit i = false := Nat.testBit_lt_two_pow (lt_of_lt_of_le d.isLt (Nat.pow_le_pow_right (by decide) hi))
  rw [testBit_fBfi, if_neg, hd]
  intro h
  have := pos_add_bfxLen_le b.toNat (by omega)
  omega

theorem getLsbD_fBfi (a b d : Word) (i : Nat) (hi : i < 32) :
    (BitVec.ofNat 32 (fBfi a.toNat b.toNat d.toNat)).getLsbD i = bfi a b d i := by
  rw [BitVec.getLsbD_ofNat, testBit_fBfi, bfi, bfxLen_toNat, toNat_lowByte, decide_eq_true hi, Bool.true_and]
  rfl

/-! ### The byte permute (R143) -/

/-- Byte `n` of a number of eight bytes, or its sign: PRMT's byte on numbers. -/
def prmtDigit (x n : Nat) : Nat :=
  let t := x / 256 ^ (n % 8) % 256
  if 8 ≤ n then (if 128 ≤ t then 255 else 0) else t

theorem prmtByte_toNat (a b : Word) (n : Nat) : (prmtByte a b n).toNat = prmtDigit (a.toNat + 2 ^ 32 * b.toNat) n := by
  set t : BitVec 8 := ((b ++ a : BitVec 64) >>> (8 * (n % 8))).setWidth 8 with ht
  have htn : t.toNat = (a.toNat + 2 ^ 32 * b.toNat) / 256 ^ (n % 8) % 256 := by
    rw [ht, BitVec.toNat_setWidth, BitVec.toNat_ushiftRight, Nat.shiftRight_eq_div_pow, BitVec.toNat_append,
      ← Nat.shiftLeft_add_eq_or_of_lt a.isLt, Nat.shiftLeft_eq, Nat.add_comm, Nat.mul_comm, Nat.pow_mul]
  have hsign : t.getLsbD 7 = decide (128 ≤ t.toNat) := (BitVec.msb_eq_getLsbD_last t).symm.trans (BitVec.msb_eq_decide t)
  rw [prmtDigit, ← htn]
  simp only [prmtByte, ← ht, hsign, decide_eq_true_eq]
  split
  · split <;> rfl
  · rfl

/-- A sum over four bytes, written out. -/
theorem foldl_bytes (d : Nat → Nat) :
    (upTo 4).foldl (fun acc j => acc + d j * 256 ^ j) 0 = 0 + d 0 * 256 ^ 0 + d 1 * 256 ^ 1 + d 2 * 256 ^ 2 + d 3 * 256 ^ 3 := by
  have h : upTo 4 = [0, 1, 2, 3] := by decide
  rw [h, List.foldl_cons, List.foldl_cons, List.foldl_cons, List.foldl_cons, List.foldl_nil]

/-- PRMT's word is made of its four bytes. -/
theorem fPrmt_toNat (sel : Nat) (a b : Word) :
    fPrmt sel a.toNat b.toNat =
      0 + (prmtByte a b (sel / 16 ^ 0 % 16)).toNat * 256 ^ 0 + (prmtByte a b (sel / 16 ^ 1 % 16)).toNat * 256 ^ 1 +
      (prmtByte a b (sel / 16 ^ 2 % 16)).toNat * 256 ^ 2 + (prmtByte a b (sel / 16 ^ 3 % 16)).toNat * 256 ^ 3 := by
  rw [prmtByte_toNat, prmtByte_toNat, prmtByte_toNat, prmtByte_toNat]
  exact foldl_bytes fun j => prmtDigit (a.toNat + 2 ^ 32 * b.toNat) (sel / 16 ^ j % 16)

theorem fPrmt_lt (sel : Nat) (a b : Word) : fPrmt sel a.toNat b.toNat < 2 ^ 32 := by
  rw [fPrmt_toNat]
  omega

theorem byte_fPrmt (sel : Nat) (a b : Word) (j : Nat) (hj : j < 4) :
    ((BitVec.ofNat 32 (fPrmt sel a.toNat b.toNat)) >>> (8 * j)).setWidth 8 = prmtByte a b (sel / 16 ^ j % 16) := by
  refine BitVec.eq_of_toNat_eq ?_
  rw [toNat_lowByte, BitVec.toNat_ushiftRight, toNat_ofNat_of_lt (fPrmt_lt sel a b), Nat.shiftRight_eq_div_pow, fPrmt_toNat]
  interval_cases j <;> omega

/-! ### Interleaves (R144) -/

theorem fIlv2_lt (a b : Nat) : fIlv2 a b < 2 ^ 32 := fromBits_lt _ _

theorem fIlv3_lt (a b d : Nat) : fIlv3 a b d < 2 ^ 32 := lt_trans (fromBits_lt 30 _) (by decide)

theorem fDlv2_lt (c a : Nat) : fDlv2 c a < 2 ^ 32 := lt_trans (fromBits_lt 16 _) (by decide)

theorem fDlv3_lt (c a : Nat) : fDlv3 c a < 2 ^ 32 := lt_trans (fromBits_lt 10 _) (by decide)

theorem getLsbD_fIlv2 (a b : Word) (i : Nat) (hi : i < 32) :
    (BitVec.ofNat 32 (fIlv2 a.toNat b.toNat)).getLsbD i = if i % 2 = 0 then a.getLsbD (i / 2) else b.getLsbD (i / 2) := by
  rw [fIlv2, getLsbD_ofNat_fromBits _ hi, if_pos hi]
  rfl

theorem getLsbD_fIlv3 (a b d : Word) (i : Nat) (hi : i < 32) :
    (BitVec.ofNat 32 (fIlv3 a.toNat b.toNat d.toNat)).getLsbD i =
      if 30 ≤ i then false else if i % 3 = 0 then a.getLsbD (i / 3) else if i % 3 = 1 then b.getLsbD (i / 3) else d.getLsbD (i / 3) := by
  rw [fIlv3, getLsbD_ofNat_fromBits _ hi]
  by_cases h : i < 30
  · rw [if_pos h, if_neg (Nat.not_le.mpr h)]
    rfl
  · rw [if_neg h, if_pos (Nat.not_lt.mp h)]

theorem fClzx_toNat (a b : Word) :
    fClzx a.toNat b.toNat = (if a = b then 32 else BitVec.ofNat 32 (31 - Nat.log2 (a ^^^ b).toNat)).toNat := by
  rw [fClzx, ← BitVec.toNat_xor, fClz_toNat]
  simp only [BitVec.ofNat_eq_ofNat, BitVec.xor_eq_zero_iff]

/-! ### Pairs (R145) -/

theorem wr64_sub_toNat (a b : BitVec 64) : wr64 ((a.toNat : Int) - b.toNat) = (a - b).toNat := by
  rw [wr64_eq_toNat_ofInt, ofInt_sub, ofInt_toNat, ofInt_toNat]

theorem ofNat_two_pow (w n : Nat) : BitVec.ofNat w (2 ^ n) = BitVec.twoPow w n :=
  BitVec.eq_of_toNat_eq (by rw [BitVec.toNat_ofNat, BitVec.toNat_twoPow])

/-- An address and a shifted index (R145). -/
theorem wr64_add_mul_toNat (a : BitVec 64) (b : Word) (n : Nat) :
    wr64 ((a.toNat : Int) + s32 b.toNat * (2 ^ n : Nat)) = (a + b.signExtend 64 <<< n).toNat := by
  rw [wr64_eq_toNat_ofInt, BitVec.ofInt_add, ofInt_toNat, s32_toNat, BitVec.ofInt_mul, BitVec.ofInt_natCast, ofNat_two_pow,
    BitVec.shiftLeft_eq_mul_twoPow]
  rfl

end Sys2Proof.Machine

namespace Sys2Proof.Claims

open Sys2Proof.Machine

/-- The pair instructions of two operands, the second of `m` registers: an effect on the operands' values as numbers. -/
theorem computes_pair {i : Instr} {f : Form} {extra : Bool} {e : Enc} {k n m : Nat} {t : Nat → Nat → Nat}
    {w : Group → Nat → BitVec 64}
    (ht : ∀ g lane, t (readLocs g lane n (raLoc e)) (readLocs g lane m (rbLoc e)) = (w g lane).toNat)
    (hi : ∀ s, exec i s = runForm f extra e (aluBody e [(raLoc e, n), (rbLoc e, m)] (rdLoc e) k (alu2 t)) s) :
    Computes i f extra e (rdLoc e) k (onPair w) :=
  computes_of_legal hi fun _ g lane => congrArg (·, noFlags) (ht g lane)

theorem bitFields : BitFieldsRule := by
  refine ⟨?_, fun _ => computes_alu2 fBfxZ_toNat fun _ => rfl, fun _ => computes_alu2 fBfxS_toNat fun _ => rfl,
    fun _ => computes_alu2 fClzx_toNat fun _ => rfl, ?_, ?_, ?_⟩
  · simp only [shuffleRows, List.forall_mem_cons, List.not_mem_nil, false_implies, implies_true, and_true]
    exact ⟨fun _ => yields_alu3 (p := fun a b d w => ∀ i, i < 32 → w.getLsbD i = bfi a b d i) fBfi_lt getLsbD_fBfi fun _ => rfl,
      fun _ => yields_alu2 (p := fun a b _ w => ∀ i, i < 32 → w.getLsbD i =
          if i % 2 = 0 then a.getLsbD (i / 2) else b.getLsbD (i / 2))
        (fun a b => fIlv2_lt a.toNat b.toNat) (fun a b _ => getLsbD_fIlv2 a b) fun _ => rfl,
      fun _ => yields_alu3 (p := fun a b d w => ∀ i, i < 32 → w.getLsbD i =
          if 30 ≤ i then false else if i % 3 = 0 then a.getLsbD (i / 3) else if i % 3 = 1 then b.getLsbD (i / 3) else d.getLsbD (i / 3))
        (fun a b d => fIlv3_lt a.toNat b.toNat d.toNat) getLsbD_fIlv3 fun _ => rfl⟩
  · intro e
    refine ⟨fun g lane => BitVec.ofNat 32 (fPrmt (prmtSel e) (readLoc g lane (raLoc e)).toNat (readLoc g lane (rbLoc e)).toNat),
      fun g lane j hj => byte_fPrmt (prmtSel e) _ _ j hj, computes_of_legal (fun _ => rfl) fun _ g lane => ?_⟩
    simp only [List.map_cons, List.map_nil, readLocs_one, alu2, toNat_ofNat_of_lt (fPrmt_lt _ _ _)]
  · intro e
    refine yields_rri (p := fun a w => ∀ i, i < 32 → w.getLsbD i = if i < 16 then a.getLsbD (2 * i + immRri e) else false)
      (fun a => fDlv2_lt (immRri e) a.toNat) (fun a i hi => ?_) fun _ => rfl
    exact getLsbD_ofNat_fromBits _ hi
  · intro e
    refine yields_rri (p := fun a w => ∀ i, i < 32 → w.getLsbD i = if i < 10 then a.getLsbD (3 * i + immRri e) else false)
      (fun a => fDlv3_lt (immRri e) a.toNat) (fun a i hi => ?_) fun _ => rfl
    exact getLsbD_ofNat_fromBits _ hi

theorem pairIntegers : PairIntegersRule := by
  intro e
  dsimp only
  refine ⟨computes_of_legal (fun _ => rfl) fun _ g lane => ?_, computes_pair (fun g lane => ?_) fun _ => rfl,
    computes_pair (fun g lane => ?_) fun _ => rfl, computes_pair (fun g lane => ?_) fun _ => rfl,
    computes_pair (fun g lane => ?_) fun _ => rfl⟩
  · simp only [List.map_cons, List.map_nil, readLocs_two, alu1, fClz_toNat]
    rfl
  · rw [readLocs_two, readLocs_two, BitVec.toNat_add]
  · rw [readLocs_two, readLocs_two, wr64_sub_toNat]
  · rw [readLocs_two, readLocs_one, wr64_add_mul_toNat]
  · rw [readLocs_one, readLocs_one, wr64_mul]

/-- Settles O2: bit fields and interleaves bit by bit, PRMT byte by byte, pairs as 64-bit arithmetic. -/
theorem bitFieldsAndPairs : Obligations.BitFieldsAndPairs := ⟨bitFields, pairIntegers⟩

end Sys2Proof.Claims
end

section
/-!
SUPPORT. Select, predicate logic, votes and predicates to and from registers (R147 to R149, R173): what they leave, and O4.
-/

namespace Sys2Proof.Machine

open Sys2Proof Sys2Proof.Claims

/-! ### A word written in lanes, or once for the group -/

@[simp] theorem mergeFlags_noFlags (g : Group) : mergeFlags noFlags g = g := by
  simp [mergeFlags, noFlags]

@[simp] theorem wordsOf_one (w : Word) : wordsOf 1 w.toNat = [w] := by
  simp [wordsOf]

/-- What an instruction does that writes one word `w` in some lanes, or once for the group where `q` is true, and goes on. -/
def writeBody (e : Enc) (lanes : LaneMask) (q : Bool) (rd : Nat) (w : Group → Nat → Word) (s : State) : State :=
  advance (wordLen e) (modCur s fun g =>
    if e.u then (if q then writeG rd (w g 0) g else g) else (laneList lanes).foldl (fun acc i => writeV rd i (w g i) acc) g)

theorem writeBody_result {s : State} (h : Issues s) (e : Enc) (lanes : LaneMask) (q : Bool) (rd : Nat) (w : Group → Nat → Word) :
    let r (lane : Nat) : Nat × Flags := ((w (curGroup s) lane).toNat, noFlags)
    if e.u then GroupResult s (writeBody e lanes q rd w s) (wordLen e) q rd 1 (r 0)
    else LaneResult s (writeBody e lanes q rd w s) (wordLen e) lanes rd 1 r := by
  intro r
  unfold writeBody
  cases hu : e.u
  · have hc := modCur_congr s (f := fun g => (laneList lanes).foldl (fun acc i => writeV rd i (w g i) acc) g)
      (h := fun g => (laneList lanes).foldl (fun acc i => mergeFlags (r i).2 (writeVs rd i (wordsOf 1 (r i).1) acc)) g)
      (by simp only [r, mergeFlags_noFlags, wordsOf_one, writeVs])
    exact hc ▸ laneResult_intro h (wordLen e) lanes rd 1 r
  · have hc := modCur_congr s (f := fun g => if q then writeG rd (w g 0) g else g)
      (h := fun g => if q then mergeFlags (r 0).2 (writeGs rd (wordsOf 1 (r 0).1) g) else g)
      (by simp only [r, mergeFlags_noFlags, wordsOf_one, writeGs])
    exact hc ▸ groupResult_intro h (wordLen e) q rd 1 (r 0)

/-- The issuing group where an instruction has rewritten it and gone on. -/
theorem curGroup_advance_modCur {s : State} (h : Issues s) (len : Nat) (f : Group → Group)
    (hf : (f (curGroup s)).slices = (curGroup s).slices) :
    curGroup (advance len (modCur s f)) =
      modSlices (f (curGroup s)) (curSlices s) fun sl => { sl with pc := sl.pc + BitVec.ofNat 57 len } := by
  rw [advance_modCur h len f hf, curGroup_modCur h]

/-! ### SEL (R147) -/

/-- The word SEL chooses in a lane, or for the group. -/
def selWord (e : Enc) (g : Group) (lane : Nat) : Word :=
  readLoc g lane (if guardBit e g lane (guardNum e) then raLoc e else rbLoc e)

theorem exec_sel {e : Enc} {s : State} (h : Legal formRrr true e s) :
    exec (.sel e) s = .next (writeBody e (gangLanes s) true (locNum (rdLoc e)) (selWord e) s) := by
  have hl : Legal { formRrr with selector := true } true e s := h
  show execSel e s = _
  rw [execSel, runForm_legal hl]
  refine congrArg (fun t => Host.Outcome.next (advance (wordLen e) t)) (modCur_congr s ?_)
  cases hu : e.u
  · simp only [selWord, guardBit, hu, Bool.false_eq_true, if_false]
    rfl
  · simp only [selWord, guardBit, hu, if_true]

/-! ### P2R (R149) -/

/-- The predicates of a lane, or of the group, as a word. -/
def predsWord (e : Enc) (g : Group) (lane : Nat) : Word := predWord (if e.u then g.qpreds else cellGet 0 g.preds lane)

theorem predicateWord_predWord (x : BitVec 8) : predicateWord (fun k => k == 0 || x.getLsbD k) (predWord x) := by
  intro k hk
  rw [predWord, BitVec.getLsbD_setWidth, BitVec.getLsbD_or]
  rcases k with _ | k
  · simp
  · by_cases h8 : k + 1 < 8
    · simp [hk, h8]
    · simp [h8, BitVec.getLsbD_of_ge x (k + 1) (Nat.not_lt.mp h8)]

theorem guardBit_eq (e : Enc) (g : Group) (lane k : Nat) :
    guardBit e g lane k = (k == 0 || (if e.u then g.qpreds else cellGet 0 g.preds lane).getLsbD k) := by
  unfold guardBit
  cases e.u <;> rfl

theorem predicateWord_predsWord (e : Enc) (g : Group) (lane : Nat) : predicateWord (guardBit e g lane) (predsWord e g lane) := by
  rw [funext (guardBit_eq e g lane)]
  exact predicateWord_predWord _

theorem exec_p2r {e : Enc} {s : State} (h : Legal p2rForm true e s) :
    exec (.p2r e) s = .next (writeBody e (actLanes e s) (qGuard e s) (locNum (rdLoc e)) (predsWord e) s) := by
  show execP2r e s = _
  rw [execP2r, ← p2rForm, runForm_legal h]
  refine congrArg (fun t => Host.Outcome.next (advance (wordLen e) t)) (modCur_congr s ?_)
  cases hu : e.u
  · simp only [predsWord, hu, Bool.false_eq_true, if_false]
  · simp only [predsWord, hu, if_true]

/-! ### R2P (R149) -/

theorem getLsbD_wordPreds (w : Word) {k : Nat} (h0 : 0 < k) (h8 : k < 8) : (wordPreds w).getLsbD k = w.getLsbD k := by
  have hmask : ∀ k < 8, 0 < k → (0xFE : BitVec 8).getLsbD k = true := by decide
  rw [wordPreds, BitVec.getLsbD_and, BitVec.getLsbD_setWidth, hmask k h8 h0, decide_eq_true h8, Bool.true_and, Bool.and_true]

/-- Predicates 1 to 7 set from a word; predicate 0 and those past 7 read as before. -/
theorem or_getLsbD_wordPreds (w : Word) (x : BitVec 8) (k : Nat) :
    (k == 0 || (wordPreds w).getLsbD k) = if 0 < k ∧ k < 8 then w.getLsbD k else (k == 0 || x.getLsbD k) := by
  by_cases h0 : k = 0
  · subst h0
    rfl
  · have hb : (k == 0) = false := by simpa using h0
    rw [hb, Bool.false_or, Bool.false_or]
    by_cases h8 : k < 8
    · rw [if_pos ⟨Nat.pos_of_ne_zero h0, h8⟩, getLsbD_wordPreds w (Nat.pos_of_ne_zero h0) h8]
    · rw [if_neg (fun h => h8 h.2), BitVec.getLsbD_of_ge _ k (Nat.not_lt.mp h8), BitVec.getLsbD_of_ge x k (Nat.not_lt.mp h8)]

/-- R2P in one lane: its predicates set from its word. -/
def setPreds (w : Nat → Word) (g : Group) (lane : Nat) : Group := { g with preds := cellSet 0 g.preds lane (wordPreds (w lane)) }

theorem readP_setPreds (w : Nat → Word) (g : Group) (i k lane : Nat) :
    readP (setPreds w g i) k lane = if lane = i ∧ 0 < k ∧ k < 8 then (w lane).getLsbD k else readP g k lane := by
  unfold readP setPreds
  rw [cellGet_cellSet]
  by_cases h : lane = i
  · subst h
    simp only [if_true, true_and]
    exact or_getLsbD_wordPreds _ _ _
  · simp only [h, if_false, false_and]

/-- What R2P leaves in its lanes. -/
theorem foldl_setPreds (w : Nat → Word) (lanes : List Nat) (g : Group) :
    let g' := lanes.foldl (setPreds w) g
    (∀ k lane, readP g' k lane = if lane ∈ lanes ∧ 0 < k ∧ k < 8 then (w lane).getLsbD k else readP g k lane) ∧
    g' = { g with preds := g'.preds } := by
  induction lanes generalizing g with
  | nil => exact ⟨fun k lane => by simp, rfl⟩
  | cons i rest ih =>
    obtain ⟨hread, hrest⟩ := ih (setPreds w g i)
    refine ⟨fun k lane => ?_, hrest⟩
    simp only [List.foldl_cons, hread, readP_setPreds, List.mem_cons]
    by_cases hk : 0 < k ∧ k < 8
    · simp only [hk, and_true]
      by_cases hi : lane = i <;> simp [hi]
    · simp only [hk, and_false, if_false]

theorem predSets_slices {x y : Group} (h : y = { x with preds := y.preds, qpreds := y.qpreds }) (l : List Slice) :
    ({ y with slices := l } : Group) = { x with preds := y.preds, qpreds := y.qpreds, slices := l } := by
  rw [h]

/-- What R2P makes of its group. -/
def r2pGroup (e : Enc) (lanes : LaneMask) (q : Bool) (g : Group) : Group :=
  if e.u then (if q then { g with qpreds := wordPreds (readLoc g 0 (raLoc e)) } else g)
  else (laneList lanes).foldl (setPreds fun i => readLoc g i (raLoc e)) g

theorem exec_r2p {e : Enc} {s : State} (h : Legal r2pForm true e s) :
    exec (.r2p e) s = .next (advance (wordLen e) (modCur s (r2pGroup e (actLanes e s) (qGuard e s)))) := by
  show execR2p e s = _
  rw [execR2p, ← r2pForm, runForm_legal h]
  rfl

theorem r2pGroup_rest (e : Enc) (lanes : LaneMask) (q : Bool) (g : Group) :
    r2pGroup e lanes q g = { g with preds := (r2pGroup e lanes q g).preds, qpreds := (r2pGroup e lanes q g).qpreds } := by
  unfold r2pGroup
  split
  · split <;> rfl
  · generalize hg : (laneList lanes).foldl (setPreds fun i => readLoc g i (raLoc e)) g = g'
    have h := hg ▸ (foldl_setPreds (fun i => readLoc g i (raLoc e)) (laneList lanes) g).2
    rw [h]

theorem r2pGroup_slices (e : Enc) (lanes : LaneMask) (q : Bool) (g : Group) : (r2pGroup e lanes q g).slices = g.slices := by
  simpa using congrArg Group.slices (r2pGroup_rest e lanes q g)

/-- Under U = 0 the group's own predicates stay. -/
theorem r2pGroup_qpreds {e : Enc} (hu : e.u = false) (lanes : LaneMask) (q : Bool) (g : Group) :
    (r2pGroup e lanes q g).qpreds = g.qpreds := by
  simp only [r2pGroup, hu, Bool.false_eq_true, if_false]
  rw [(foldl_setPreds _ _ g).2]

/-- Under U = 1 the lanes' predicates stay. -/
theorem r2pGroup_preds {e : Enc} (hu : e.u = true) (lanes : LaneMask) (q : Bool) (g : Group) :
    (r2pGroup e lanes q g).preds = g.preds := by
  cases q <;> simp [r2pGroup, hu]

theorem readP_r2pGroup {e : Enc} (hu : e.u = false) (lanes : LaneMask) (q : Bool) (g : Group) {lane : Nat} (hl : lane < 32) (k : Nat) :
    readP (r2pGroup e lanes q g) k lane =
      if lanes.getLsbD lane = true ∧ 0 < k ∧ k < 8 then (readLoc g lane (raLoc e)).getLsbD k else readP g k lane := by
  simp only [r2pGroup, hu, Bool.false_eq_true, if_false, (foldl_setPreds _ _ g).1, mem_laneList, hl, true_and]

theorem readQ_r2pGroup {e : Enc} (hu : e.u = true) (lanes : LaneMask) (q : Bool) (g : Group) (k : Nat) :
    readQ (r2pGroup e lanes q g) k = if q = true ∧ 0 < k ∧ k < 8 then (readLoc g 0 (raLoc e)).getLsbD k else readQ g k := by
  cases q with
  | false => simp [r2pGroup, hu]
  | true =>
    simp only [r2pGroup, hu, if_true, true_and]
    exact or_getLsbD_wordPreds _ _ _

/-! ### PLOP (R148) -/

theorem plopOp_eq_logic : ∀ (op : Nat) (a b : Bool), plopOp op a b = logic op a b
  | 0, _, _ | 1, _, _ | 3, _, _ | 4, _, _ | 6, _, _ | _ + 7, _, _ => rfl
  | 2, a, b | 5, a, b => by cases a <;> cases b <;> rfl

/-! ### Votes (R173) -/

theorem predicate_congr {e : Enc} {f f' : Group → Nat → Bool × Flags} {s t : State} (hf : f (curGroup s) = f' (curGroup s))
    (h : Predicate e f s t) : Predicate e f' s t := by
  unfold Predicate at h ⊢
  rwa [← hf]

theorem mem_participants (e : Enc) (s : State) (i : Nat) :
    i ∈ laneList (actLanes e s) ↔ i ∈ List.range 32 ∧ takesPart e s i = true := by
  rw [mem_laneList, List.mem_range, takesPart, Bool.and_eq_true, decide_eq_true_eq]
  tauto

/-- Some participant has a property. -/
theorem any_participants (e : Enc) (s : State) (p : Nat → Bool) :
    ((laneList (actLanes e s)).map p).any id = (List.range 32).any fun i => takesPart e s i && p i := by
  rw [Bool.eq_iff_iff]
  simp [mem_participants, and_assoc]

/-- Every participant has it. -/
theorem all_participants (e : Enc) (s : State) (p : Nat → Bool) :
    ((laneList (actLanes e s)).map p).all id = (List.range 32).all fun i => !takesPart e s i || p i := by
  rw [Bool.eq_iff_iff]
  simp only [List.all_eq_true, List.forall_mem_map, id, mem_participants, and_imp]
  refine forall₂_congr fun i _ => ?_
  cases takesPart e s i <;> simp

/-- A legal vote writes what it makes of its participants' predicates. -/
theorem runVote_legal {e : Enc} {s : State} (h : Legal voteForm true e s) (res : List Bool → Bool) :
    runVote e res s =
      .next (predBody e (fun _ _ => (res ((laneList (actLanes e s)).map fun i => readP (curGroup s) e.ra.toNat i), noFlags)) s) := by
  rw [runVote, ← voteForm, runForm_legal h]

end Sys2Proof.Machine

namespace Sys2Proof.Claims

open Sys2Proof.Machine

theorem predicateLogic : PredicateLogicRule := by
  refine ⟨fun e => ?_, fun e s h => ⟨_, runVote_legal h (·.any id), predicate_congr ?_ (predBody_result h.1 e _)⟩,
    fun e s h => ⟨_, runVote_legal h (·.all id), predicate_congr ?_ (predBody_result h.1 e _)⟩⟩
  · simp only [← plopOp_eq_logic]
    exact decides_predBody fun _ => rfl
  · rw [any_participants]
  · rw [all_participants]

theorem selectAndPredicateMoves : SelectAndPredicateMovesRule := by
  refine ⟨fun e s h => ⟨_, exec_sel h, ?_⟩,
    fun e => ⟨predsWord e, predicateWord_predsWord e, fun s h => ⟨_, exec_p2r h, ?_⟩⟩,
    fun e s h => ⟨_, exec_r2p h, ?_⟩⟩
  · exact writeBody_result h.1 e (gangLanes s) true (locNum (rdLoc e)) (selWord e)
  · exact writeBody_result h.1 e (actLanes e s) (qGuard e s) (locNum (rdLoc e)) (predsWord e)
  · have hs := r2pGroup_slices e (actLanes e s) (qGuard e s) (curGroup s)
    obtain ⟨honly, hbytes⟩ := advance_modCur_only h.1 (wordLen e) _ hs
    have hadv := advanced_modCur h.1 (wordLen e) _ hs
    refine ⟨?_, ?_, ?_, ?_, hadv, honly, hbytes, ?_⟩ <;> rw [curGroup_advance_modCur h.1 _ _ hs]
    · exact fun hu lane hl k => readP_r2pGroup hu _ _ _ hl k
    · exact fun hu => r2pGroup_qpreds hu _ _ _
    · exact fun hu => r2pGroup_preds hu _ _ _
    · exact fun hu k => readQ_r2pGroup hu _ _ _ k
    · exact predSets_slices (r2pGroup_rest e (actLanes e s) (qGuard e s) (curGroup s)) _

/-- Settles O4: PLOP and the votes as predicate results, SEL and P2R as words written, R2P predicate by predicate. -/
theorem predicateMoves : Obligations.PredicateMoves := ⟨predicateLogic, selectAndPredicateMoves⟩

end Sys2Proof.Claims
end

section
/-!
SUPPORT. Compares (R146, R160, R166): the CMP format as a predicate result, the integer conditions, and O3.
-/

namespace Sys2Proof.Machine

open Sys2Proof Sys2Proof.Claims

/-! ### The CMP format (R69) -/

/-- An instruction of the CMP format decides what its compare `c` makes of its condition and its two operands. -/
theorem decides_runCmpFormat {i : Instr} {e : Enc} {conds n align : Nat} (c : Nat → Nat → Nat → Bool × Flags) {prologue : Bool}
    {r : Group → Nat → Bool × Flags} (hi : ∀ s, exec i s = runCmpFormat e conds n align c prologue s)
    (hc : ∀ g lane, c (cmpCond e) (readLocs g lane n (raLoc e)) (readLocs g lane n (rbLoc e)) = r g lane) :
    Decides i { rd := .cond conds, ra := .reg n align, rb := .reg n align, prologue := prologue } true e r := by
  have hr : (fun g lane => c (cmpCond e) (readLocs g lane n (raLoc e)) (readLocs g lane n (rbLoc e))) = r := by
    funext g lane
    exact hc g lane
  exact hr ▸ decides_predBody hi

/-! ### Integer compares (R146) -/

/-- Codes 0 to 4 name one condition each, and every code above 4 is `.ge`. -/
theorem intCompare_eq_holds (x y : Int) : ∀ c, intCompare x y c = holds c x y
  | 0 | 2 | 3 | 4 | _ + 5 => rfl
  | 1 => decide_not.symm

/-- An integer compare that reads its operands by `v`, which on words is `w`, decides by the condition on the words. -/
theorem decides_intCompare {i : Instr} {e : Enc} (v : Nat → Int) {w : Word → Int}
    (hi : ∀ s, exec i s = runCmpFormat e 6 1 1 (fun c a b => (intCompare (v a) (v b) c, noFlags)) true s)
    (hv : ∀ a : Word, v a.toNat = w a) :
    Decides i compareForm true e fun g lane =>
      (holds (cmpCond e) (w (readLoc g lane (raLoc e))) (w (readLoc g lane (rbLoc e))), noFlags) :=
  decides_runCmpFormat _ hi fun _ _ => by
    rw [readLocs_one, readLocs_one, hv, hv, intCompare_eq_holds]

end Sys2Proof.Machine

namespace Sys2Proof.Claims

open Sys2Proof.Machine

theorem integerCompares : IntegerComparesRule :=
  ⟨fun _ => decides_intCompare s32 (fun _ => rfl) s32_toNat,
    fun _ => decides_intCompare (fun a => (a : Int)) (fun _ => rfl) fun _ => rfl⟩

theorem floatCompares : FloatComparesRule :=
  ⟨fun _ => decides_runCmpFormat (floatCompare fp32) (fun _ => rfl) fun _ _ => by rw [readLocs_one, readLocs_one],
    fun _ => decides_runCmpFormat (floatCompare fp64) (fun _ => rfl) fun _ _ => by rw [readLocs_two, readLocs_two]⟩

/-- Settles O3: each compare is the CMP format's run (`decides_runCmpFormat`) of its condition on the operands read as words or pairs; the
format writes the predicate and its complement (`predBody_result`). -/
theorem compares : Obligations.Compares := ⟨integerCompares, floatCompares⟩

end Sys2Proof.Claims
end

section
/-!
SUPPORT. Barriers initialised and queried (R184, R189): the issuing span as a place of change, BAR.INIT's effect on it, BAR.QRY's word,
and O16.
-/

namespace Sys2Proof.Machine

open Sys2Proof Sys2Proof.Claims

/-! ### The issuing span -/

/-- Where there is an issuing span, a gang of one of its groups issues. -/
theorem issuer_of_curSpan {s : State} {sp : Span} (h : curSpan s = some sp) :
    s.issuer = .gang (curSid s) (curNum s) (issuerSlice s) := by
  unfold curSpan at h
  unfold curSid curNum issuerSlice
  cases hi : s.issuer with
  | nobody => simp [hi] at h
  | gang sid n sl => rfl
  | prologue e => simp [hi] at h

theorem findSpan_curSid {s : State} {sp : Span} (h : curSpan s = some sp) : findSpan s (curSid s) = some sp := by
  have hi := issuer_of_curSpan h
  unfold curSpan at h
  rwa [hi] at h

theorem curGroup_of_curSpan {s : State} {sp : Span} (h : curSpan s = some sp) : curGroup s = (sp.groups[curNum s]?).getD noGroup := by
  unfold curGroup
  rw [issuer_of_curSpan h]
  simp only [findGroup, findSpan_curSid h, Option.bind_some]

/-- A gang issues just where its group is in its span. -/
theorem issues_iff_of_curSpan {s : State} {sp : Span} (h : curSpan s = some sp) : Issues s ↔ (sp.groups[curNum s]?).isSome = true := by
  unfold Issues
  rw [issuer_of_curSpan h]
  simp only [findGroup, findSpan_curSid h, Option.bind_some]

@[simp] theorem modCurSpan_issuer (s : State) (f : Span → Span) : (modCurSpan s f).issuer = s.issuer := rfl

@[simp] theorem curSid_modCurSpan (s : State) (f : Span → Span) : curSid (modCurSpan s f) = curSid s := rfl

@[simp] theorem curNum_modCurSpan (s : State) (f : Span → Span) : curNum (modCurSpan s f) = curNum s := rfl

@[simp] theorem issuerSlice_modCurSpan (s : State) (f : Span → Span) : issuerSlice (modCurSpan s f) = issuerSlice s := rfl

theorem curSpan_modCurSpan {s : State} {sp : Span} (h : curSpan s = some sp) (f : Span → Span) :
    curSpan (modCurSpan s f) = some (f sp) := by
  unfold curSpan
  rw [modCurSpan_issuer, issuer_of_curSpan h]
  simp only [modCurSpan, findSpan_modSpan_same, findSpan_curSid h, Option.map_some]

theorem modCurSpan_modCurSpan (s : State) (f h : Span → Span) : modCurSpan (modCurSpan s f) h = modCurSpan s fun sp => h (f sp) := by
  unfold modCurSpan modSpan
  exact congrArg (fun l => { s with spans := l }) (keyMod_keyMod (curSid s) f h s.spans)

/-- A gang's group is rewritten in its span. -/
theorem modCur_eq_modCurSpan {s : State} {sp : Span} (h : curSpan s = some sp) (f : Group → Group) :
    modCur s f = modCurSpan s fun sp => { sp with groups := listSet f (curNum s) sp.groups } :=
  modCur_gang (issuer_of_curSpan h) f

/-- Rewriting the issuing span's groups and barriers changes only it. -/
theorem spanMoves_modCurSpan {s : State} {sp : Span} (h : curSpan s = some sp) (f : Span → Span)
    (hf : f sp = { sp with barriers := (f sp).barriers, groups := (f sp).groups }) : SpanMoves s (modCurSpan s f) sp (f sp) := by
  refine ⟨⟨rfl, fun x hx => findSpan_modSpan_other s hx f⟩, ?_, hf⟩
  simp only [modCurSpan, findSpan_modSpan_same, findSpan_curSid h, Option.map_some]

/-! ### Going on -/

/-- A group some of whose slices go on. -/
def goOn (len : Nat) (ks : List Nat) (g : Group) : Group := modSlices g ks fun sl => { sl with pc := sl.pc + BitVec.ofNat 57 len }

/-- A change of the issuing span and the gang's going on are one change of that span. -/
theorem advance_modCurSpan {s : State} {sp : Span} (h : curSpan s = some sp) (f : Span → Span) (len : Nat) :
    advance len (modCurSpan s f) = modCurSpan s fun x =>
      { f x with groups := listSet (goOn len (curSlices (modCurSpan s f))) (curNum s) (f x).groups } := by
  rw [advance_eq, modCur_eq_modCurSpan (curSpan_modCurSpan h f), modCurSpan_modCurSpan]
  rfl

theorem advanced_advance {s : State} (h : Issues s) (len : Nat) : Advanced len s (advance len s) := by
  intro k
  rw [advance_eq, curGroup_modCur h]
  exact modSlices_getElem? _ _ (gangSlices_nodup (curGroup s) (issuerSlice s)) _ k

theorem goesOn_advance {s : State} (h : Issues s) (len : Nat) : GoesOn len s (advance len s) := by
  refine ⟨advanced_advance h len, ?_, ?_, ?_⟩ <;> rw [advance_eq]
  · rw [curGroup_modCur h]
    rfl
  · exact onlyGroup_modCur h _
  · exact sameBytes_modCur s _

/-- A gang whose slices a change of the state has left as they were goes on as it would have gone on before. -/
theorem advanced_of_same_slices {s s' t : State} {len : Nat} (hslices : (curGroup s').slices = (curGroup s).slices)
    (hissuer : issuerSlice s' = issuerSlice s) (h : Advanced len s' t) : Advanced len s t := by
  have hcur : curSlices s' = curSlices s := by
    unfold curSlices gangSlices
    rw [hissuer, hslices]
  unfold Advanced at h ⊢
  rwa [hcur, hslices] at h

/-! ### Barrier bits (R183) -/

theorem getLsbD_setBarBit (x : BitVec 16) {j : Nat} (hj : j < 16) (k : Nat) (v : Bool) :
    (setBarBit x k v).getLsbD j = if j = k then v else x.getLsbD j := by
  have hbit : ((1 : BitVec 16) <<< k).getLsbD j = decide (j = k) := by
    have h := BitVec.getLsbD_twoPow (w := 16) k j
    rw [BitVec.twoPow_eq] at h
    refine h.trans ?_
    rw [← Bool.decide_and]
    exact decide_eq_decide.mpr ⟨fun h => h.2.symm, fun h => ⟨h ▸ hj, h.symm⟩⟩
  unfold setBarBit
  cases v
  · rw [if_neg Bool.false_ne_true, BitVec.getLsbD_and, BitVec.getLsbD_not, hbit, decide_eq_true hj]
    by_cases hk : j = k <;> simp [hk]
  · rw [if_pos rfl, BitVec.getLsbD_or, hbit]
    by_cases hk : j = k <;> simp [hk]

theorem bitIs_setBarBit (x : BitVec 16) (k : Nat) (v : Bool) : bitIs x (setBarBit x k v) k v :=
  fun _ hj => getLsbD_setBarBit x hj k v

theorem curBarrier_eq {s : State} {sp : Span} {b : Barrier} {k : Nat} (hsp : curSpan s = some sp) (hb : sp.barriers[k]? = some b) :
    curBarrier s k = b := by
  simp only [curBarrier, hsp, Option.map_some, Option.getD_some, spanBarrier, hb]

/-! ### BAR.INIT (R184) -/

/-- A barrier as BAR.INIT leaves it. -/
def startedBarrier (e : Enc) (b : Barrier) : Barrier :=
  { b with init := true, auto := barAuto e, n := barCount e, nNext := barCount e, a := 0 }

/-- A group that has not arrived at barrier `k` and has no token of it. -/
def clearBarBits (k : Nat) (g : Group) : Group :=
  { g with arr := setBarBit g.arr k false, tok := setBarBit g.tok k false, tv := setBarBit g.tv k false }

/-- What BAR.INIT on barrier `k` makes of group `m`, whose slices go on where it is `n`, the issuing one. -/
def clearedGroup (k n m : Nat) (g g' : Group) : Prop :=
  bitIs g.arr g'.arr k false ∧ bitIs g.tok g'.tok k false ∧ bitIs g.tv g'.tv k false ∧
  g' = { g with arr := g'.arr, tok := g'.tok, tv := g'.tv, slices := g'.slices } ∧ (m ≠ n → g'.slices = g.slices)

/-- The issuing span as BAR.INIT leaves it, its gang yet to go on. -/
def initBarrier (e : Enc) (sp : Span) : Span :=
  { modBarrier (barIndex e) (startedBarrier e) sp with groups := sp.groups.map (clearBarBits (barIndex e)) }

/-- BAR.INIT names the state its barrier is in already (R184). -/
def barUnchanged (e : Enc) (b : Barrier) : Bool := b.init && b.n == barCount e && b.nNext == barCount e && b.auto == barAuto e

/-- The barrier has arrivals, or engine operations still to arrive (R184). -/
def barInUse (b : Barrier) : Bool := b.init && (b.a != 0 || b.pend != 0)

theorem exec_barInit {e : Enc} {s : State}
    (h : Legal { barForm with xp := .layoutB } (decide (1 ≤ immRj e / 32) && decide (immRj e / 32 ≤ 65535)) e s)
    (hhandler : inHandler s = false) (hwhole : wholeGang s = true) :
    exec (.barInit e) s = .next (
      if barUnchanged e (curBarrier s (barIndex e)) then advance (wordLen e) s
      else if barInUse (curBarrier s (barIndex e)) then faultWith 0 15 (gangLanes s) s
      else advance (wordLen e) (modCurSpan s (initBarrier e))) := by
  have hl : Legal { formBar with xp := .layoutB } (decide (1 ≤ barCount e) && decide (barCount e ≤ 65535)) e s := h
  show execBarInit e s = _
  rw [execBarInit, runForm_legal hl, notInHandler, hhandler, needWhole, needWholeFor, hwhole]
  rfl

theorem barAuto_iff (e : Enc) : barAuto e = true ↔ immRj e / 16 % 2 = 1 := by
  simp [barAuto, Nat.testBit_eq_decide_div_mod_eq]

theorem barUnchanged_iff (e : Enc) (b : Barrier) :
    barUnchanged e b = true ↔
      b.init = true ∧ b.n = immRj e / 32 ∧ b.nNext = immRj e / 32 ∧ (b.auto = true ↔ immRj e / 16 % 2 = 1) := by
  simp only [barUnchanged, Bool.and_eq_true, beq_iff_eq, and_assoc]
  rw [← barAuto_iff, ← Bool.eq_iff_iff]
  rfl

theorem barInUse_iff (b : Barrier) : barInUse b = true ↔ b.init = true ∧ (b.a ≠ 0 ∨ b.pend ≠ 0) := by
  simp [barInUse]

/-- BAR.INIT starts its barrier and leaves the others. -/
theorem barrierIs_initBarrier {e : Enc} {sp : Span} {b : Barrier} (hb : sp.barriers[barIndex e]? = some b) :
    BarrierIs sp (initBarrier e sp) (barIndex e) (startedBarrier e b) := by
  intro j
  show (listSet (startedBarrier e) (barIndex e) sp.barriers)[j]? = _
  by_cases hj : j = barIndex e
  · rw [hj, listSet_getElem?_same, hb, if_pos rfl]
    rfl
  · rw [listSet_getElem?_other _ hj, if_neg hj]

theorem eachGroup_initBarrier (e : Enc) (sp : Span) (n len : Nat) (ks : List Nat) :
    EachGroup sp { initBarrier e sp with groups := listSet (goOn len ks) n (initBarrier e sp).groups }
      (clearedGroup (barIndex e) n) := by
  refine ⟨by simp [initBarrier, listSet_length], fun m g hg => ?_⟩
  have hclear : (initBarrier e sp).groups[m]? = some (clearBarBits (barIndex e) g) := by simp [initBarrier, hg]
  by_cases hm : m = n
  · subst hm
    exact ⟨goOn len ks (clearBarBits (barIndex e) g), by rw [listSet_getElem?_same, hclear, Option.map_some],
      bitIs_setBarBit _ _ _, bitIs_setBarBit _ _ _, bitIs_setBarBit _ _ _, rfl, fun h => absurd rfl h⟩
  · exact ⟨clearBarBits (barIndex e) g, by rw [listSet_getElem?_other _ hm, hclear],
      bitIs_setBarBit _ _ _, bitIs_setBarBit _ _ _, bitIs_setBarBit _ _ _, rfl, fun _ => rfl⟩

/-- Clearing barrier bits leaves the issuing gang's slices. -/
theorem curGroup_initBarrier {s : State} {sp : Span} (h : Issues s) (hsp : curSpan s = some sp) (e : Enc) :
    curGroup (modCurSpan s (initBarrier e)) = clearBarBits (barIndex e) (curGroup s) := by
  obtain ⟨g, hg⟩ := Option.isSome_iff_exists.mp ((issues_iff_of_curSpan hsp).mp h)
  rw [curGroup_of_curSpan (curSpan_modCurSpan hsp _), curGroup_of_curSpan hsp, curNum_modCurSpan, hg]
  simp [initBarrier, hg]

theorem issues_initBarrier {s : State} {sp : Span} (h : Issues s) (hsp : curSpan s = some sp) (e : Enc) :
    Issues (modCurSpan s (initBarrier e)) := by
  rw [issues_iff_of_curSpan (curSpan_modCurSpan hsp _), curNum_modCurSpan]
  simpa [initBarrier] using (issues_iff_of_curSpan hsp).mp h

/-- BAR.INIT where it starts its barrier: the issuing span alone moves, in its groups and barriers, and the gang goes on. -/
theorem advance_initBarrier {s : State} {sp : Span} (h : Issues s) (hsp : curSpan s = some sp) (e : Enc) :
    let t := advance (wordLen e) (modCurSpan s (initBarrier e))
    let sp' := { initBarrier e sp with
      groups := listSet (goOn (wordLen e) (curSlices (modCurSpan s (initBarrier e)))) (curNum s) (initBarrier e sp).groups }
    SpanMoves s t sp sp' ∧ Advanced (wordLen e) s t ∧ EachGroup sp sp' (clearedGroup (barIndex e) (curNum s)) := by
  refine ⟨?_, ?_, eachGroup_initBarrier e sp (curNum s) (wordLen e) _⟩
  · rw [advance_modCurSpan hsp]
    exact spanMoves_modCurSpan hsp _ rfl
  · refine advanced_of_same_slices ?_ (issuerSlice_modCurSpan s (initBarrier e)) (advanced_advance (issues_initBarrier h hsp e) (wordLen e))
    rw [curGroup_initBarrier h hsp]
    rfl

/-! ### BAR.QRY (R189) -/

theorem result_congr {e : Enc} {rd : Loc} {k : Nat} {f f' : Group → Nat → Nat × Flags} {s t : State} (hf : f (curGroup s) = f' (curGroup s))
    (h : Result e rd k f s t) : Result e rd k f' s t := by
  unfold Result at h ⊢
  rwa [← hf]

theorem toNat_append_eq {m n : Nat} (hi : BitVec m) (lo : BitVec n) : (hi ++ lo).toNat = hi.toNat * 2 ^ n + lo.toNat := by
  rw [BitVec.toNat_append, ← Nat.shiftLeft_add_eq_or_of_lt lo.isLt, Nat.shiftLeft_eq]

/-- The fields of R189's word, from the highest to the lowest. -/
theorem barWord_eq_queryWord (b : Barrier) (arrived : Bool) : barWord b arrived = (queryWord b arrived).toNat := by
  have hzero : (0 : BitVec 4).toNat = 0 := rfl
  have hpend : min b.pend 255 % 2 ^ 8 = min b.pend 255 := Nat.mod_eq_of_lt (by omega)
  have hbit (v : Bool) (n : Nat) : (if v then n else 0) = v.toNat * n := by cases v <;> simp
  simp only [barWord, queryWord, toNat_append_eq, BitVec.toNat_ofNat, BitVec.toNat_ofBool, hzero, hpend, hbit]
  ring

end Sys2Proof.Machine

namespace Sys2Proof.Claims

open Sys2Proof.Machine

theorem barrierInit : BarrierInitRule := by
  intro e s sp b hlegal hsp hb hhandler hwhole
  have hexec := exec_barInit hlegal hhandler hwhole
  rw [curBarrier_eq (k := barIndex e) hsp hb] at hexec
  refine ⟨fun hsame => ⟨_, ?_, goesOn_advance hlegal.1 (wordLen e)⟩, fun hsame hinit huse => ?_, fun hsame hfree => ?_⟩
  · rw [hexec, if_pos ((barUnchanged_iff e b).mpr hsame)]
  · rw [hexec, if_neg (mt (barUnchanged_iff e b).mp hsame), if_pos ((barInUse_iff b).mpr ⟨hinit, huse⟩)]
  · have hunused : ¬ barInUse b = true := by
      rw [barInUse_iff]
      rintro ⟨hinit, huse⟩
      obtain ⟨ha, hpend⟩ := hfree hinit
      exact huse.elim (· ha) (· hpend)
    rw [if_neg (mt (barUnchanged_iff e b).mp hsame), if_neg hunused] at hexec
    obtain ⟨hmoves, hadv, hgroups⟩ := advance_initBarrier hlegal.1 hsp e
    exact ⟨_, _, hexec, hmoves, hadv, ⟨_, barrierIs_initBarrier hb, rfl, barAuto_iff e, rfl, rfl, rfl, rfl, rfl⟩, hgroups⟩

theorem barrierQuery : BarrierQueryRule := by
  intro e s sp b hlegal hsp hb
  refine ⟨_, ?_, result_congr ?_ (aluBody_result hlegal.1 e [] (rdLocB e) 1 fun _ =>
    (barWord (curBarrier s (immRj e)) ((curGroup s).arr.getLsbD (immRj e)), noFlags))⟩
  · show execBarQry e s = _
    exact runForm_legal hlegal _
  · rw [curBarrier_eq hsp hb, barWord_eq_queryWord]

/-- Settles O16: BAR.INIT's three outcomes are the branches of `exec_barInit`, the last one a change of the issuing span alone
(`spanMoves_modCurSpan`); BAR.QRY writes `barWord` (`aluBody_result`), which is R189's word field by field (`barWord_eq_queryWord`). -/
theorem barrierStates : Obligations.BarrierStates := ⟨barrierInit, barrierQuery⟩

end Sys2Proof.Claims
end

section
/-!
SUPPORT. Interval registers written (R385, R399): what a register reads after writes to it and to others, in one lane and in every active
lane, and what an IV instruction's body leaves.
-/

namespace Sys2Proof.Machine

open Sys2Proof Sys2Proof.Claims

/-! ### One interval register -/

/-- Items written over a range read back as they were given. -/
theorem cellRange_cellSetRange_same {w : Nat} (d : BitVec w) (bs : List (BitVec w)) (c : Cells w) (a : Nat) :
    cellRange d (cellSetRange d c a bs) a bs.length = bs := by
  induction bs generalizing c a with
  | nil => rfl
  | cons x xs ih =>
    have hhead := cellGet_cellSetRange_in d (x :: xs) c a 0 (by simp)
    rw [List.length_cons, cellRange]
    exact congrArg₂ List.cons (by simpa using hhead) (ih (cellSet d c a x) (a + 1))

/-- Items of a range read as before where what is written lies apart from it. -/
theorem cellRange_cellSetRange_other {w : Nat} (d : BitVec w) (bs : List (BitVec w)) (c : Cells w) {a b n : Nat}
    (h : b + n ≤ a ∨ a + bs.length ≤ b) : cellRange d (cellSetRange d c a bs) b n = cellRange d c b n :=
  cellRange_congr d n b fun i hi => cellGet_cellSetRange_other d bs c a (b + i) (by omega)

/-- An interval register read after a write: the six words written where it is the one written, its own where it is another. -/
theorem readInterval_writeInterval (g : Group) {r lane r' lane' : Nat} {ws : List Word} (h : lane < 32) (h' : lane' < 32)
    (hws : ws.length = 6) :
    readInterval (writeInterval r lane ws g) r' lane' = if r' = r ∧ lane' = lane then ws else readInterval g r' lane' := by
  obtain ⟨w0, rest, rfl⟩ := List.exists_cons_of_length_eq_add_one hws
  have hrest : rest.length = 5 := by simpa using hws
  by_cases hsame : r' = r ∧ lane' = lane
  · obtain ⟨rfl, rfl⟩ := hsame
    have hbody := cellRange_cellSetRange_same 0 rest g.ivBody (8 * (32 * r' + lane') + 1)
    rw [hrest] at hbody
    simp only [readInterval, writeInterval, cellGet_cellSet_same, hbody, and_self, if_true]
  · have hne : 32 * r' + lane' ≠ 32 * r + lane := by omega
    rw [if_neg hsame]
    simp only [readInterval, writeInterval]
    rw [cellGet_cellSet_other _ _ _ hne, cellRange_cellSetRange_other 0 rest _ (by omega)]

/-- Writing an interval register changes only the interval registers. -/
theorem writeInterval_rest (r lane : Nat) (ws : List Word) (g : Group) :
    writeInterval r lane ws g = { g with ivHead := (writeInterval r lane ws g).ivHead, ivBody := (writeInterval r lane ws g).ivBody } := by
  cases ws <;> rfl

/-! ### Several interval registers of a lane -/

/-- Interval registers of a lane written, in order; each comes with what it becomes in each lane. -/
def writeIntervals (w : List (Nat × (Nat → List Word))) (lane : Nat) (g : Group) : Group :=
  w.foldl (fun acc p => writeInterval p.1 lane (p.2 lane) acc) g

/-- Every interval that is written has its six words. -/
def WritesSixWords (w : List (Nat × (Nat → List Word))) : Prop := ∀ p ∈ w, ∀ lane, (p.2 lane).length = 6

section
variable {w : List (Nat × (Nat → List Word))} (hw : WritesSixWords w)
include hw

theorem readInterval_writeIntervals_other {lane k lane' : Nat} (hl : lane < 32) (hl' : lane' < 32)
    (h : ¬ (lane' = lane ∧ k ∈ w.map (·.1))) (g : Group) : readInterval (writeIntervals w lane g) k lane' = readInterval g k lane' := by
  induction w generalizing g with
  | nil => rfl
  | cons p rest ih =>
    have hrest : ¬ (lane' = lane ∧ k ∈ rest.map (·.1)) := fun hc => h ⟨hc.1, by simp only [List.map_cons, List.mem_cons, hc.2, or_true]⟩
    have hp : ¬ (k = p.1 ∧ lane' = lane) := fun hc => h ⟨hc.2, by simp [hc.1]⟩
    rw [writeIntervals, List.foldl_cons]
    refine (ih (fun q hq => hw q (by simp [hq])) hrest _).trans ?_
    rw [readInterval_writeInterval g hl hl' (hw p (by simp) lane), if_neg hp]

theorem readInterval_writeIntervals_same {lane : Nat} (hl : lane < 32) (hk : (w.map (·.1)).Nodup) {p : Nat × (Nat → List Word)}
    (hp : p ∈ w) (g : Group) : readInterval (writeIntervals w lane g) p.1 lane = p.2 lane := by
  induction w generalizing g with
  | nil => exact absurd hp (by simp)
  | cons q rest ih =>
    have hrest : WritesSixWords rest := fun q hq => hw q (by simp [hq])
    rw [List.map_cons, List.nodup_cons] at hk
    rw [writeIntervals, List.foldl_cons]
    rcases List.mem_cons.mp hp with rfl | hmem
    · refine (readInterval_writeIntervals_other hrest hl hl (fun hc => hk.1 hc.2) _).trans ?_
      rw [readInterval_writeInterval g hl hl (hw p (by simp) lane), if_pos ⟨rfl, rfl⟩]
    · exact ih hrest hk.2 hmem _

end

theorem writeIntervals_rest (w : List (Nat × (Nat → List Word))) (lane : Nat) (g : Group) :
    writeIntervals w lane g = { g with ivHead := (writeIntervals w lane g).ivHead, ivBody := (writeIntervals w lane g).ivBody } := by
  induction w generalizing g with
  | nil => rfl
  | cons p rest ih =>
    rw [writeIntervals, List.foldl_cons]
    refine (ih _).trans ?_
    rw [writeInterval_rest p.1 lane]
    rfl

/-! ### One lane after another -/

/-- The interval registers written in each of some lanes. -/
def writeLaneIntervals (w : List (Nat × (Nat → List Word))) (lanes : List Nat) (g : Group) : Group :=
  lanes.foldl (fun acc l => writeIntervals w l acc) g

section
variable {w : List (Nat × (Nat → List Word))} (hw : WritesSixWords w)
include hw

theorem readInterval_writeLaneIntervals_other {lanes : List Nat} (hl : ∀ i ∈ lanes, i < 32) {k lane : Nat} (hlane : lane < 32)
    (h : ¬ (lane ∈ lanes ∧ k ∈ w.map (·.1))) (g : Group) :
    readInterval (writeLaneIntervals w lanes g) k lane = readInterval g k lane := by
  induction lanes generalizing g with
  | nil => rfl
  | cons i rest ih =>
    rw [writeLaneIntervals, List.foldl_cons]
    refine (ih (fun j hj => hl j (by simp [hj])) (fun hc => h ⟨by simp [hc.1], hc.2⟩) _).trans ?_
    exact readInterval_writeIntervals_other hw (hl i (by simp)) hlane (fun hc => h ⟨by simp [hc.1], hc.2⟩) g

theorem readInterval_writeLaneIntervals_same {lanes : List Nat} (hl : ∀ i ∈ lanes, i < 32) (hk : (w.map (·.1)).Nodup)
    {p : Nat × (Nat → List Word)} (hp : p ∈ w) {lane : Nat} (hlane : lane ∈ lanes) (g : Group) :
    readInterval (writeLaneIntervals w lanes g) p.1 lane = p.2 lane := by
  induction lanes generalizing g with
  | nil => exact absurd hlane (by simp)
  | cons i rest ih =>
    have hrest : ∀ j ∈ rest, j < 32 := fun j hj => hl j (by simp [hj])
    rw [writeLaneIntervals, List.foldl_cons]
    by_cases hmem : lane ∈ rest
    · exact ih hrest hmem _
    · obtain rfl : lane = i := (List.mem_cons.mp hlane).resolve_right hmem
      have hlt := hl lane (by simp)
      exact (readInterval_writeLaneIntervals_other hw hrest hlt (fun hc => hmem hc.1) _).trans
        (readInterval_writeIntervals_same hw hlt hk hp g)

end

theorem writeLaneIntervals_rest (w : List (Nat × (Nat → List Word))) (lanes : List Nat) (g : Group) :
    writeLaneIntervals w lanes g =
      { g with ivHead := (writeLaneIntervals w lanes g).ivHead, ivBody := (writeLaneIntervals w lanes g).ivBody } := by
  induction lanes generalizing g with
  | nil => rfl
  | cons i rest ih =>
    rw [writeLaneIntervals, List.foldl_cons]
    refine (ih _).trans ?_
    rw [writeIntervals_rest w i]
    rfl

/-! ### What the body of an IV instruction leaves -/

/-- A body that writes lane registers. -/
theorem laneResult_ivBody {s : State} (h : Issues s) (e : Enc) {f : Group → Nat → Group → Group} (rd k : Nat) (r : Nat → Nat)
    (hf : ∀ l g, f (curGroup s) l g = writeVs rd l (wordsOf k (r l)) g) :
    LaneResult s (ivBody e f s) (wordLen e) (actLanes e s) rd k fun l => (r l, noFlags) := by
  have hloop := laneResult_intro h (wordLen e) (actLanes e s) rd k fun l => (r l, noFlags)
  simpa only [ivBody, hf, mergeFlags_noFlags] using hloop

/-- A body that writes interval registers. -/
theorem ivResult_ivBody {s : State} (h : Issues s) (e : Enc) {f : Group → Nat → Group → Group} {w : List (Nat × (Nat → List Word))}
    (hw : WritesSixWords w) (hk : (w.map (·.1)).Nodup) (hf : ∀ l g, f (curGroup s) l g = writeIntervals w l g) :
    IvResult s (ivBody e f s) (wordLen e) (actLanes e s) w := by
  have hbody : ivBody e f s = advance (wordLen e) (modCur s (writeLaneIntervals w (laneList (actLanes e s)))) := by
    simp only [ivBody, hf]
    rfl
  have hframe := writeLaneIntervals_rest w (laneList (actLanes e s)) (curGroup s)
  have hslices : (writeLaneIntervals w (laneList (actLanes e s)) (curGroup s)).slices = (curGroup s).slices := by rw [hframe]
  have hlanes : ∀ i ∈ laneList (actLanes e s), i < 32 := fun i hi => ((mem_laneList _ i).mp hi).1
  have hgroup := curGroup_advance_modCur h (wordLen e) _ hslices
  have honly := advance_modCur_only h (wordLen e) _ hslices
  rw [hbody]
  refine ⟨fun p hp lane hlane hact => ?_, fun k lane hlane hnot => ?_, advanced_modCur h _ _ hslices, ?_, honly.1, honly.2⟩
  · rw [hgroup]
    exact readInterval_writeLaneIntervals_same hw hlanes hk hp ((mem_laneList _ lane).mpr ⟨hlane, hact⟩) (curGroup s)
  · rw [hgroup]
    exact readInterval_writeLaneIntervals_other hw hlanes hlane (fun hc => hnot ⟨((mem_laneList _ lane).mp hc.1).2, hc.2⟩) (curGroup s)
  · rw [hgroup]
    unfold modSlices
    rw [hframe]

end Sys2Proof.Machine
end

section
/-!
SUPPORT. The layout and the arithmetic of an interval (R385, R399 to R401): its fields, its views, the pixel of a view as the first view's
and the steps between, the view nearest a reference, and normalisation.
-/

namespace Sys2Proof.Machine

open Sys2Proof Sys2Proof.Claims

/-! ### The fields of an interval (R385) -/

section
variable (mask steps first last follower dsign x seq : Nat)

@[simp] theorem ivMask_ivOf : ivMask (ivOf mask steps first last follower dsign x seq) = mask % 2 ^ 64 := by
  simp [ivMask, ivWord, ivOf]
  omega

@[simp] theorem ivSteps_ivOf : ivSteps (ivOf mask steps first last follower dsign x seq) = steps % 2 ^ 64 := by
  simp [ivSteps, ivWord, ivOf]
  omega

@[simp] theorem ivFirst_ivOf : ivFirst (ivOf mask steps first last follower dsign x seq) = first % 64 := by
  simp [ivFirst, ivWord, ivOf, bitsOf]
  omega

@[simp] theorem ivLast_ivOf : ivLast (ivOf mask steps first last follower dsign x seq) = last % 64 := by
  simp [ivLast, ivWord, ivOf, bitsOf]
  omega

@[simp] theorem ivFollower_ivOf : ivFollower (ivOf mask steps first last follower dsign x seq) = follower % 2 := by
  simp [ivFollower, ivWord, ivOf, bitsOf]
  omega

@[simp] theorem ivDsign_ivOf : ivDsign (ivOf mask steps first last follower dsign x seq) = dsign % 2 := by
  simp [ivDsign, ivWord, ivOf, bitsOf]
  omega

@[simp] theorem ivX_ivOf : ivX (ivOf mask steps first last follower dsign x seq) = x % 2 ^ 16 := by
  simp [ivX, ivWord, ivOf, bitsOf]
  omega

@[simp] theorem ivSeq_ivOf : ivSeq (ivOf mask steps first last follower dsign x seq) = seq % 2 ^ 32 := by
  simp [ivSeq, ivWord, ivOf]

end

section
variable (ws : List Word)

theorem ivWord_lt (k : Nat) : ivWord ws k < 2 ^ 32 := ((ws[k]?).getD 0).isLt

theorem ivMask_lt : ivMask ws < 2 ^ 64 := by
  have hlo := ivWord_lt ws 1
  have hhi := ivWord_lt ws 2
  unfold ivMask
  omega

theorem ivSteps_lt : ivSteps ws < 2 ^ 64 := by
  have hlo := ivWord_lt ws 3
  have hhi := ivWord_lt ws 4
  unfold ivSteps
  omega

theorem ivFollower_lt : ivFollower ws < 2 := Nat.mod_lt _ (by decide)

theorem ivDsign_lt : ivDsign ws < 2 := Nat.mod_lt _ (by decide)

theorem ivSeq_lt : ivSeq ws < 2 ^ 32 := ivWord_lt ws 5

end

/-! ### The views of a mask -/

theorem mem_viewsOf {m v : Nat} : v ∈ viewsOf m ↔ v < 64 ∧ m.testBit v = true := by
  simp [viewsOf, upTo]

theorem viewsOf_pairwise_lt (m : Nat) : (viewsOf m).Pairwise (· < ·) := List.Pairwise.filter _ List.pairwise_lt_range

/-- Every set bit of a mask of 64 bits is a view. -/
theorem lt_64_of_testBit {m v : Nat} (hm : m < 2 ^ 64) (hv : m.testBit v = true) : v < 64 := by
  by_contra hge
  have hle : 2 ^ 64 ≤ 2 ^ v := Nat.pow_le_pow_right (by decide) (by omega)
  rw [Nat.testBit_lt_two_pow (Nat.lt_of_lt_of_le hm hle)] at hv
  exact absurd hv (by decide)

theorem viewsOf_eq_nil_iff {m : Nat} (hm : m < 2 ^ 64) : viewsOf m = [] ↔ m = 0 := by
  refine ⟨fun hnil => Nat.eq_of_testBit_eq fun v => ?_, fun h => by subst h; rfl⟩
  rw [Nat.zero_testBit]
  by_contra hv
  have hv : m.testBit v = true := by simpa using hv
  exact absurd (mem_viewsOf.mpr ⟨lt_64_of_testBit hm hv, hv⟩) (by simp [hnil])

/-- `f` and `l` are the lowest and the highest view of a mask. -/
structure ViewRange (m f l : Nat) : Prop where
  first_lt : f < 64
  last_lt : l < 64
  first_set : m.testBit f = true
  last_set : m.testBit l = true
  within : ∀ v, m.testBit v = true → f ≤ v ∧ v ≤ l

theorem viewRange_of_viewsOf {m f : Nat} {rest : List Nat} (hm : m < 2 ^ 64) (h : viewsOf m = f :: rest) :
    ViewRange m f ((rest.getLast?).getD f) := by
  have hlast : (viewsOf m).getLast? = some ((rest.getLast?).getD f) := by rw [h, List.getLast?_cons]
  have hf := mem_viewsOf.mp (h ▸ List.mem_cons_self : f ∈ viewsOf m)
  have hl := mem_viewsOf.mp (List.mem_of_getLast? hlast)
  refine ⟨hf.1, hl.1, hf.2, hl.2, fun v hv => ?_⟩
  have hsorted := viewsOf_pairwise_lt m
  have hmem : v ∈ viewsOf m := mem_viewsOf.mpr ⟨lt_64_of_testBit hm hv, hv⟩
  constructor
  · rw [h, List.pairwise_cons] at hsorted
    rw [h, List.mem_cons] at hmem
    exact hmem.elim (fun heq => heq ▸ Nat.le_refl f) fun hr => Nat.le_of_lt (hsorted.1 v hr)
  · obtain ⟨init, hinit⟩ := List.getLast?_eq_some_iff.mp hlast
    rw [hinit, List.pairwise_append] at hsorted
    rw [hinit, List.mem_append, List.mem_singleton] at hmem
    exact hmem.elim (fun hi => Nat.le_of_lt (hsorted.2.2 v hi _ (by simp))) fun heq => heq ▸ Nat.le_refl v

/-! ### Steps and pixels (R385) -/

/-- The number of steps of a step mask at the views from `a` on, below `b`. -/
def stepsBetween (m a b : Nat) : Nat := ((viewsOf m).filter fun k => decide (a ≤ k) && decide (k < b)).length

/-- A number as moved by the interval's steps: up, or down where the d sign is set. -/
def stepped (ws : List Word) (x : Int) (n : Nat) : Int := x + (if ivDsign ws = 1 then -(n : Int) else n)

theorem ivPixel_eq (ws : List Word) (v : Nat) :
    ivPixel ws v = signedOf 16 (stepped ws (ivX ws) (stepsBetween (ivSteps ws) (ivFirst ws) v) % (2 ^ 16 : Nat)).toNat := rfl

theorem stepsBetween_add (m : Nat) {a b c : Nat} (hab : a ≤ b) (hbc : b ≤ c) :
    stepsBetween m a c = stepsBetween m a b + stepsBetween m b c := by
  unfold stepsBetween
  induction viewsOf m with
  | nil => rfl
  | cons k rest ih =>
    simp only [List.filter_cons, Bool.and_eq_true, decide_eq_true_eq, apply_ite List.length, List.length_cons]
    split <;> split <;> split <;> omega

/-- Two step masks that agree from `a` on, below `b`, have the same number of steps there. -/
theorem stepsBetween_congr {m m' a b : Nat} (h : ∀ k, a ≤ k → k < b → m.testBit k = m'.testBit k) :
    stepsBetween m a b = stepsBetween m' a b := by
  unfold stepsBetween viewsOf
  rw [List.filter_filter, List.filter_filter]
  refine congrArg List.length (List.filter_congr fun k _ => ?_)
  by_cases hk : a ≤ k ∧ k < b
  · rw [h k hk.1 hk.2]
  · have hout : (decide (a ≤ k) && decide (k < b)) = false := by simpa using hk
    rw [hout, Bool.false_and, Bool.false_and]

theorem stepped_add (ws : List Word) (x : Int) (m n : Nat) : stepped ws x (m + n) = stepped ws (stepped ws x m) n := by
  unfold stepped
  split <;> omega

/-- Steps from a pixel read as 16 bits reach what steps from the number itself reach. -/
theorem signedOf_stepped_pixel {ws ws' : List Word} (hd : ivDsign ws' = ivDsign ws) (y : Int) (n : Nat) :
    signedOf 16 (stepped ws' (((signedOf 16 (y % (2 ^ 16 : Nat)).toNat % (2 ^ 16 : Nat)).toNat % 2 ^ 16 : Nat) : Int) n % (2 ^ 16 : Nat)).toNat =
      signedOf 16 (stepped ws y n % (2 ^ 16 : Nat)).toNat := by
  have hpixel : (((signedOf 16 (y % (2 ^ 16 : Nat)).toNat % (2 ^ 16 : Nat)).toNat % 2 ^ 16 : Nat) : Int) = y % (2 ^ 16 : Nat) := by
    unfold signedOf
    split <;> omega
  rw [hpixel]
  refine congrArg (fun z : Int => signedOf 16 z.toNat) ?_
  unfold stepped
  rw [hd, Int.emod_add_emod]

/-! ### The view nearest a reference (R401) -/

theorem viewDistance_eq_natAbs (ch v : Nat) : viewDistance ch v = (2 * (v : Int) - ch).natAbs := by
  unfold viewDistance
  split <;> omega

/-- `v` is at least as near the reference as `u`, and earlier where both are as near. -/
def NotAfter (ch v u : Nat) : Prop := viewDistance ch v < viewDistance ch u ∨ viewDistance ch v = viewDistance ch u ∧ v ≤ u

theorem notAfter_iff {ch v u : Nat} : NotAfter ch v u ↔
    (2 * (v : Int) - ch).natAbs < (2 * (u : Int) - ch).natAbs ∨ (2 * (v : Int) - ch).natAbs = (2 * (u : Int) - ch).natAbs ∧ v ≤ u := by
  unfold NotAfter
  rw [viewDistance_eq_natAbs, viewDistance_eq_natAbs]

theorem notAfter_antisymm {ch v u : Nat} (h : NotAfter ch v u) (h' : NotAfter ch u v) : v = u := by
  unfold NotAfter at h h'
  omega

/-- The view of a list nearest the reference, the earliest of those as near; there is one unless the list is empty. -/
theorem nearestView_spec (ch : Nat) {l : List Nat} (hl : l.Pairwise (· < ·)) :
    match nearestView ch l with
    | none => l = []
    | some v => v ∈ l ∧ ∀ u ∈ l, NotAfter ch v u := by
  induction l with
  | nil => rfl
  | cons v rest ih =>
    rw [List.pairwise_cons] at hl
    have hrest := ih hl.2
    simp only [nearestView]
    cases hn : nearestView ch rest with
    | none =>
      simp only [hn] at hrest
      subst hrest
      refine ⟨List.mem_cons_self, fun u hu => ?_⟩
      rw [List.mem_singleton.mp hu]
      exact .inr ⟨rfl, Nat.le_refl v⟩
    | some w =>
      simp only [hn] at hrest
      obtain ⟨hmem, hmin⟩ := hrest
      by_cases hle : viewDistance ch v ≤ viewDistance ch w
      · simp only [if_pos hle]
        refine ⟨List.mem_cons_self, fun u hu => (List.mem_cons.mp hu).elim (fun h => .inr ⟨by rw [h], by omega⟩) fun hr => ?_⟩
        have hu := hmin u hr
        have hvu := hl.1 u hr
        unfold NotAfter at hu ⊢
        omega
      · simp only [if_neg hle]
        refine ⟨List.mem_cons_of_mem v hmem, fun u hu => (List.mem_cons.mp hu).elim (fun h => .inl ?_) (hmin u)⟩
        rw [h]
        omega

/-- What IVREP writes of an interval for the reference `ch`. -/
def ivRepNumber (ws : List Word) (ch : Nat) : Nat :=
  match nearestView ch (viewsOf (ivMask ws)) with
  | none => 0xFFFFFFFF
  | some v => 2 ^ 16 * ((ivPixel ws v) % (2 ^ 16 : Nat)).toNat + v

theorem isRepresentative_ivRepNumber (ws : List Word) (ch : Nat) : isRepresentative ws ch (ivRepNumber ws ch) := by
  have hspec := nearestView_spec ch (viewsOf_pairwise_lt (ivMask ws))
  unfold ivRepNumber
  cases hn : nearestView ch (viewsOf (ivMask ws)) with
  | none =>
    simp only [hn] at hspec
    refine ⟨fun _ => rfl, fun v hv hset _ => ?_⟩
    exact absurd (mem_viewsOf.mpr ⟨hv, hset⟩) (by simp [hspec])
  | some w =>
    simp only [hn] at hspec
    obtain ⟨hmem, hmin⟩ := hspec
    have hw := mem_viewsOf.mp hmem
    refine ⟨fun hzero => ?_, fun v hv hset hnear => ?_⟩
    · rw [hzero, Nat.zero_testBit] at hw
      exact absurd hw.2 (by decide)
    · rw [notAfter_antisymm (hmin v (mem_viewsOf.mpr ⟨hv, hset⟩)) (notAfter_iff.mpr (hnear w hw.1 hw.2))]

/-! ### Normalisation (R399) -/

/-- The steps a normalised interval keeps: those from its first view on, below its last. -/
def keptSteps (ws : List Word) (f l : Nat) : Nat := ivSteps ws % 2 ^ l / 2 ^ f * 2 ^ f

theorem testBit_keptSteps (ws : List Word) (f l v : Nat) :
    (keptSteps ws f l).testBit v = (decide (f ≤ v) && decide (v < l) && (ivSteps ws).testBit v) := by
  unfold keptSteps
  rw [Nat.testBit_mul_two_pow, Nat.testBit_div_two_pow, Nat.testBit_mod_two_pow]
  by_cases hf : f ≤ v
  · rw [Nat.sub_add_cancel hf]
    simp [hf]
  · simp [hf]

theorem keptSteps_lt (ws : List Word) (f l : Nat) : keptSteps ws f l < 2 ^ 64 :=
  calc keptSteps ws f l ≤ ivSteps ws % 2 ^ l := Nat.div_mul_le_self _ _
    _ ≤ ivSteps ws := Nat.mod_le _ _
    _ < 2 ^ 64 := ivSteps_lt ws

theorem ivNorm_zero (ws : List Word) : ivNorm ws 0 = ivEmpty := rfl

/-- `ws'` is `ws` normalised for the views `m`, the lowest `f` and the highest `l`: their steps kept, x the first view's pixel. -/
structure Normalised (ws ws' : List Word) (m f l : Nat) : Prop where
  mask : ivMask ws' = m
  steps : ivSteps ws' = keptSteps ws f l
  first : ivFirst ws' = f
  last : ivLast ws' = l
  follower : ivFollower ws' = ivFollower ws
  dsign : ivDsign ws' = ivDsign ws
  x : ivX ws' = (ivPixel ws f % (2 ^ 16 : Nat)).toNat % 2 ^ 16
  seq : ivSeq ws' = ivSeq ws

theorem normalised_ivOf (ws : List Word) {m f l : Nat} (hm : m < 2 ^ 64) (hf : f < 64) (hl : l < 64) :
    Normalised ws (ivOf m (keptSteps ws f l) f l (ivFollower ws) (ivDsign ws) (ivPixel ws f % (2 ^ 16 : Nat)).toNat (ivSeq ws)) m f l where
  mask := by rw [ivMask_ivOf, Nat.mod_eq_of_lt hm]
  steps := by rw [ivSteps_ivOf, Nat.mod_eq_of_lt (keptSteps_lt ws f l)]
  first := by rw [ivFirst_ivOf, Nat.mod_eq_of_lt hf]
  last := by rw [ivLast_ivOf, Nat.mod_eq_of_lt hl]
  follower := by rw [ivFollower_ivOf, Nat.mod_eq_of_lt (ivFollower_lt ws)]
  dsign := by rw [ivDsign_ivOf, Nat.mod_eq_of_lt (ivDsign_lt ws)]
  x := ivX_ivOf ..
  seq := by rw [ivSeq_ivOf, Nat.mod_eq_of_lt (ivSeq_lt ws)]

theorem normalised_ivNorm (ws : List Word) {m : Nat} (hm : m < 2 ^ 64) (hne : m ≠ 0) :
    ∃ f l, ViewRange m f l ∧ Normalised ws (ivNorm ws m) m f l := by
  cases hv : viewsOf m with
  | nil => exact absurd ((viewsOf_eq_nil_iff hm).mp hv) hne
  | cons f rest =>
    have hrange := viewRange_of_viewsOf hm hv
    have hsteps : bitsOf (ivSteps ws) 63 0 = ivSteps ws := by
      simpa [bitsOf] using Nat.mod_eq_of_lt (ivSteps_lt ws)
    refine ⟨f, (rest.getLast?).getD f, hrange, ?_⟩
    simp only [ivNorm, hv, hsteps]
    exact normalised_ivOf ws hm hrange.first_lt hrange.last_lt

theorem length_ivNorm (ws : List Word) (m : Nat) : (ivNorm ws m).length = 6 := by
  unfold ivNorm
  split <;> rfl

/-- Every view of a normalised interval keeps its pixel: the steps below its first view are in that view's pixel, those from there on are
kept. -/
theorem ivPixel_of_normalised {ws ws' : List Word} {m f l v : Nat} (h : Normalised ws ws' m f l) (hfirst : ivFirst ws ≤ f) (hfv : f ≤ v)
    (hvl : v ≤ l) : ivPixel ws' v = ivPixel ws v := by
  have hkept : stepsBetween (keptSteps ws f l) f v = stepsBetween (ivSteps ws) f v := stepsBetween_congr fun k hk hkv => by
    rw [testBit_keptSteps]
    simp [hk, Nat.lt_of_lt_of_le hkv hvl]
  rw [ivPixel_eq ws', h.first, h.steps, hkept, h.x, ivPixel_eq ws f, signedOf_stepped_pixel h.dsign, ← stepped_add,
    ← stepsBetween_add _ hfirst hfv, ← ivPixel_eq]

end Sys2Proof.Machine
end

section
/-!
SUPPORT. The seven IV instructions (R399 to R402): what each leaves, and O34.
-/

namespace Sys2Proof.Claims

open Sys2Proof.Machine

/-! ### Words of an instruction and words of a rule -/

theorem cleared_eq_ivClean (ws : List Word) : cleared ws = ivClean ws := by
  cases ws <;> rfl

theorem length_ivClean (ws : List Word) : (ivClean ws).length = ws.length := by
  cases ws <;> rfl

theorem wordsOf_numOf (ws : List Word) : wordsOf ws.length (numOf ws) = ws := by
  induction ws with
  | nil => rfl
  | cons w rest ih =>
    have hword := w.isLt
    have hlow : BitVec.ofNat 32 (w.toNat + 2 ^ 32 * numOf rest) = w := BitVec.eq_of_toNat_eq (by rw [BitVec.toNat_ofNat]; omega)
    have hhigh : (w.toNat + 2 ^ 32 * numOf rest) / 2 ^ 32 = numOf rest := by omega
    show BitVec.ofNat 32 (w.toNat + 2 ^ 32 * numOf rest) :: wordsOf rest.length ((w.toNat + 2 ^ 32 * numOf rest) / 2 ^ 32) = w :: rest
    rw [hlow, hhigh, ih]

theorem length_ivOfLane (e : Enc) (s : State) (l : Nat) : (ivOfLane e s l).length = 6 := by
  rw [ivOfLane, readInterval, List.length_cons, cellRange_length]

/-- The words IVLD refuses are those with a view outside the first and the last (R400). -/
theorem ivLoadBad_iff (ws : List Word) : ivLoadBad ws = true ↔ badInterval ws := by
  simp only [ivLoadBad, badInterval, Bool.and_eq_true, Bool.or_eq_true, bne_iff_ne, decide_eq_true_eq, List.any_eq_true, mem_viewsOf]
  refine and_congr_right fun _ => or_congr_right (exists_congr fun v => and_congr_left fun _ => ?_)
  exact and_iff_right_of_imp (lt_64_of_testBit (ivMask_lt ws))

theorem any_ivLoadBad_iff (e : Enc) (s : State) : ((laneList (actLanes e s)).any fun l => ivLoadBad (ivLoadWords e (curGroup s) l)) = true ↔
    ∃ l, l < 32 ∧ (actLanes e s).getLsbD l = true ∧ badInterval (sixWords e s l) := by
  simp only [List.any_eq_true, mem_laneList, ivLoadBad_iff, and_assoc]
  rfl

theorem readWords_two (g : Group) (r lane : Nat) :
    readWords (fun k => readV g k lane) r 2 = (readV g (r + 1) lane ++ readV g r lane : BitVec 64).toNat :=
  readLocs_two g lane (.lane r)

/-- One interval register is written, with six words. -/
theorem writesSixWords_one {r : Nat} {v : Nat → List Word} (h : ∀ l, (v l).length = 6) : WritesSixWords [(r, v)] := by
  intro p hp
  rw [List.mem_singleton.mp hp]
  exact h

/-! ### Moves (R400) -/

theorem ivmov_result {e : Enc} {s : State} (h : Legal (ivForm (.reg 6 1) .unused) true e s) : ∃ t, exec (.ivmov e) s = .next t ∧
    LaneResult s t (wordLen e) (actLanes e s) e.rd.toNat 6 fun l => (numOf (cleared (ivOfLane e s l)), noFlags) := by
  refine ⟨_, runForm_legal h _, laneResult_ivBody h.1 e _ 6 _ fun l g => ?_⟩
  have hwords := wordsOf_numOf (cleared (ivOfLane e s l))
  rw [cleared_eq_ivClean, length_ivClean, length_ivOfLane] at hwords
  rw [cleared_eq_ivClean, hwords]
  rfl

/-- What IVLD writes in a lane of words it does not refuse. -/
def ivldWords (ws : List Word) : List Word := if ivMask ws = 0 then ivEmpty else ivClean ws

theorem exec_ivld {e : Enc} {s : State} (h : Legal (ivForm .unused (.reg 6 1)) true e s) : exec (.ivld e) s = .next
    (if (laneList (actLanes e s)).any fun l => ivLoadBad (ivLoadWords e (curGroup s) l) then faultWith 7 0 (actLanes e s) s
    else ivBody e (fun g l => writeInterval e.rb.toNat l (ivldWords (ivLoadWords e g l))) s) := by
  show execIvld e s = _
  unfold execIvld
  exact runForm_legal h _

theorem ivld_refused {e : Enc} {s : State} (h : Legal (ivForm .unused (.reg 6 1)) true e s)
    (hbad : ∃ l, l < 32 ∧ (actLanes e s).getLsbD l = true ∧ badInterval (sixWords e s l)) :
    exec (.ivld e) s = .next (faultWith 7 0 (actLanes e s) s) := by
  rw [exec_ivld h, if_pos ((any_ivLoadBad_iff e s).mpr hbad)]

theorem ivld_result {e : Enc} {s : State} (h : Legal (ivForm .unused (.reg 6 1)) true e s)
    (hgood : ∀ l, l < 32 → (actLanes e s).getLsbD l = true → ¬ badInterval (sixWords e s l)) : ∃ t, exec (.ivld e) s = .next t ∧
    IvResult s t (wordLen e) (actLanes e s)
      [(e.rb.toNat, fun l => if ivMask (sixWords e s l) = 0 then [63, 0, 0, 0, 0, 0] else cleared (sixWords e s l))] := by
  have hnone : ¬ ((laneList (actLanes e s)).any fun l => ivLoadBad (ivLoadWords e (curGroup s) l)) = true := fun hany =>
    let ⟨l, hl, hact, hbad⟩ := (any_ivLoadBad_iff e s).mp hany
    hgood l hl hact hbad
  rw [exec_ivld h, if_neg hnone]
  refine ⟨_, rfl, ivResult_ivBody h.1 e (writesSixWords_one fun l => ?_) (by simp) fun l g => ?_⟩
  · split <;> rfl
  · simp only [writeIntervals, List.foldl_cons, List.foldl_nil, cleared_eq_ivClean]
    rfl

/-! ### Reads (R401) -/

theorem ivrep_result {e : Enc} {s : State} (h : Legal (ivForm (.reg 1 1) (.reg 1 1)) true e s) : ∃ t, ∃ f : Nat → Nat, exec (.ivrep e) s = .next t ∧
    (∀ l, isRepresentative (ivOfLane e s l) ((readV (curGroup s) e.ra.toNat l).toNat % 128) (f l)) ∧
    LaneResult s t (wordLen e) (actLanes e s) e.rd.toNat 1 fun l => (f l, noFlags) := by
  refine ⟨_, fun l => ivRepNumber (ivOfLane e s l) ((readV (curGroup s) e.ra.toNat l).toNat % 128), runForm_legal h _,
    fun l => isRepresentative_ivRepNumber _ _, laneResult_ivBody h.1 e _ 1 _ fun l g => ?_⟩
  unfold ivRepNumber ivOfLane ivSource
  cases nearestView ((readV (curGroup s) e.ra.toNat l).toNat % 128) (viewsOf (ivMask (readInterval (curGroup s) e.rb.toNat l))) <;> rfl

theorem ivpos_result {e : Enc} {s : State} (h : Legal (ivForm (.reg 1 1) (.reg 1 1)) true e s) : ∃ t, exec (.ivpos e) s = .next t ∧
    LaneResult s t (wordLen e) (actLanes e s) e.rd.toNat 1 fun l =>
      let v := (readV (curGroup s) e.ra.toNat l).toNat % 64
      (if (ivMask (ivOfLane e s l)).testBit v = true then (BitVec.ofInt 32 (ivPixel (ivOfLane e s l) v)).toNat else 0x80000000, noFlags) := by
  refine ⟨_, runForm_legal h _, laneResult_ivBody h.1 e _ 1 _ fun l g => ?_⟩
  have hsource : ivSource e (curGroup s) l = ivOfLane e s l := rfl
  rw [hsource]
  split
  · rw [wordsOf_one]
    rfl
  · rfl

theorem ivcnt_result {e : Enc} {s : State} (h : Legal (ivForm (.reg 1 1) .unused) true e s) : ∃ t, exec (.ivcnt e) s = .next t ∧
    LaneResult s t (wordLen e) (actLanes e s) e.rd.toNat 1 fun l =>
      (((List.range 64).filter fun v => (ivMask (ivOfLane e s l)).testBit v).length, noFlags) :=
  ⟨_, runForm_legal h _, laneResult_ivBody h.1 e _ 1 _ fun _ _ => rfl⟩

/-! ### Masks and splits (R402) -/

theorem ivmask_result {e : Enc} {s : State} (h : Legal (ivForm .unused (.reg 2 2)) true e s) : ∃ t, exec (.ivmask e) s = .next t ∧
    IvResult s t (wordLen e) (actLanes e s) [(e.rb.toNat, fun l => ivNorm (ivOfLane e s l)
      (ivMask (ivOfLane e s l) &&& (readV (curGroup s) (e.ra.toNat + 1) l ++ readV (curGroup s) e.ra.toNat l : BitVec 64).toNat))] := by
  refine ⟨_, runForm_legal h _, ivResult_ivBody h.1 e (writesSixWords_one fun l => length_ivNorm _ _) (by simp) fun l g => ?_⟩
  rw [readWords_two]
  rfl

theorem ivsplit_result {e : Enc} {s : State} (h : Legal (ivForm (.index 8) (.reg 1 1)) (e.rd != e.rb) e s) : ∃ t, exec (.ivsplit e) s = .next t ∧
    let cut (l : Nat) : Nat := 2 ^ ((readV (curGroup s) e.ra.toNat l).toNat % 128)
    IvResult s t (wordLen e) (actLanes e s)
      [(e.rd.toNat, fun l => ivNorm (ivOfLane e s l) (ivMask (ivOfLane e s l) / cut l * cut l)),
       (e.rb.toNat, fun l => ivNorm (ivOfLane e s l) (ivMask (ivOfLane e s l) % cut l))] := by
  have hne : e.rd.toNat ≠ e.rb.toNat := fun heq => bne_iff_ne.mp h.extra (BitVec.eq_of_toNat_eq heq)
  refine ⟨_, runForm_legal h _, ivResult_ivBody h.1 e ?_ (by simpa using hne) fun l g => ?_⟩
  · intro p hp lane
    rcases List.mem_pair.mp hp with rfl | rfl <;> exact length_ivNorm _ _
  · have hsource : ivSource e (curGroup s) l = ivOfLane e s l := rfl
    simp only [hsource, writeIntervals, List.foldl_cons, List.foldl_nil, Nat.div_mul_self_eq_mod_sub_self]

/-! ### A reshaped interval (R399) -/

theorem reshaped_interval (ws : List Word) {m : Nat} (hm : m < 2 ^ 64) (hne : m ≠ 0) (hfirst : ∀ v, m.testBit v = true → ivFirst ws ≤ v) :
    ivMask (ivNorm ws m) = m ∧ m.testBit (ivFirst (ivNorm ws m)) = true ∧ m.testBit (ivLast (ivNorm ws m)) = true ∧
      (∀ v, m.testBit v = true → ivFirst (ivNorm ws m) ≤ v ∧ v ≤ ivLast (ivNorm ws m)) ∧ ivSeq (ivNorm ws m) = ivSeq ws ∧
      ivDsign (ivNorm ws m) = ivDsign ws ∧ ivFollower (ivNorm ws m) = ivFollower ws ∧
      (∀ v, ivSteps (ivNorm ws m) / 2 ^ v % 2 = 1 → ivFirst (ivNorm ws m) ≤ v ∧ v < ivLast (ivNorm ws m)) ∧
      ∀ v, v < 64 → m.testBit v = true → ivPixel (ivNorm ws m) v = ivPixel ws v := by
  obtain ⟨f, l, hrange, h⟩ := normalised_ivNorm ws hm hne
  rw [h.mask, h.first, h.last, h.steps]
  refine ⟨rfl, hrange.first_set, hrange.last_set, hrange.within, h.seq, h.dsign, h.follower, fun v hv => ?_, fun v _ hv => ?_⟩
  · have hbit : (keptSteps ws f l).testBit v = true := by rw [Nat.testBit_eq_decide_div_mod_eq, hv]; rfl
    rw [testBit_keptSteps, Bool.and_eq_true, Bool.and_eq_true, decide_eq_true_eq, decide_eq_true_eq] at hbit
    exact hbit.1
  · obtain ⟨hfv, hvl⟩ := hrange.within v hv
    exact ivPixel_of_normalised h (hfirst f hrange.first_set) hfv hvl

/-- Settles O34: each instruction's body writes lane registers (`laneResult_ivBody`) or interval registers (`ivResult_ivBody`) in the active
lanes; IVREP's view is the nearest one (`nearestView_spec`); a reshaped interval is `Normalised`, and its views' pixels stand because
steps below the first view are in that view's pixel and the others are kept (`ivPixel_of_normalised`). -/
theorem intervalRegisters : Obligations.IntervalRegisters := by
  unfold Obligations.IntervalRegisters
  refine ⟨fun e s => ivmov_result, fun e s h => ⟨ivld_refused h, ivld_result h⟩, fun e s => ivrep_result, fun e s => ivpos_result,
    fun e s => ivcnt_result, fun e s => ivmask_result, fun e s => ivsplit_result, fun ws m hm hfirst => ⟨fun hzero => ?_, fun hne => ?_⟩⟩
  · rw [hzero, ivNorm_zero]
    rfl
  · exact reshaped_interval ws hm hne hfirst

end Sys2Proof.Claims
end
